-- ==== Sys2Proof/Word.lean ====
section
/-!
DEFINITION. The words of the machine: 32-bit register and instruction words, bytes, 7-bit operand codes,
lane masks of 96 positions (R3, R8, R33, R114).
-/
namespace Sys2Proof

/-- A 32-bit register, instruction or literal word (R30, R114). -/
abbrev Word := BitVec 32

/-- One byte of memory (R3). -/
abbrev Byte := BitVec 8

/-- A 64-bit value: an address pair, a stream word, a logical clock (R64, R114, R230). -/
abbrev DWord := BitVec 64

/-- A 7-bit operand code or descriptor field (R33, R36). -/
abbrev Code := BitVec 7

/-- A mask over the 96 LANEIX positions of a group, bit i for position i (R8). -/
abbrev Mask := BitVec 96

end Sys2Proof
end

