-- ==== Sys2Proof/Config.lean ====
section
/-!
DEFINITION. What an implementation fixes, and the free values: constants with no body, of which nothing can be proved but what
holds for every value (logs 8, 9, 11, 15, 16, 17, 18, 23, 31, 40, 56).
-/
namespace Sys2Proof

/-- What an SFU gives for an input where R171 to R173 fix no bits: by function code and input (log 8, DESIGN CHOICE). -/
opaque Config.sfuValue : Nat → Word → Word

/-- The place of a lane in an order that DET = 0 leaves open, by draw number and lid (R242, R279, R331; log 9, DESIGN CHOICE). -/
opaque Config.laneKey : Nat → Nat → Nat

/-- What a vendor-test word leaves in a team's own state, by draw number and place (R62; log 15, DESIGN CHOICE). -/
opaque Config.vendorWord : Nat → Nat → Word

/-- The flattening budget B of a clock level, set by Pilot firmware (R215; log 23, DESIGN CHOICE). -/
opaque Config.budgetB : Nat → Nat

/-- The flattening budget H of a clock level, set by Pilot firmware (R215; log 23, DESIGN CHOICE). -/
opaque Config.budgetH : Nat → Nat

/-- The signature of the attestation report, by the digest it signs, draw number and place: the identity key is not given (R436; log 18,
DESIGN CHOICE). -/
opaque Config.attestByte : List Byte → Nat → Nat → Byte

/-- The Harbourmaster image (0) and the Pilot image (1) in a bundle (R434, R436; log 18, DESIGN CHOICE). -/
opaque Config.bundleImage : Nat → List (Nat × Byte) → List Byte

/-- Whether the vendor root's signature of a firmware bundle verifies, by the bytes it holds (R434; log 16, DESIGN CHOICE). -/
opaque Config.vendorSigned : List (Nat × Byte) → Bool

/-- Whether the signature of the owner root whose key has a hash verifies, by a bundle's bytes (R434; log 16, DESIGN CHOICE). -/
opaque Config.ownerSigned : BitVec 512 → List (Nat × Byte) → Bool

/-- The SHA3-512 hash of the owner root key that a bundle's transition record carries (R433; log 16, DESIGN CHOICE). -/
opaque Config.ownerHash : List (Nat × Byte) → BitVec 512

/-- The version of a bundle (R434; log 16, DESIGN CHOICE). -/
opaque Config.bundleVersion : List (Nat × Byte) → Word

/-- Whether a bundle asks for the rollback counter to rise to its version (R434; log 16, DESIGN CHOICE). -/
opaque Config.bundleRaises : List (Nat × Byte) → Bool

/-- The transition record of a bundle: the state it moves to and the MOUNT it fuses, where it has one (R433, R434; log 16, DESIGN CHOICE). -/
opaque Config.bundleTransition : List (Nat × Byte) → Option (Nat × Nat)

/-- Whether the vendor root's signature of a bundle's transition record verifies (R433; log 16, DESIGN CHOICE). -/
opaque Config.recordVendorSigned : List (Nat × Byte) → Bool

/-- Whether the signature, by the owner root whose key has a hash, of a bundle's transition record verifies (R433; log 16, DESIGN CHOICE). -/
opaque Config.recordOwnerSigned : BitVec 512 → List (Nat × Byte) → Bool

/-- The Harbourmaster's cycle count when a record, at twice its SEQ, or its head, one further, is written (R395; log 11, DESIGN CHOICE). -/
opaque Config.hmCycle : Nat → DWord

/-- What a trailing core's access brings where the leading core makes no request that answers it, by draw number, lid and place (R388; log 17,
DESIGN CHOICE). -/
opaque Config.strayWord : Nat → Nat → Nat → BitVec 64

/-- The bytes of a context or image in a save area, by draw number and place (R375, R377; log 40, DESIGN CHOICE). -/
opaque Config.saveByte : Nat → Nat → Byte

/-- Where the launcher takes an image to end whose header does not name its end, by the header's bytes (R76; log 56, DESIGN CHOICE). -/
opaque Config.imageEnd : List Byte → Nat

/-- The vote of a partition whose card runs while none of its groups can issue, by partition and draw number: R425 names a level only
where a group can issue or where no card runs (log 31, DESIGN CHOICE). -/
opaque Config.cardVote : Nat → Nat → Nat

end Sys2Proof
end

