-- ==== Sys2Proof/Machine/Bits.lean ====
section
/-!
DEFINITION. Bit fields, sign extension, byte order and the sparse store every file of registers and every
memory of the model is held in: a list of (index, value) pairs, indexes strictly rising, no value zero, an
unlisted index reading as zero (R3, R9, R116, R236, R430).
-/
namespace Sys2Proof

/-- Bits `hi` down to `lo` of a natural number (R9). -/
def natBits (x hi lo : Nat) : Nat := (x >>> lo) % 2 ^ (hi + 1 - lo)

/-- Bits `hi` down to `lo` of a bit vector, unsigned (R9). -/
def bitsOf {w : Nat} (x : BitVec w) (hi lo : Nat) : Nat := natBits x.toNat hi lo

/-- The two's-complement reading of the low `n` bits of `x` (R33, R124). -/
def sextNat (n x : Nat) : Int :=
  if n = 0 then 0
  else if x % 2 ^ n < 2 ^ (n - 1) then Int.ofNat (x % 2 ^ n) else Int.ofNat (x % 2 ^ n) - Int.ofNat (2 ^ n)

/-- An integer modulo 2^n, as a pattern (R125). -/
def intMod (n : Nat) (x : Int) : Nat := (x % Int.ofNat (2 ^ n)).toNat

/-- An integer as a word, wrapped modulo 2^32. -/
def wordOfInt (x : Int) : Word := BitVec.ofNat 32 (intMod 32 x)

/-- A truth value as a word: all ones or zero. -/
def wordOfBool (b : Bool) : Word := if b then BitVec.allOnes 32 else 0

/-- Two words as a 64-bit value, `hi` above `lo` (R114). -/
def cat64 (hi lo : Word) : DWord := hi ++ lo

/-- The low word of a 64-bit value (R114). -/
def lo32 (x : DWord) : Word := x.setWidth 32

/-- The high word of a 64-bit value (R114). -/
def hi32 (x : DWord) : Word := (x >>> 32).setWidth 32

/-- floor(log2 n), 0 for 0. -/
def log2Nat (n : Nat) : Nat := Nat.log2 n

/-- The `k` least significant bytes of `x`, lowest address first (R3). -/
def bytesOfNat : Nat → Nat → List Byte
  | 0, _ => []
  | k + 1, x => BitVec.ofNat 8 (x % 256) :: bytesOfNat k (x / 256)

/-- The value of bytes given lowest address first (R3). -/
def natOfBytes : List Byte → Nat
  | [] => 0
  | b :: bs => b.toNat + 256 * natOfBytes bs

/-- The number of bits set among the low `w` bits. -/
def popNat : Nat → Nat → Nat
  | 0, _ => 0
  | w + 1, x => x % 2 + popNat w (x / 2)

/-- Rotation left by `k` (R133, R159). -/
def rotlWord (v : Word) (k : Nat) : Word := v.rotateLeft k

/-- The positions set in a mask, lowest first (R8). -/
def maskList (m : Mask) : List Nat := (List.range 96).filter (fun i => m.getLsbD i)

/-- The mask with one position set. -/
def maskBit (i : Nat) : Mask := BitVec.ofNat 96 (2 ^ i)

/-- The mask of the listed positions (those at or above 96 are no positions). -/
def maskOfList (l : List Nat) : Mask := l.foldl (fun m i => m ||| maskBit i) 0

/-- The mask of the first `n` positions. -/
def maskFirst (n : Nat) : Mask := BitVec.ofNat 96 (2 ^ n - 1)

/-- Replace the element at an index (out of range: unchanged). -/
def listModify {α : Type} (l : List α) (k : Nat) (f : α → α) : List α :=
  match l, k with
  | [], _ => []
  | a :: as, 0 => f a :: as
  | a :: as, k + 1 => a :: listModify as k f

/-- The least element by a key, the first among equals. -/
def minBy {α : Type} (key : α → Nat) : List α → Option α
  | [] => none
  | a :: as =>
    match minBy key as with
    | none => some a
    | some b => if key b < key a then some b else some a

/-- Insertion into a list kept in rising key order, after equal keys. -/
def insertBy {α : Type} (key : α → Nat) (a : α) : List α → List α
  | [] => [a]
  | b :: bs => if key a < key b then a :: b :: bs else b :: insertBy key a bs

/-- Insertion sort by key, stable. -/
def sortBy {α : Type} (key : α → Nat) (l : List α) : List α :=
  l.foldl (fun acc a => insertBy key a acc) []

/-- The list without repeats, first occurrences kept. -/
def dedupNat (l : List Nat) : List Nat :=
  l.foldl (fun acc a => if acc.contains a then acc else acc ++ [a]) []

/-- A sparse store of `w`-bit values: (index, value) pairs, indexes strictly rising, no value zero. -/
abbrev Cells (w : Nat) := List (Nat × BitVec w)

/-- What index `k` holds; an unlisted index holds zero. -/
def Cells.get {w : Nat} : Cells w → Nat → BitVec w
  | [], _ => 0
  | (a, v) :: rest, k => if a = k then v else Cells.get rest k

/-- Remove index `k`. -/
def Cells.erase {w : Nat} : Cells w → Nat → Cells w
  | [], _ => []
  | (a, v) :: rest, k => if a = k then rest else (a, v) :: Cells.erase rest k

/-- List `v` at index `k`, in rising order, in place of what `k` held. -/
def Cells.insert {w : Nat} : Cells w → Nat → BitVec w → Cells w
  | [], k, v => [(k, v)]
  | (a, u) :: rest, k, v =>
    if k < a then (k, v) :: (a, u) :: rest
    else if a = k then (k, v) :: rest
    else (a, u) :: Cells.insert rest k v

/-- Write `v` at index `k`, keeping the canonical form: a zero is not listed. -/
def Cells.set {w : Nat} (c : Cells w) (k : Nat) (v : BitVec w) : Cells w :=
  if v = 0 then c.erase k else c.insert k v

/-- The canonical form: indexes strictly rising, no value zero. -/
def Cells.wf {w : Nat} : Cells w → Bool
  | [] => true
  | [(_, v)] => v != 0
  | (a, v) :: (b, u) :: rest => v != 0 && decide (a < b) && Cells.wf ((b, u) :: rest)

/-- The values of `n` consecutive indexes from `k`. -/
def Cells.getRange {w : Nat} (c : Cells w) (k : Nat) : Nat → List (BitVec w)
  | 0 => []
  | n + 1 => c.get k :: Cells.getRange c (k + 1) n

/-- Write consecutive values from index `k`. -/
def Cells.setRange {w : Nat} (c : Cells w) (k : Nat) : List (BitVec w) → Cells w
  | [] => c
  | v :: vs => Cells.setRange (c.set k v) (k + 1) vs

/-- Build a store from pairs in any order, later pairs standing. -/
def Cells.ofPairs {w : Nat} (l : List (Nat × BitVec w)) : Cells w :=
  l.foldl (fun c p => c.set p.1 p.2) []

/-- Keep the pairs whose index satisfies `p`. -/
def Cells.keep {w : Nat} (c : Cells w) (p : Nat → Bool) : Cells w := c.filter (fun x => p x.1)

/-- The little-endian value of `n` bytes from index `k` (R3). -/
def Cells.readNat (c : Cells 8) (k n : Nat) : Nat := natOfBytes (c.getRange k n)

/-- Write the low `n` bytes of `x` from index `k`, little-endian (R3). -/
def Cells.writeNat (c : Cells 8) (k n x : Nat) : Cells 8 := c.setRange k (bytesOfNat n x)

end Sys2Proof
end

