-- ==== Sys2Proof/Machine/Arith.lean ====
section
/-!
DEFINITION. Element-wise integer arithmetic on 32-bit words: element types, fit, and the results of the integer, logic, shift and bit
instructions (R124-R146).
-/
namespace Sys2Proof.Machine

/-- Width of an element of an ETYPE code: i32 u32 f32 f16x2 bf16x2 i16x2 u16x2 i8x4 u8x4 (R46, R124). -/
def etWidth (e : Nat) : Nat := if e ≤ 2 then 32 else if e ≤ 6 then 16 else 8

/-- Signed integer views (R124). -/
def etSigned (e : Nat) : Bool := !(e == 1 || e == 6 || e == 8)

/-- Float types (R46). -/
def etFloat (e : Nat) : Bool := e == 2 || e == 3 || e == 4

/-- Elements of a word. -/
def etCount (e : Nat) : Nat := 32 / etWidth e

/-- Element k of a word as a pattern of n bits (R124). -/
def elemNat (n : Nat) (x : Word) (k : Nat) : Nat := (x.toNat >>> (n * k)) % 2 ^ n

/-- val(x, k): the value of an element under a type (R124). -/
def elemVal (e : Nat) (x : Word) (k : Nat) : Int :=
  if etSigned e then sextNat (etWidth e) (elemNat (etWidth e) x k) else Int.ofNat (elemNat (etWidth e) x k)

/-- A word from its elements of n bits, element 0 lowest. -/
def ofElems (n : Nat) : List Nat → Nat
  | [] => 0
  | x :: xs => x % 2 ^ n + 2 ^ n * ofElems n xs

/-- A word built element by element. -/
def mapElems (n : Nat) (f : Nat → Nat) : Word := BitVec.ofNat 32 (ofElems n ((List.range (32 / n)).map f))

/-- Least and greatest value of n bits (R124). -/
def rangeMin (n : Nat) (signed : Bool) : Int := if signed then - Int.ofNat (2 ^ (n - 1)) else 0
def rangeMax (n : Nat) (signed : Bool) : Int := if signed then Int.ofNat (2 ^ (n - 1)) - 1 else Int.ofNat (2 ^ n) - 1

/-- A value clamped to a range (R125). -/
def clampInt (lo hi x : Int) : Int := if x < lo then lo else if hi < x then hi else x

/-- fit(e) (R125): clamped under SAT, else modulo 2^n. -/
def fitN (n : Nat) (signed sat : Bool) (x : Int) : Nat :=
  intMod n (if sat then clampInt (rangeMin n signed) (rangeMax n signed) x else x)

/-- fit for an element type. -/
def fit (e : Nat) (sat : Bool) (x : Int) : Nat := fitN (etWidth e) (etSigned e) sat x

/-- Absolute value. -/
def absInt (x : Int) : Int := if x < 0 then -x else x

/-! ### The element operations of R128 -/

def opIadd (e : Nat) (sat : Bool) (a b : Word) : Word := mapElems (etWidth e) (fun k => fit e sat (elemVal e a k + elemVal e b k))
def opIsub (e : Nat) (sat : Bool) (a b : Word) : Word := mapElems (etWidth e) (fun k => fit e sat (elemVal e a k - elemVal e b k))
def opImul (e : Nat) (sat : Bool) (a b : Word) : Word := mapElems (etWidth e) (fun k => fit e sat (elemVal e a k * elemVal e b k))
def opImulh (e : Nat) (a b : Word) : Word :=
  mapElems (etWidth e) (fun k => intMod (etWidth e) ((elemVal e a k * elemVal e b k) / Int.ofNat (2 ^ etWidth e)))
def opImad (e : Nat) (sat : Bool) (a b c : Word) : Word :=
  mapElems (etWidth e) (fun k => fit e sat (elemVal e a k * elemVal e b k + elemVal e c k))
def opIneg (e : Nat) (sat : Bool) (a : Word) : Word := mapElems (etWidth e) (fun k => fit e sat (- elemVal e a k))
def opIabs (e : Nat) (sat : Bool) (a : Word) : Word := mapElems (etWidth e) (fun k => fit e sat (absInt (elemVal e a k)))
def opImin (e : Nat) (sat : Bool) (a b : Word) : Word :=
  mapElems (etWidth e) (fun k => fit e sat (min (elemVal e a k) (elemVal e b k)))
def opImax (e : Nat) (sat : Bool) (a b : Word) : Word :=
  mapElems (etWidth e) (fun k => fit e sat (max (elemVal e a k) (elemVal e b k)))
/-- ISEL: the selector is L0 (R128). -/
def opIsel (e : Nat) (sel a b : Word) : Word :=
  mapElems (etWidth e) (fun k => if elemNat (etWidth e) sel k = 0 then elemNat (etWidth e) b k else elemNat (etWidth e) a k)

/-- IMADW (R129). -/
def opImadw (signed sat : Bool) (a b : Word) (c : DWord) : DWord :=
  let va := if signed then a.toInt else Int.ofNat a.toNat
  let vb := if signed then b.toInt else Int.ofNat b.toNat
  let vc := if signed then c.toInt else Int.ofNat c.toNat
  BitVec.ofNat 64 (fitN 64 signed sat (va * vb + vc))

/-- The sum of a function over the elements. -/
def sumElems (e : Nat) (f : Nat → Int) : Int := (List.range (etCount e)).foldl (fun s k => s + f k) 0

/-- SAD (R130). -/
def opSad (e : Nat) (sat : Bool) (a b c : Word) : Word :=
  BitVec.ofNat 32 (fitN 32 false sat (Int.ofNat c.toNat + sumElems e (fun k => absInt (elemVal e a k - elemVal e b k))))

/-- DOT4 (R130). -/
def opDot4 (e : Nat) (sat : Bool) (a b c : Word) : Word :=
  let vc := if etSigned e then c.toInt else Int.ofNat c.toNat
  BitVec.ofNat 32 (fitN 32 (etSigned e) sat (vc + sumElems e (fun k => elemVal e a k * elemVal e b k)))

/-! ### Compare (R58, R131, R146) -/

/-- The condition of a minor on two n-bit patterns: 0-5 signed eq ne lt le gt ge, 6-9 unsigned lt le gt ge (R58). -/
def intCond (n cc x y : Nat) : Bool :=
  let sx := sextNat n x
  let sy := sextNat n y
  if cc = 0 then x == y
  else if cc = 1 then x != y
  else if cc = 2 then decide (sx < sy)
  else if cc = 3 then decide (sx ≤ sy)
  else if cc = 4 then decide (sy < sx)
  else if cc = 5 then decide (sy ≤ sx)
  else if cc = 6 then decide (x < y)
  else if cc = 7 then decide (x ≤ y)
  else if cc = 8 then decide (y < x)
  else decide (y ≤ x)

/-- ICMP (R131). -/
def opIcmp (e cc : Nat) (a b : Word) : Word :=
  mapElems (etWidth e) (fun k =>
    if intCond (etWidth e) cc (elemNat (etWidth e) a k) (elemNat (etWidth e) b k) then 2 ^ etWidth e - 1 else 0)

/-! ### Shifts and bits (R133-R137) -/

def opShl (e : Nat) (a b : Word) : Word :=
  let n := etWidth e
  mapElems n (fun k => let sh := elemNat n b k; if n ≤ sh then 0 else elemNat n a k * 2 ^ sh % 2 ^ n)
def opShr (e : Nat) (a b : Word) : Word :=
  let n := etWidth e
  mapElems n (fun k => let sh := elemNat n b k; if n ≤ sh then 0 else elemNat n a k / 2 ^ sh)
def opSar (e : Nat) (a b : Word) : Word :=
  let n := etWidth e
  mapElems n (fun k =>
    let sh := min (elemNat n b k) n
    intMod n (sextNat n (elemNat n a k) / Int.ofNat (2 ^ sh)))
def opRol (e : Nat) (a b : Word) : Word :=
  let n := etWidth e
  mapElems n (fun k =>
    let sh := elemNat n b k % n
    let x := elemNat n a k
    (x * 2 ^ sh + x / 2 ^ (n - sh)) % 2 ^ n)

/-- SHF (R134). -/
def opShf (a b c : Word) : Word := lo32 (cat64 b a >>> bitsOf c 5 0)

def opPopc (e : Nat) (a : Word) : Word := mapElems (etWidth e) (fun k => popNat (etWidth e) (elemNat (etWidth e) a k))
def opClz (e : Nat) (a : Word) : Word :=
  let n := etWidth e
  mapElems n (fun k => let x := elemNat n a k; if x = 0 then n else n - 1 - log2Nat x)
/-- Trailing zeros of the low `w` bits. -/
def ctzNat : Nat → Nat → Nat
  | 0, _ => 0
  | w + 1, x => if x % 2 = 1 then 0 else 1 + ctzNat w (x / 2)
def opCtz (e : Nat) (a : Word) : Word := mapElems (etWidth e) (fun k => ctzNat (etWidth e) (elemNat (etWidth e) a k))
/-- The low `w` bits in reverse order. -/
def revNat : Nat → Nat → Nat
  | 0, _ => 0
  | w + 1, x => (x % 2) * 2 ^ w + revNat w (x / 2)
def opBrev (e : Nat) (a : Word) : Word := mapElems (etWidth e) (fun k => revNat (etWidth e) (elemNat (etWidth e) a k))

/-- BFE (R136). -/
def opBfe (signed : Bool) (a b : Word) : Word :=
  let pos := bitsOf b 7 0
  let len := min (bitsOf b 15 8) 32
  let bit := fun i => if i ≤ 31 then a.getLsbD i else signed && a.getLsbD 31
  let f := (List.range len).foldl (fun f j => f + (if bit (pos + j) then 2 ^ j else 0)) 0
  if len = 0 then 0
  else if signed then wordOfInt (sextNat len f)
  else BitVec.ofNat 32 f

/-- BFI (R136). -/
def opBfi (a b c : Word) : Word :=
  let pos := bitsOf b 7 0
  let len := min (bitsOf b 15 8) 32
  BitVec.ofNat 32 ((List.range 32).foldl (fun x i =>
    let bit := if pos ≤ i && i < pos + len then a.getLsbD (i - pos) else c.getLsbD i
    x + (if bit then 2 ^ i else 0)) 0)

/-- BYTESEL (R137). -/
def opBytesel (a b c : Word) : Word :=
  let y := fun k => if k < 4 then elemNat 8 a k else elemNat 8 c (k - 4)
  mapElems 8 (fun i =>
    let sel := elemNat 8 b i
    let v := y (sel % 8)
    let v := if natBits sel 5 5 = 1 then (if v ≥ 128 then 0xFF else 0) else v
    let v := if natBits sel 4 4 = 1 then 0xFF - v else v
    if natBits sel 7 7 = 1 then 0 else v)

/-! ### Addresses (R138) -/

def opLea (e : Nat) (a : DWord) (b : Word) : DWord :=
  let sh := if etWidth e = 32 then 2 else if etWidth e = 16 then 1 else 0
  let i := if etSigned e then b.toInt else Int.ofNat b.toNat
  BitVec.ofNat 64 (intMod 64 (Int.ofNat a.toNat + i * Int.ofNat (2 ^ sh)))
def opAadd (a : DWord) (b : Word) : DWord := BitVec.ofNat 64 (intMod 64 (Int.ofNat a.toNat + b.toInt))

/-! ### Division (R143) -/

def opIdiv (e : Nat) (sat : Bool) (a b : Word) : Word :=
  let n := etWidth e
  mapElems n (fun k =>
    let x := elemVal e a k
    let y := elemVal e b k
    if y = 0 then 2 ^ n - 1
    else if etSigned e && x = rangeMin n true && y = -1 then (if sat then 2 ^ (n - 1) - 1 else 2 ^ (n - 1))
    else intMod n (Int.tdiv x y))
def opIrem (e : Nat) (a b : Word) : Word :=
  let n := etWidth e
  mapElems n (fun k =>
    let x := elemVal e a k
    let y := elemVal e b k
    if y = 0 then intMod n x else intMod n (Int.tmod x y))

/-! ### S-forms (R145, R146) -/

def opSshl (a b : Word) : Word := if b.toNat ≥ 32 then 0 else a <<< b.toNat
def opSshr (a b : Word) : Word := if b.toNat ≥ 32 then 0 else a >>> b.toNat

end Sys2Proof.Machine
end

