-- ==== Sys2Proof/Machine/Fp.lean ====
section
/-!
DEFINITION. Floating-point numbers as exact dyadic values, the formats, rounding in six modes with its flags, and the arithmetic built
on one rounding (R147-R180).
-/
namespace Sys2Proof.Machine

/-! ### Flags (R155, R161): bit 0 IV, 1 DZ, 2 OF, 3 UF, 4 NX -/

def flIV : Nat := 1
def flDZ : Nat := 2
def flOF : Nat := 4
def flUF : Nat := 8
def flNX : Nat := 16

/-- The flag when a condition holds. -/
def flagIf (c : Bool) (f : Nat) : Nat := if c then f else 0

/-! ### Formats (R147) -/

/-- How a format treats its top exponent (R147). -/
inductive FKind where
  /-- infinities and NaNs -/
  | ieee
  /-- E4M3: one NaN, no infinity -/
  | oneNan
  /-- neither -/
  | finite
  deriving DecidableEq, Repr

/-- A float format. -/
structure Fmt where
  e : Nat
  m : Nat
  kind : FKind
  deriving DecidableEq, Repr

def fp32 : Fmt := ⟨8, 23, .ieee⟩
def fp16 : Fmt := ⟨5, 10, .ieee⟩
def bf16 : Fmt := ⟨8, 7, .ieee⟩
def e4m3 : Fmt := ⟨4, 3, .oneNan⟩
def e5m2 : Fmt := ⟨5, 2, .ieee⟩
def e3m2 : Fmt := ⟨3, 2, .finite⟩
def e2m3 : Fmt := ⟨2, 3, .finite⟩
def e2m1 : Fmt := ⟨2, 1, .finite⟩

/-- Bits of an element. -/
def Fmt.width (f : Fmt) : Nat := 1 + f.e + f.m
/-- The exponent bias. -/
def Fmt.bias (f : Fmt) : Nat := 2 ^ (f.e - 1) - 1
/-- The exponent of the smallest normal. -/
def Fmt.emin (f : Fmt) : Int := 1 - Int.ofNat f.bias
/-- The largest finite magnitude pattern. -/
def Fmt.maxPat (f : Fmt) : Nat :=
  match f.kind with
  | .ieee => (2 ^ f.e - 1) * 2 ^ f.m - 1
  | .oneNan => 2 ^ (f.e + f.m) - 2
  | .finite => 2 ^ (f.e + f.m) - 1
/-- The infinity's magnitude pattern. -/
def Fmt.infPat (f : Fmt) : Nat := (2 ^ f.e - 1) * 2 ^ f.m
/-- The canonical NaN (R153); +0 where the format has none. -/
def Fmt.nan (f : Fmt) : Nat :=
  match f.kind with
  | .ieee => f.infPat + 2 ^ (f.m - 1)
  | .oneNan => 2 ^ (f.e + f.m) - 1
  | .finite => 0
/-- A magnitude pattern with a sign. -/
def Fmt.signed (f : Fmt) (neg : Bool) (p : Nat) : Nat := (if neg then 2 ^ (f.e + f.m) else 0) + p

/-- The float format of an ETYPE code (R46). -/
def etFmt (e : Nat) : Fmt := if e = 3 then fp16 else if e = 4 then bf16 else fp32

/-! ### Values -/

/-- What a pattern stands for: a NaN, an infinity, or (-1)^neg × m × 2^e exactly. -/
inductive FVal where
  | nan (signalling : Bool)
  | inf (neg : Bool)
  | fin (neg : Bool) (m : Nat) (e : Int)
  deriving DecidableEq, Repr

/-- The value of a pattern (R147). -/
def Fmt.decode (f : Fmt) (x : Nat) : FVal :=
  let neg := x / 2 ^ (f.e + f.m) % 2 = 1
  let ee := x / 2 ^ f.m % 2 ^ f.e
  let mm := x % 2 ^ f.m
  if f.kind = .ieee ∧ ee = 2 ^ f.e - 1 then (if mm = 0 then .inf neg else .nan (mm / 2 ^ (f.m - 1) = 0))
  else if f.kind = .oneNan ∧ x % 2 ^ (f.e + f.m) = 2 ^ (f.e + f.m) - 1 then .nan false
  else if ee = 0 then .fin neg mm (f.emin - Int.ofNat f.m)
  else .fin neg (2 ^ f.m + mm) (Int.ofNat ee - Int.ofNat f.bias - Int.ofNat f.m)

/-- A pattern is subnormal. -/
def Fmt.subnormal (f : Fmt) (x : Nat) : Bool := x / 2 ^ f.m % 2 ^ f.e = 0 && x % 2 ^ f.m != 0

/-- The FTZ input rule: a subnormal becomes a zero of its sign (R154). -/
def Fmt.ftzIn (f : Fmt) (ftz : Bool) (x : Nat) : Nat :=
  if ftz && f.subnormal x then f.signed (x / 2 ^ (f.e + f.m) % 2 = 1) 0 else x

/-- in(v, k) as a value (R166). -/
def Fmt.input (f : Fmt) (ftz : Bool) (x : Nat) : FVal := f.decode (f.ftzIn ftz x)

/-- A signalling NaN. -/
def FVal.snan : FVal → Bool
  | .nan s => s
  | _ => false
/-- A NaN. -/
def FVal.isNan : FVal → Bool
  | .nan _ => true
  | _ => false
/-- An infinity. -/
def FVal.isInf : FVal → Bool
  | .inf _ => true
  | _ => false
/-- A zero. -/
def FVal.isZero : FVal → Bool
  | .fin _ m _ => m = 0
  | _ => false
/-- The sign. -/
def FVal.neg : FVal → Bool
  | .nan _ => false
  | .inf n => n
  | .fin n _ _ => n

/-! ### Rounding (R156-R158) -/

/-- Rounding modes by RND code: 0 RNE, 1 RTZ, 2 RUP, 3 RDN, 4 RNA, 5 SR (R46). -/
abbrev Mode := Nat

/-- Whether rounding takes the next unit up: q units, remainder r of 2^sh, sign, the SR draw (R156, R158). -/
def roundsUp (mode : Mode) (rv q r sh : Nat) (neg : Bool) : Bool :=
  if mode = 0 then decide (2 ^ sh < 2 * r) || (decide (2 ^ sh = 2 * r) && q % 2 == 1)
  else if mode = 1 then false
  else if mode = 2 then !neg && r != 0
  else if mode = 3 then neg && r != 0
  else if mode = 4 then decide (2 ^ sh ≤ 2 * r) && r != 0
  else decide (2 ^ 16 ≤ r * 2 ^ 16 / 2 ^ sh + rv)

/-- m × 2^e in units of 2^u: the rounded count and whether anything was lost. -/
def roundUnits (mode : Mode) (rv : Nat) (neg : Bool) (m : Nat) (e u : Int) : Nat × Bool :=
  if u ≤ e then (m * 2 ^ (e - u).toNat, false)
  else
    let sh := (u - e).toNat
    let q := m / 2 ^ sh
    let r := m % 2 ^ sh
    (if roundsUp mode rv q r sh neg then q + 1 else q, r != 0)

/-- The overflow result of a format (R157). -/
def Fmt.overflow (f : Fmt) (mode : Mode) (sat neg : Bool) : Nat :=
  let toMax := mode = 1 || (mode = 2 && neg) || (mode = 3 && !neg)
  match f.kind with
  | .ieee => f.signed neg (if sat || toMax then f.maxPat else f.infPat)
  | .oneNan => if sat || toMax then f.signed neg f.maxPat else f.nan
  | .finite => f.signed neg f.maxPat

/-- round of a nonzero exact value (-1)^neg × m × 2^e to a format, with its flags (R154-R158). `sat` is SAT of a conversion. -/
def Fmt.roundFin (f : Fmt) (mode : Mode) (rv : Nat) (sat ftz neg : Bool) (m : Nat) (e : Int) : Nat × Nat :=
  let lg := Int.ofNat (log2Nat m) + e
  let E := max lg f.emin
  let (q, lost) := roundUnits mode rv neg m e (E - Int.ofNat f.m)
  let pat := ((E + Int.ofNat f.bias).toNat - 1) * 2 ^ f.m + q
  if f.maxPat < pat then (f.overflow mode sat neg, flOF + flNX)
  else
    let (q', _) := roundUnits mode rv neg m e (lg - Int.ofNat f.m)
    -- tiny: with an unbounded exponent the rounded magnitude stays below the smallest normal
    let tiny := decide (lg < f.emin) && !(decide (lg + 1 = f.emin) && q' == 2 ^ (f.m + 1))
    if ftz && f.kind = .ieee && 16 ≤ f.width && 0 < pat && pat < 2 ^ f.m then (f.signed neg 0, flUF + flNX)
    else (f.signed neg pat, flagIf (tiny && lost) flUF + flagIf lost flNX)

/-- A zero result of a sum (R156): +0 when the signs differ, −0 under RDN; else the common sign. -/
def zeroSign (mode : Mode) (n1 n2 : Bool) : Bool := if n1 = n2 then n1 else mode = 3

/-- round of an exact finite value; a zero keeps the sign it is given. -/
def Fmt.round (f : Fmt) (mode : Mode) (rv : Nat) (sat ftz neg : Bool) (m : Nat) (e : Int) : Nat × Nat :=
  if m = 0 then (f.signed neg 0, 0) else f.roundFin mode rv sat ftz neg m e

/-- The exact sum of two finite values, as sign, magnitude and exponent; a zero sum takes the sign of R156. -/
def dyAdd (mode : Mode) (n1 : Bool) (m1 : Nat) (e1 : Int) (n2 : Bool) (m2 : Nat) (e2 : Int) : Bool × Nat × Int :=
  let e := min e1 e2
  let a : Int := (if n1 then -1 else 1) * Int.ofNat (m1 * 2 ^ (e1 - e).toNat)
  let b : Int := (if n2 then -1 else 1) * Int.ofNat (m2 * 2 ^ (e2 - e).toNat)
  let v := a + b
  if v = 0 then ((if m1 = 0 && m2 = 0 then zeroSign mode n1 n2 else mode = 3), 0, e)
  else (decide (v < 0), v.natAbs, e)

/-- A rounded operation's context. -/
structure RCtx where
  f : Fmt
  mode : Mode
  rv : Nat
  ftz : Bool
  deriving Repr

/-- A NaN result: the canonical NaN, IV when an operand signals or the operation is invalid (R153, R155). -/
def RCtx.nanRes (c : RCtx) (iv : Bool) : Nat × Nat := (c.f.nan, flagIf iv flIV)

/-- x × y + z with one rounding (R167). -/
def RCtx.fma (c : RCtx) (x y z : FVal) : Nat × Nat :=
  let sn := x.snan || y.snan || z.snan
  let bad := (x.isInf && y.isZero) || (x.isZero && y.isInf)
  if bad then c.nanRes true
  else if x.isNan || y.isNan || z.isNan then c.nanRes sn
  else
    let ps := x.neg != y.neg
    if x.isInf || y.isInf then
      if z.isInf && z.neg != ps then c.nanRes true else (c.f.signed ps c.f.infPat, 0)
    else
      match x, y, z with
      | .fin _ m1 e1, .fin _ m2 e2, .fin nz mz ez =>
        let r := dyAdd c.mode ps (m1 * m2) (e1 + e2) nz mz ez
        c.f.round c.mode c.rv false c.ftz r.1 r.2.1 r.2.2
      | _, _, z => (c.f.signed z.neg c.f.infPat, 0)

/-- The value with its sign inverted. -/
def FVal.negate : FVal → FVal
  | .nan s => .nan s
  | .inf n => .inf (!n)
  | .fin n m e => .fin (!n) m e

/-- x + y (R167). -/
def RCtx.add (c : RCtx) (x y : FVal) : Nat × Nat :=
  if x.isNan || y.isNan then c.nanRes (x.snan || y.snan)
  else
    match x, y with
    | .inf a, .inf b => if a = b then (c.f.signed a c.f.infPat, 0) else c.nanRes true
    | .inf a, _ => (c.f.signed a c.f.infPat, 0)
    | _, .inf b => (c.f.signed b c.f.infPat, 0)
    | .fin n1 m1 e1, .fin n2 m2 e2 =>
      let r := dyAdd c.mode n1 m1 e1 n2 m2 e2
      c.f.round c.mode c.rv false c.ftz r.1 r.2.1 r.2.2
    | _, _ => c.nanRes false

/-- x × y (R167). -/
def RCtx.mul (c : RCtx) (x y : FVal) : Nat × Nat :=
  if (x.isInf && y.isZero) || (x.isZero && y.isInf) then c.nanRes true
  else if x.isNan || y.isNan then c.nanRes (x.snan || y.snan)
  else
    let ps := x.neg != y.neg
    match x, y with
    | .fin _ m1 e1, .fin _ m2 e2 => c.f.round c.mode c.rv false c.ftz ps (m1 * m2) (e1 + e2)
    | _, _ => (c.f.signed ps c.f.infPat, 0)

/-- x × 2^n (R167). -/
def RCtx.scale (c : RCtx) (x : FVal) (n : Int) : Nat × Nat :=
  match x with
  | .nan s => c.nanRes s
  | .inf a => (c.f.signed a c.f.infPat, 0)
  | .fin a m e => c.f.round c.mode c.rv false c.ftz a m (e + n)

/-- x rounded to an integral value; no NX (R167). -/
def RCtx.integral (c : RCtx) (x : FVal) : Nat × Nat :=
  match x with
  | .nan s => c.nanRes s
  | .inf a => (c.f.signed a c.f.infPat, 0)
  | .fin a m e =>
    let q := (roundUnits c.mode c.rv a m e 0).1
    ((c.f.round c.mode 0 false c.ftz a q 0).1, 0)

/-- The order of two values that are no NaNs: negative, zero or positive; ±0 equal (R168, R170). -/
def fcompare (x y : FVal) : Int :=
  let rank := fun (v : FVal) => match v with
    | .inf n => if n then -1 else 1
    | _ => (0 : Int)
  if x.isInf || y.isInf then rank x - rank y
  else
    match x, y with
    | .fin n1 m1 e1, .fin n2 m2 e2 =>
      let e := min e1 e2
      let a : Int := (if n1 then -1 else 1) * Int.ofNat (m1 * 2 ^ (e1 - e).toNat)
      let b : Int := (if n2 then -1 else 1) * Int.ofNat (m2 * 2 ^ (e2 - e).toNat)
      a - b
    | _, _ => 0

/-- Whether x stands at or before y in the order with −0 below +0. -/
def fle (x y : FVal) : Bool :=
  let c := fcompare x y
  decide (c < 0) || (decide (c = 0) && (x.neg || !y.neg))

/-- minimum or maximum, in the plain form or the .num form, on patterns after input flushing (R168). -/
def fminmax (f : Fmt) (ftz isMax num : Bool) (a b : Nat) : Nat × Nat :=
  let pa := f.ftzIn ftz a
  let pb := f.ftzIn ftz b
  let x := f.decode pa
  let y := f.decode pb
  let iv := flagIf (x.snan || y.snan) flIV
  if x.isNan && y.isNan then (f.nan, iv)
  else if x.isNan then (if num then pb else f.nan, iv)
  else if y.isNan then (if num then pa else f.nan, iv)
  else if isMax then (if fle x y then pb else pa, iv)
  else (if fle x y then pa else pb, iv)

/-- FCMP (R58, R170): eq ne lt le gt ge un ord. -/
def fcond (cc : Nat) (x y : FVal) : Bool × Nat :=
  let un := x.isNan || y.isNan
  let iv := if 2 ≤ cc && cc ≤ 5 then flagIf un flIV else flagIf (x.snan || y.snan) flIV
  let c := fcompare x y
  (if cc = 0 then !un && decide (c = 0)
   else if cc = 1 then un || decide (c ≠ 0)
   else if cc = 2 then !un && decide (c < 0)
   else if cc = 3 then !un && decide (c ≤ 0)
   else if cc = 4 then !un && decide (0 < c)
   else if cc = 5 then !un && decide (0 ≤ c)
   else if cc = 6 then un
   else !un, iv)

/-- The class mask of a pattern (R169). -/
def fclassMask (f : Fmt) (x : Nat) : Nat :=
  match f.decode x with
  | .nan true => 1
  | .nan false => 2
  | .inf true => 4
  | .inf false => 2 ^ 9
  | .fin n m _ =>
    if m = 0 then (if n then 2 ^ 5 else 2 ^ 6)
    else if f.subnormal x then (if n then 2 ^ 4 else 2 ^ 7)
    else (if n then 2 ^ 3 else 2 ^ 8)

/-! ### Conversions (R175-R180) -/

/-- A value converted into a float format, SAT of a conversion applying; the largest finite value in place of an infinity is inexact (R155,
R157, R177), but for the infinities of E3M2, E2M3 and E2M1, which raise IV alone as R157 names it (log 68, DESIGN CHOICE). -/
def fconvert (f : Fmt) (mode : Mode) (rv : Nat) (sat ftz : Bool) (x : FVal) : Nat × Nat :=
  match x with
  | .nan s =>
    match f.kind with
    | .finite => (0, flIV)
    | _ => (f.nan, flagIf s flIV)
  | .inf n =>
    match f.kind with
    | .ieee => (f.signed n (if sat then f.maxPat else f.infPat), flagIf sat flNX)
    | .oneNan => if sat then (f.signed n f.maxPat, flNX) else (f.nan, flIV)
    | .finite => (f.signed n f.maxPat, flIV)
  | .fin n m e => f.round mode rv sat ftz n m e

/-- A value converted to an n-bit integer (R176). -/
def fToInt (n : Nat) (signed : Bool) (mode : Mode) (rv : Nat) (sat : Bool) (x : FVal) : Nat × Nat :=
  let lo := rangeMin n signed
  let hi := rangeMax n signed
  let failPat := if signed then 2 ^ (n - 1) else 0
  match x with
  | .nan _ => (if sat then 0 else failPat, flIV)
  | .inf neg => if sat then (intMod n (if neg then lo else hi), flNX) else (failPat, flIV)
  | .fin neg m e =>
    let (q, lost) := roundUnits mode rv neg m e 0
    let v : Int := if neg then - Int.ofNat q else Int.ofNat q
    if lo ≤ v ∧ v ≤ hi then (intMod n v, flagIf lost flNX)
    else if sat then (intMod n (clampInt lo hi v), flNX) else (failPat, flIV)

/-- An integer converted into a float format (R177). -/
def intToF (f : Fmt) (mode : Mode) (rv : Nat) (sat ftz : Bool) (v : Int) : Nat × Nat :=
  f.round mode rv sat ftz (decide (v < 0)) v.natAbs 0

/-- The exact FP32 pattern of a value that FP32 holds; a NaN gives the canonical one. -/
def toFp32 (x : FVal) : Nat :=
  match x with
  | .nan _ => fp32.nan
  | .inf n => fp32.signed n fp32.infPat
  | .fin n m e => (fp32.round 0 0 false false n m e).1

/-- The float format of a narrow code 1 to 7 (R151). -/
def codeFmt (c : Nat) : Option Fmt :=
  if c = 0 then some fp32
  else if c = 1 then some fp16
  else if c = 2 then some bf16
  else if c = 3 then some e4m3
  else if c = 4 then some e5m2
  else if c = 5 then some e3m2
  else if c = 6 then some e2m3
  else if c = 7 then some e2m1
  else none

/-- Width and signedness of an integer code 8 to 11 (R151). -/
def codeInt (c : Nat) : Nat × Bool :=
  if c = 8 then (8, true) else if c = 9 then (8, false) else if c = 10 then (4, true) else (4, false)

/-- QNT (R178). -/
def qnt (code : Nat) (mode : Mode) (rv : Nat) (sat ftz : Bool) (x : Nat) : Nat × Nat :=
  let v := fp32.input ftz x
  match codeFmt code with
  | some f => fconvert f mode rv sat false v
  | none => fToInt (codeInt code).1 (codeInt code).2 mode rv sat v

/-- DQNT (R178). -/
def dqnt (code : Nat) (x : Nat) : Nat :=
  match codeFmt code with
  | some f => toFp32 (f.decode (x % 2 ^ f.width))
  | none =>
    let n := (codeInt code).1
    let v : Int := if (codeInt code).2 then sextNat n x else Int.ofNat (x % 2 ^ n)
    (intToF fp32 0 0 false false v).1

/-- emax of an MX code (R179). -/
def mxEmax (code : Nat) : Nat :=
  let k := (code - 12) % 6
  if k = 0 then 8 else if k = 1 then 15 else if k = 2 then 4 else if k = 3 then 2 else if k = 4 then 2 else 0

/-- MXSC of a value (R179). -/
def mxscCode (code : Nat) (x : FVal) : Nat × Nat :=
  match x with
  | .fin _ m e =>
    if m = 0 then (127, 0)
    else ((clampInt (-127) 127 (Int.ofNat (log2Nat m) + e - Int.ofNat (mxEmax code)) + 127).toNat, 0)
  | _ => (0xFF, flIV)

/-! ### The Shunik mixer (R159) -/

/-- One round of the mixer. -/
def mixRound (k : Nat) (x : Word × Word × Word × Word) : Word × Word × Word × Word :=
  let x0 := x.1 + x.2.1
  let x1 := rotlWord x.2.1 k ^^^ x0
  let x2 := x.2.2.1 + x.2.2.2
  let x3 := rotlWord x.2.2.2 k ^^^ x2
  (x0, x3, x2, x1)

/-- mix(seed, site, ctr, coord, sel) (R159). -/
def mix (seed : DWord) (site ctr coord sel : Nat) : List Word :=
  let x := (lo32 seed, hi32 seed,
    BitVec.ofNat 32 ((sel % 4) * 2 ^ 24 + site % 2 ^ 24) ^^^ 0x9E3779B9#32,
    BitVec.ofNat 32 ((ctr % 2 ^ 16) * 2 ^ 16 + coord % 2 ^ 16))
  let y := [5, 11, 17, 23, 5, 11, 17, 23].foldl (fun x k => mixRound k x) x
  [y.1, y.2.1, y.2.2.1, y.2.2.2]

/-- The site of an address: bits [25:2] (R160). -/
def siteOf (a : DWord) : Nat := bitsOf a 25 2

end Sys2Proof.Machine
end

