-- ==== Sys2Proof/Syntax.lean ====
section
/-!
DEFINITION. The instructions: one constructor of `Instr` per row of the opcode table, with the prefix (R41), the
literal (R39), the raw words of the fates (R60, R65) and the arguments of the device's events.
-/
namespace Sys2Proof

/-- The fields of an F-P word (R41), all 25 bits below the major. -/
structure Pfx where
  /-- [24]: GSEL replaces MR.GUARD -/
  gen : Bool
  /-- [23:21]: guard triple number -/
  gsel : BitVec 3
  /-- [20]: inactive lanes written with zero -/
  mz : Bool
  /-- [19:17]: rounding override -/
  rndo : BitVec 3
  /-- [16:13]: element-type override -/
  eto : BitVec 4
  /-- [12:6]: fourth operand -/
  op4 : Code
  /-- [5]: extension bit of d or t -/
  xd : Bool
  /-- [4]: extension bit of a -/
  xa : Bool
  /-- [3]: extension bit of b -/
  xb : Bool
  /-- [2]: mask result to the triple that d names -/
  mdst : Bool
  /-- [1]: direct V addressing -/
  xen : Bool
  /-- [0]: OP4 is present -/
  o4en : Bool
  deriving DecidableEq, Repr

/-- What may stand around a main word: its F-P word and its F-L literal (R30). -/
structure Ext where
  pfx : Option Pfx
  lit : Option Word
  deriving DecidableEq, Repr

/-- The words of an instruction as fetched: a group word with its F-P word and literal, or a stream word (R30, R64). -/
inductive RawWord where
  | group (pfx : Option Word) (main : Word) (lit : Option Word)
  | stream (w : DWord)
  deriving DecidableEq, Repr

/-- The fields of MDRAIN (R316). -/
structure DrainFields where
  ofmt : BitVec 5
  rnd : BitVec 3
  atype : BitVec 2
  slot : BitVec 3
  lsel : BitVec 2
  doff : BitVec 16
  dstride : BitVec 16
  mscope : BitVec 3
  maxen : BitVec 1
  srsel : BitVec 2
  clr : BitVec 1
  deriving DecidableEq, Repr

/-- A PCIe function: the hypervisor's PF or the VF of a tenant (R401). -/
inductive Fn where
  | pf
  | vf (tenant : Nat)
  deriving DecidableEq, Repr

/-- Where a command is taken from: a partition's berths, or the PF's own queues (R417, R418). -/
inductive CmdSource where
  | berths (part : Nat)
  | pfQueues
  deriving DecidableEq, Repr

/-- What a trap report is about: a group of a team, or its matrix stream (R340, R358). -/
inductive TrapSource where
  | group (g : Nat)
  | stream
  deriving DecidableEq, Repr

/-- The kinds of access of a translation (R340, bytes 60-63). -/
inductive AccessKind where
  | fetch | load | store | atomic | engine | walk
  deriving DecidableEq, Repr

/-- What Telltale compared when it found a mismatch (R389, R397). -/
structure Mismatch where
  /-- 1 store or atomic, 2 card or graph, 3 drain, 4 branch, 5 trap in one cluster -/
  kind : Nat
  lid : Nat
  elem : Nat
  group : Nat
  pc : Nat
  leadMask : Nat
  trailMask : Nat
  leadAddr : Nat
  trailAddr : Nat
  leadData : Nat
  trailData : Nat
  deriving DecidableEq, Repr

/-- The instructions, stream words, word fates and device events of the opcode table, one constructor per row.
An operand field holds its 7-bit operand code, which Machine/Forms.lean and Machine/Operands.lean read; `x`, `p`, `l` hold the
prefix and the literal where the map lets the word take one (R39, R41, R61). -/
inductive Instr where
  /-- IADD (R128): Adds a and b element by element under the element type and MR.SAT. -/
  | iadd (x : Ext) (d : Code) (a : Code) (b : Code)
  /-- ISUB (R128): Subtracts b from a element by element. -/
  | isub (x : Ext) (d : Code) (a : Code) (b : Code)
  /-- IMUL (R128): Multiplies a and b element by element, keeping the fitted low part. -/
  | imul (x : Ext) (d : Code) (a : Code) (b : Code)
  /-- IMULH (R128): Writes the high half of the element product of a and b. -/
  | imulh (x : Ext) (d : Code) (a : Code) (b : Code)
  /-- IMAD (R128): Writes a times b plus the fourth operand, element by element. -/
  | imad (x : Ext) (d : Code) (a : Code) (b : Code)
  /-- IMADW (R129): Writes the 64-bit result of a times b plus a 64-bit addend into a pair. -/
  | imadw (x : Ext) (d : Code) (a : Code) (b : Code)
  /-- INEG (R128): Negates each element of a. -/
  | ineg (x : Ext) (d : Code) (a : Code)
  /-- IABS (R128): Writes the absolute value of each element of a. -/
  | iabs (x : Ext) (d : Code) (a : Code)
  /-- IMIN (R128): Writes the smaller of each element pair. -/
  | imin (x : Ext) (d : Code) (a : Code) (b : Code)
  /-- IMAX (R128): Writes the larger of each element pair. -/
  | imax (x : Ext) (d : Code) (a : Code) (b : Code)
  /-- ISEL (R128): Selects a or b per element by the element of L0. -/
  | isel (x : Ext) (d : Code) (a : Code) (b : Code)
  /-- SAD (R130): Adds the sum of absolute element differences of a and b to c. -/
  | sad (x : Ext) (d : Code) (a : Code) (b : Code)
  /-- DOT4 (R130): Adds the dot product of the 8- or 16-bit elements of a and b to c. -/
  | dot4 (x : Ext) (d : Code) (a : Code) (b : Code)
  /-- LEA (R138): Adds a scaled 32-bit index to a 64-bit address pair. -/
  | lea (x : Ext) (d : Code) (a : Code) (b : Code)
  /-- AADD (R138): Adds a signed 32-bit byte index to a 64-bit address pair. -/
  | aadd (x : Ext) (d : Code) (a : Code) (b : Code)
  /-- ICMP (R131): Compares elements under the condition in the minor and writes all ones or zero. -/
  | icmp (x : Ext) (c : BitVec 4) (d : Code) (a : Code) (b : Code)
  /-- AND (R132): Writes the bitwise AND of a and b. -/
  | and (x : Ext) (d : Code) (a : Code) (b : Code)
  /-- OR (R132): Writes the bitwise OR of a and b. -/
  | or (x : Ext) (d : Code) (a : Code) (b : Code)
  /-- XOR (R132): Writes the bitwise XOR of a and b. -/
  | xor (x : Ext) (d : Code) (a : Code) (b : Code)
  /-- NOT (R132): Writes the bitwise inverse of a. -/
  | not (x : Ext) (d : Code) (a : Code)
  /-- ANDN (R132): Writes a AND NOT b. -/
  | andn (x : Ext) (d : Code) (a : Code) (b : Code)
  /-- SHL (R133): Shifts each element left. -/
  | shl (x : Ext) (d : Code) (a : Code) (b : Code)
  /-- SHR (R133): Shifts each element right logically. -/
  | shr (x : Ext) (d : Code) (a : Code) (b : Code)
  /-- SAR (R133): Shifts each element right arithmetically. -/
  | sar (x : Ext) (d : Code) (a : Code) (b : Code)
  /-- ROL (R133): Rotates each element left. -/
  | rol (x : Ext) (d : Code) (a : Code) (b : Code)
  /-- SHF (R134): Funnel-shifts the 64-bit concatenation of b and a right by c. -/
  | shf (x : Ext) (d : Code) (a : Code) (b : Code)
  /-- POPC (R135): Counts the ones of each element. -/
  | popc (x : Ext) (d : Code) (a : Code)
  /-- CLZ (R135): Counts the leading zeros of each element. -/
  | clz (x : Ext) (d : Code) (a : Code)
  /-- CTZ (R135): Counts the trailing zeros of each element. -/
  | ctz (x : Ext) (d : Code) (a : Code)
  /-- BREV (R135): Reverses the bits of each element. -/
  | brev (x : Ext) (d : Code) (a : Code)
  /-- BFE (R136): Extracts a bit field of a at position and length from b. -/
  | bfe (x : Ext) (d : Code) (a : Code) (b : Code)
  /-- BFI (R136): Inserts the low bits of a into c at the field given by b. -/
  | bfi (x : Ext) (d : Code) (a : Code) (b : Code)
  /-- BYTESEL (R137): Builds each byte of d from a byte of a or c under selector bytes in b. -/
  | bytesel (x : Ext) (d : Code) (a : Code) (b : Code)
  /-- MOV (R139): Copies the pattern of a into each lane of EXEC. -/
  | mov (x : Ext) (d : Code) (a : Code)
  /-- S2V (R139): Copies a scalar register into each lane of EXEC. -/
  | s2v (d : Code) (a : Code)
  /-- V2S (R139): Writes a scalar register with a from the lowest lane of EXEC. -/
  | v2s (l : Option Word) (d : Code) (a : Code)
  /-- IDIV (R143): Integer division, which takes the JURYRIG fate on the V780. -/
  | idiv (x : Ext) (d : Code) (a : Code) (b : Code)
  /-- IREM (R143): Integer remainder, which takes the JURYRIG fate on the V780. -/
  | irem (x : Ext) (d : Code) (a : Code) (b : Code)
  /-- MOVI (R140): Writes a sign-extended immediate shifted left by s. -/
  | movi (p : Option Pfx) (d : Code) (sh : Code) (imm : BitVec 11)
  /-- LDI (R141): Writes a small typed constant into every element. -/
  | ldi (p : Option Pfx) (d : Code) (imm : BitVec 11)
  /-- SADD (R145): Scalar add, group-scope. -/
  | sadd (l : Option Word) (d : Code) (a : Code) (b : Code)
  /-- SSUB (R145): Scalar subtract. -/
  | ssub (l : Option Word) (d : Code) (a : Code) (b : Code)
  /-- SMUL (R145): Scalar multiply, low 32 bits. -/
  | smul (l : Option Word) (d : Code) (a : Code) (b : Code)
  /-- SSHL (R145): Scalar shift left. -/
  | sshl (l : Option Word) (d : Code) (a : Code) (b : Code)
  /-- SSHR (R145): Scalar logical shift right. -/
  | sshr (l : Option Word) (d : Code) (a : Code) (b : Code)
  /-- SAND (R145): Scalar bitwise AND. -/
  | sand (l : Option Word) (d : Code) (a : Code) (b : Code)
  /-- SOR (R145): Scalar bitwise OR. -/
  | sor (l : Option Word) (d : Code) (a : Code) (b : Code)
  /-- SXOR (R145): Scalar bitwise XOR. -/
  | sxor (l : Option Word) (d : Code) (a : Code) (b : Code)
  /-- SSEL (R145): Scalar select of a or b by the old value of d. -/
  | ssel (l : Option Word) (d : Code) (a : Code) (b : Code)
  /-- SMOV (R145): Scalar move. -/
  | smov (l : Option Word) (d : Code) (a : Code)
  /-- SCMP (R146): Scalar compare writing all ones or zero. -/
  | scmp (l : Option Word) (c : BitVec 4) (d : Code) (a : Code) (b : Code)
  /-- FADD (R167): Floating-point add with one rounding. -/
  | fadd (x : Ext) (d : Code) (a : Code) (b : Code)
  /-- FSUB (R167): Floating-point subtract. -/
  | fsub (x : Ext) (d : Code) (a : Code) (b : Code)
  /-- FMUL (R167): Floating-point multiply. -/
  | fmul (x : Ext) (d : Code) (a : Code) (b : Code)
  /-- FFMA (R167): Fused multiply-add with one rounding. -/
  | ffma (x : Ext) (d : Code) (a : Code) (b : Code)
  /-- FMIN (R168): IEEE minimum. -/
  | fmin (x : Ext) (d : Code) (a : Code) (b : Code)
  /-- FMAX (R168): IEEE maximum. -/
  | fmax (x : Ext) (d : Code) (a : Code) (b : Code)
  /-- FMIN_NUM (R168): IEEE minimumNumber. -/
  | fminNum (x : Ext) (d : Code) (a : Code) (b : Code)
  /-- FMAX_NUM (R168): IEEE maximumNumber. -/
  | fmaxNum (x : Ext) (d : Code) (a : Code) (b : Code)
  /-- FABS (R169): Clears the sign bit of each element. -/
  | fabs (x : Ext) (d : Code) (a : Code)
  /-- FNEG (R169): Inverts the sign bit of each element. -/
  | fneg (x : Ext) (d : Code) (a : Code)
  /-- FRND (R167): Rounds each element to an integral value under the mode. -/
  | frnd (x : Ext) (d : Code) (a : Code)
  /-- FCLASS (R169): Writes a class mask for each element. -/
  | fclass (x : Ext) (d : Code) (a : Code)
  /-- FSCALE (R167): Multiplies each element by two to an integer power. -/
  | fscale (x : Ext) (d : Code) (a : Code) (b : Code)
  /-- FCMP (R170): Floating-point compare under the minor's condition. -/
  | fcmp (x : Ext) (c : BitVec 4) (d : Code) (a : Code) (b : Code)
  /-- CVT_F2I (R176): Converts float elements to integers. -/
  | cvtF2i (x : Ext) (d : Code) (a : Code) (e : BitVec 4)
  /-- CVT_I2F (R177): Converts integer elements to float. -/
  | cvtI2f (x : Ext) (d : Code) (a : Code) (e : BitVec 4)
  /-- CVT_F2F (R177): Converts between float formats, selecting a half by desc[4]. -/
  | cvtF2f (x : Ext) (d : Code) (a : Code) (h : BitVec 1) (e : BitVec 4)
  /-- QNT (R178): Quantises FP32 into a narrow format code. -/
  | qnt (x : Ext) (d : Code) (a : Code) (fmt : BitVec 5)
  /-- DQNT (R178): Dequantises a narrow code to exact FP32. -/
  | dqnt (x : Ext) (d : Code) (a : Code) (fmt : BitVec 5)
  /-- MXSC (R179): Computes the E8M0 block scale for a block maximum. -/
  | mxsc (x : Ext) (d : Code) (a : Code) (fmt : BitVec 5)
  /-- PACK (R180): Rounds two FP32 values into a packed 16-bit pair. -/
  | pack (x : Ext) (d : Code) (a : Code) (b : Code)
  /-- UNPK (R180): Widens both halves of a packed pair into a register pair. -/
  | unpk (x : Ext) (d : Code) (a : Code)
  /-- RNG (R181): Writes a word of the Shunik mixer per lane. -/
  | rng (x : Ext) (d : Code) (a : Code)
  /-- FLAGS (R182): Reads the sticky flags and then clears the selected ones. -/
  | flags (l : Option Word) (d : Code) (a : Code)
  /-- RCP (R171): SFU reciprocal. -/
  | rcp (p : Option Pfx) (k : BitVec 4) (d : Code) (a : Code)
  /-- RSQ (R171): SFU reciprocal square root. -/
  | rsq (p : Option Pfx) (k : BitVec 4) (d : Code) (a : Code)
  /-- SQRT (R171): SFU square root, correctly rounded. -/
  | sqrt (p : Option Pfx) (k : BitVec 4) (d : Code) (a : Code)
  /-- EX2 (R171): SFU power of two. -/
  | ex2 (p : Option Pfx) (k : BitVec 4) (d : Code) (a : Code)
  /-- LG2 (R171): SFU base-2 logarithm. -/
  | lg2 (p : Option Pfx) (k : BitVec 4) (d : Code) (a : Code)
  /-- SINPI (R174): SFU sine of pi times x. -/
  | sinpi (p : Option Pfx) (k : BitVec 4) (d : Code) (a : Code)
  /-- COSPI (R174): SFU cosine of pi times x. -/
  | cospi (p : Option Pfx) (k : BitVec 4) (d : Code) (a : Code)
  /-- TANH (R171): SFU hyperbolic tangent. -/
  | tanh (p : Option Pfx) (k : BitVec 4) (d : Code) (a : Code)
  /-- SIGM (R171): SFU logistic sigmoid. -/
  | sigm (p : Option Pfx) (k : BitVec 4) (d : Code) (a : Code)
  /-- LREAD_AT (R105): Reads a from the lane at the position b names. -/
  | lreadAt (x : Ext) (d : Code) (a : Code) (b : Code)
  /-- LREAD_BACK (R105): Reads a from b positions below. -/
  | lreadBack (x : Ext) (d : Code) (a : Code) (b : Code)
  /-- LREAD_FWD (R105): Reads a from b positions above. -/
  | lreadFwd (x : Ext) (d : Code) (a : Code) (b : Code)
  /-- LREAD_FLIP (R105): Reads a from the position XORed with b. -/
  | lreadFlip (x : Ext) (d : Code) (a : Code) (b : Code)
  /-- BCAST (R106): Broadcasts a from one uniform position. -/
  | bcast (x : Ext) (d : Code) (a : Code) (b : Code)
  /-- VOTE_ANY (R107): Writes whether any lane of EXEC has a true predicate. -/
  | voteAny (x : Ext) (d : Code) (a : Code)
  /-- VOTE_ALL (R107): Writes whether all lanes of EXEC have a true predicate. -/
  | voteAll (x : Ext) (d : Code) (a : Code)
  /-- VOTE_BAL (R107): Writes one 32-bit word of the predicate mask. -/
  | voteBal (x : Ext) (d : Code) (a : Code) (b : Code)
  /-- LANE (R99): Writes each lane's logical lane index. -/
  | lane (d : Code)
  /-- GRPID (R99): Writes the group's team-wide index. -/
  | grpid (d : Code)
  /-- GETW (R98): Writes the grant, standing request and grant generation. -/
  | getw (d : Code)
  /-- SETW (R96): Records a width request for the group. -/
  | setw (l : Option Word) (a : Code)
  /-- MATCH (R108): Writes each lane's leader index among lanes with equal values. -/
  | matchLanes (p : Option Pfx) (k : BitVec 4) (d : Code) (a : Code)
  /-- RED_ADD (R109): Sum reduction over EXEC by the fixed tree. -/
  | redAdd (p : Option Pfx) (k : BitVec 4) (d : Code) (a : Code)
  /-- RED_MIN (R109): Minimum reduction over EXEC. -/
  | redMin (p : Option Pfx) (k : BitVec 4) (d : Code) (a : Code)
  /-- RED_MAX (R109): Maximum reduction over EXEC. -/
  | redMax (p : Option Pfx) (k : BitVec 4) (d : Code) (a : Code)
  /-- RED_BIT_AND (R109): Bitwise AND reduction. -/
  | redBitAnd (p : Option Pfx) (k : BitVec 4) (d : Code) (a : Code)
  /-- RED_BIT_OR (R109): Bitwise OR reduction. -/
  | redBitOr (p : Option Pfx) (k : BitVec 4) (d : Code) (a : Code)
  /-- RED_BIT_XOR (R109): Bitwise XOR reduction. -/
  | redBitXor (p : Option Pfx) (k : BitVec 4) (d : Code) (a : Code)
  /-- SCAN_ADD (R111): Inclusive sum scan. -/
  | scanAdd (p : Option Pfx) (k : BitVec 4) (d : Code) (a : Code)
  /-- SCAN_MAX (R111): Inclusive maximum scan. -/
  | scanMax (p : Option Pfx) (k : BitVec 4) (d : Code) (a : Code)
  /-- CSAMP (R112): Draws one lane with probability proportional to its weight. -/
  | csamp (p : Option Pfx) (k : BitVec 4) (d : Code) (a : Code)
  /-- BRA (R190): Moves the whole fragment to the target when any lane of T is set. -/
  | bra (c : BitVec 4) (off : BitVec 21)
  /-- BRX (R190): Splits the fragment between target and fall-through. -/
  | brx (c : BitVec 4) (off : BitVec 21)
  /-- BRZ (R190): Moves the whole fragment to the target when T is empty. -/
  | brz (c : BitVec 4) (off : BitVec 21)
  /-- JOIN (R191): Pushes a join entry for the fragment. -/
  | join (off : BitVec 21)
  /-- LEAVE (R192): Moves the lanes of EXEC out of n nested regions. -/
  | leave (n : BitVec 4)
  /-- CONT (R193): Continue-arrives the lanes of EXEC at the top join entry. -/
  | cont (off : BitVec 21)
  /-- CALL (R194): Pushes a call entry and sends the lanes of EXEC to the target. -/
  | call (off : BitVec 21)
  /-- CALLI (R194): Pushes a call entry and sends each lane to its own 64-bit target. -/
  | calli (a : Code)
  /-- RET (R194): Exit-arrives the lanes of EXEC at the topmost call entry. -/
  | ret
  /-- YIELD (R195): Makes the fragment youngest and may rotate. -/
  | yield
  /-- EXIT (R196): Exits the lanes of EXEC or restarts them at a successor. -/
  | exit (l : Option Word) (a : Code) (b : Code)
  /-- NOP (R195): Issues with no effect. -/
  | nop
  /-- MAND (R205): Mask triple AND. -/
  | mand (d : Code) (a : Code) (b : Code)
  /-- MOR (R205): Mask triple OR. -/
  | mor (d : Code) (a : Code) (b : Code)
  /-- MXOR (R205): Mask triple XOR. -/
  | mxor (d : Code) (a : Code) (b : Code)
  /-- MNOT (R205): Mask triple inverse over existing lanes. -/
  | mnot (d : Code) (a : Code)
  /-- MANDN (R205): Mask triple AND NOT. -/
  | mandn (d : Code) (a : Code) (b : Code)
  /-- MPOP (R205): Counts the set bits of a triple into a scalar. -/
  | mpop (d : Code) (a : Code)
  /-- MFFS (R205): Finds the lowest set LANEIX of a triple. -/
  | mffs (d : Code) (a : Code)
  /-- MCUR (R205): Writes the issuing fragment's mask to a triple. -/
  | mcur (d : Code)
  /-- MSPILL (R205): Expands a triple into per-lane all-ones or zero. -/
  | mspill (d : Code) (a : Code)
  /-- MFILL (R205): Sets the triple bits of EXEC lanes from per-lane predicates. -/
  | mfill (l : Option Word) (d : Code) (a : Code)
  /-- SETMODE (R47): Writes selected fields of the group's mode register. -/
  | setmode (l : Option Word) (m : Code) (a : Code) (imm : BitVec 11)
  /-- GETMODE (R220): Writes the group's MR into each lane of EXEC. -/
  | getmode (d : Code)
  /-- BAR (R226): Arrives at barrier n and waits for the completion of its phase. -/
  | bar (n : BitVec 4)
  /-- BAR_TASK (R229): Arrives at barrier n whose completion is a task boundary. -/
  | barTask (n : BitVec 4)
  /-- BARA (R224): Arrives at barrier n and returns the arrival phase. -/
  | bara (d : Code) (n : BitVec 4)
  /-- BARW (R226): Waits until barrier n has passed a phase. -/
  | barw (l : Option Word) (a : Code) (n : BitVec 4)
  /-- BARC (R223): Sets the party set of barrier n. -/
  | barc (l : Option Word) (a : Code) (n : BitVec 4)
  /-- ROLE (R221): Writes the lane's role index. -/
  | role (d : Code)
  /-- TEAMID (R221): Writes the team's logical index. -/
  | teamid (d : Code)
  /-- NTEAM (R221): Writes the number of teams in the grid. -/
  | nteam (d : Code)
  /-- GRIDID (R221): Writes the launch's serial number. -/
  | gridid (d : Code)
  /-- LCLK (R230): Writes the low or high half of the group's logical clock. -/
  | lclk (d : Code) (h : BitVec 1)
  /-- TASKEND (R229): Arrives at the team's task barrier. -/
  | taskend
  /-- SAFEPT (R232): Marks a preferred pre-emption point and closes windows. -/
  | safept
  /-- ECARD (R289): Writes one half of a job card into a chain slot. -/
  | ecard (l : Option Word) (k : BitVec 4) (h : BitVec 1) (c : BitVec 4) (a : Code) (b : Code)
  /-- ETAIL (R290): Checks and publishes n cards on a chain. -/
  | etail (l : Option Word) (c : BitVec 4) (a : Code)
  /-- ESEQ (R296): Reads a chain's SEQ, TAIL or status. -/
  | eseq (d : Code) (sel : BitVec 2) (c : BitVec 4)
  /-- EWAIT (R297): Waits until a chain's SEQ reaches a target. -/
  | ewait (l : Option Word) (a : Code) (c : BitVec 4)
  /-- GRAPH (R302): Asks to start a resident graph. -/
  | graph (l : Option Word) (a : Code) (b : Code)
  /-- GCOND (R303): Writes a condition word of the graph walker. -/
  | gcond (l : Option Word) (a : Code) (b : Code)
  /-- LDMB (R314): Loads a B quarter image into a register block. -/
  | ldmb (k : BitVec 4) (t : Code) (a : Code) (sp : BitVec 1) (fmt : BitVec 5)
  /-- MSTART (R315): Writes a register block into a quarter of a B staging buffer. -/
  | mstart (l : Option Word) (k : BitVec 4) (u : BitVec 1) (a : Code) (b : Code)
  /-- MACC_RD (R331): Reads one accumulator word per lane. -/
  | maccRd (l : Option Word) (d : Code) (a : Code)
  /-- MACC_WR (R331): Writes one accumulator word per lane. -/
  | maccWr (l : Option Word) (a : Code) (b : Code)
  /-- TRAP (R363): Raises DEBUG with SUB 3 and a code. -/
  | trap (n : Code)
  /-- ERET (R355): Leaves the jury-rig handler and reissues the instruction. -/
  | eret
  /-- EMRET (R355): Leaves the jury-rig handler after the emulated instruction, optionally shifting L. -/
  | emret (lst : BitVec 1)
  /-- WRD (R354): Reads an emulated instruction's operand through a window slot. -/
  | wrd (d : Code) (j : BitVec 2) (slot : BitVec 2)
  /-- WWR (R354): Writes an emulated instruction's operand through a window slot. -/
  | wwr (l : Option Word) (a : Code) (j : BitVec 2) (slot : BitVec 2)
  /-- WINFO (R353): Reads a register of the operand window. -/
  | winfo (d : Code) (ix : BitVec 3)
  /-- CSRR (R365): Reads a control and status register. -/
  | csrr (d : Code) (n : Code)
  /-- CSRW (R365): Writes JRNEXT from the handler. -/
  | csrw (l : Option Word) (a : Code) (n : Code)
  /-- SEGLD (R366): Loads a segment register's base and limit. -/
  | segld (a : Code) (g : BitVec 3)
  /-- TLBINV (R367): Removes every TLB entry of the issuing context. -/
  | tlbinv
  /-- TLBINV_VA (R367): Removes the TLB entries mapping one virtual address. -/
  | tlbinvVa (a : Code)
  /-- DBGBRK (R363): Raises DEBUG SUB 1 when a debugger is attached. -/
  | dbgbrk (n : Code)
  /-- HALT (R363): Raises DEBUG SUB 2. -/
  | halt
  /-- LD_G_B (R248): Loads a byte from GLOBAL. -/
  | ldGB (p : Option Pfx) (k : BitVec 4) (t : Code) (a : Code) (disp : Code)
  /-- LD_G_H (R248): Loads a halfword from GLOBAL. -/
  | ldGH (p : Option Pfx) (k : BitVec 4) (t : Code) (a : Code) (disp : Code)
  /-- LD_G_W (R248): Loads a word from GLOBAL. -/
  | ldGW (p : Option Pfx) (k : BitVec 4) (t : Code) (a : Code) (disp : Code)
  /-- LD_G_D (R248): Loads a doubleword from GLOBAL. -/
  | ldGD (p : Option Pfx) (k : BitVec 4) (t : Code) (a : Code) (disp : Code)
  /-- LD_G_Q (R248): Loads a quadword from GLOBAL. -/
  | ldGQ (p : Option Pfx) (k : BitVec 4) (t : Code) (a : Code) (disp : Code)
  /-- LD_S_B (R248): Loads a byte from SCRATCH. -/
  | ldSB (p : Option Pfx) (k : BitVec 4) (t : Code) (a : Code) (disp : Code)
  /-- LD_S_H (R248): Loads a halfword from SCRATCH. -/
  | ldSH (p : Option Pfx) (k : BitVec 4) (t : Code) (a : Code) (disp : Code)
  /-- LD_S_W (R248): Loads a word from SCRATCH. -/
  | ldSW (p : Option Pfx) (k : BitVec 4) (t : Code) (a : Code) (disp : Code)
  /-- LD_S_D (R248): Loads a doubleword from SCRATCH. -/
  | ldSD (p : Option Pfx) (k : BitVec 4) (t : Code) (a : Code) (disp : Code)
  /-- LD_S_Q (R248): Loads a quadword from SCRATCH. -/
  | ldSQ (p : Option Pfx) (k : BitVec 4) (t : Code) (a : Code) (disp : Code)
  /-- LD_C_B (R248): Loads a byte from CONST. -/
  | ldCB (p : Option Pfx) (k : BitVec 4) (t : Code) (a : Code) (disp : Code)
  /-- LD_C_H (R248): Loads a halfword from CONST. -/
  | ldCH (p : Option Pfx) (k : BitVec 4) (t : Code) (a : Code) (disp : Code)
  /-- LD_C_W (R248): Loads a word from CONST. -/
  | ldCW (p : Option Pfx) (k : BitVec 4) (t : Code) (a : Code) (disp : Code)
  /-- LD_C_D (R248): Loads a doubleword from CONST. -/
  | ldCD (p : Option Pfx) (k : BitVec 4) (t : Code) (a : Code) (disp : Code)
  /-- LD_C_Q (R248): Loads a quadword from CONST. -/
  | ldCQ (p : Option Pfx) (k : BitVec 4) (t : Code) (a : Code) (disp : Code)
  /-- LD_L_B (R248): Loads a byte from LOCAL. -/
  | ldLB (p : Option Pfx) (k : BitVec 4) (t : Code) (a : Code) (disp : Code)
  /-- LD_L_H (R248): Loads a halfword from LOCAL. -/
  | ldLH (p : Option Pfx) (k : BitVec 4) (t : Code) (a : Code) (disp : Code)
  /-- LD_L_W (R248): Loads a word from LOCAL. -/
  | ldLW (p : Option Pfx) (k : BitVec 4) (t : Code) (a : Code) (disp : Code)
  /-- LD_L_D (R248): Loads a doubleword from LOCAL. -/
  | ldLD (p : Option Pfx) (k : BitVec 4) (t : Code) (a : Code) (disp : Code)
  /-- LD_L_Q (R248): Loads a quadword from LOCAL. -/
  | ldLQ (p : Option Pfx) (k : BitVec 4) (t : Code) (a : Code) (disp : Code)
  /-- ST_G_B (R248): Stores a byte to GLOBAL. -/
  | stGB (p : Option Pfx) (k : BitVec 4) (t : Code) (a : Code) (disp : Code)
  /-- ST_G_H (R248): Stores a halfword to GLOBAL. -/
  | stGH (p : Option Pfx) (k : BitVec 4) (t : Code) (a : Code) (disp : Code)
  /-- ST_G_W (R248): Stores a word to GLOBAL. -/
  | stGW (p : Option Pfx) (k : BitVec 4) (t : Code) (a : Code) (disp : Code)
  /-- ST_G_D (R248): Stores a doubleword to GLOBAL. -/
  | stGD (p : Option Pfx) (k : BitVec 4) (t : Code) (a : Code) (disp : Code)
  /-- ST_G_Q (R248): Stores a quadword to GLOBAL. -/
  | stGQ (p : Option Pfx) (k : BitVec 4) (t : Code) (a : Code) (disp : Code)
  /-- ST_S_B (R248): Stores a byte to SCRATCH. -/
  | stSB (p : Option Pfx) (k : BitVec 4) (t : Code) (a : Code) (disp : Code)
  /-- ST_S_H (R248): Stores a halfword to SCRATCH. -/
  | stSH (p : Option Pfx) (k : BitVec 4) (t : Code) (a : Code) (disp : Code)
  /-- ST_S_W (R248): Stores a word to SCRATCH. -/
  | stSW (p : Option Pfx) (k : BitVec 4) (t : Code) (a : Code) (disp : Code)
  /-- ST_S_D (R248): Stores a doubleword to SCRATCH. -/
  | stSD (p : Option Pfx) (k : BitVec 4) (t : Code) (a : Code) (disp : Code)
  /-- ST_S_Q (R248): Stores a quadword to SCRATCH. -/
  | stSQ (p : Option Pfx) (k : BitVec 4) (t : Code) (a : Code) (disp : Code)
  /-- ST_L_B (R248): Stores a byte to LOCAL. -/
  | stLB (p : Option Pfx) (k : BitVec 4) (t : Code) (a : Code) (disp : Code)
  /-- ST_L_H (R248): Stores a halfword to LOCAL. -/
  | stLH (p : Option Pfx) (k : BitVec 4) (t : Code) (a : Code) (disp : Code)
  /-- ST_L_W (R248): Stores a word to LOCAL. -/
  | stLW (p : Option Pfx) (k : BitVec 4) (t : Code) (a : Code) (disp : Code)
  /-- ST_L_D (R248): Stores a doubleword to LOCAL. -/
  | stLD (p : Option Pfx) (k : BitVec 4) (t : Code) (a : Code) (disp : Code)
  /-- ST_L_Q (R248): Stores a quadword to LOCAL. -/
  | stLQ (p : Option Pfx) (k : BitVec 4) (t : Code) (a : Code) (disp : Code)
  /-- LD_G_ACQ_W (R276): Acquire load of a GLOBAL word at a scope. -/
  | ldGAcqW (p : Option Pfx) (k : BitVec 4) (t : Code) (a : Code) (sc : BitVec 3) (disp : BitVec 4)
  /-- LD_G_ACQ_D (R276): Acquire load of a GLOBAL doubleword. -/
  | ldGAcqD (p : Option Pfx) (k : BitVec 4) (t : Code) (a : Code) (sc : BitVec 3) (disp : BitVec 4)
  /-- LD_S_ACQ_W (R276): Acquire load of a SCRATCH word. -/
  | ldSAcqW (p : Option Pfx) (k : BitVec 4) (t : Code) (a : Code) (sc : BitVec 3) (disp : BitVec 4)
  /-- LD_S_ACQ_D (R276): Acquire load of a SCRATCH doubleword. -/
  | ldSAcqD (p : Option Pfx) (k : BitVec 4) (t : Code) (a : Code) (sc : BitVec 3) (disp : BitVec 4)
  /-- ST_G_REL_W (R276): Release store of a GLOBAL word at a scope. -/
  | stGRelW (p : Option Pfx) (k : BitVec 4) (t : Code) (a : Code) (sc : BitVec 3) (disp : BitVec 4)
  /-- ST_G_REL_D (R276): Release store of a GLOBAL doubleword. -/
  | stGRelD (p : Option Pfx) (k : BitVec 4) (t : Code) (a : Code) (sc : BitVec 3) (disp : BitVec 4)
  /-- ST_S_REL_W (R276): Release store of a SCRATCH word. -/
  | stSRelW (p : Option Pfx) (k : BitVec 4) (t : Code) (a : Code) (sc : BitVec 3) (disp : BitVec 4)
  /-- ST_S_REL_D (R276): Release store of a SCRATCH doubleword. -/
  | stSRelD (p : Option Pfx) (k : BitVec 4) (t : Code) (a : Code) (sc : BitVec 3) (disp : BitVec 4)
  /-- ATOM_G_W (R279): Atomic read-modify-write of a GLOBAL word returning the old value. -/
  | atomGW (p : Option Pfx) (k : BitVec 4) (t : Code) (a : Code) (sc : BitVec 3) (op : BitVec 4)
  /-- ATOM_G_D (R279): Atomic operation on a GLOBAL doubleword. -/
  | atomGD (p : Option Pfx) (k : BitVec 4) (t : Code) (a : Code) (sc : BitVec 3) (op : BitVec 4)
  /-- ATOM_S_W (R279): Atomic operation on a SCRATCH word. -/
  | atomSW (p : Option Pfx) (k : BitVec 4) (t : Code) (a : Code) (sc : BitVec 3) (op : BitVec 4)
  /-- ATOM_S_D (R279): Atomic operation on a SCRATCH doubleword. -/
  | atomSD (p : Option Pfx) (k : BitVec 4) (t : Code) (a : Code) (sc : BitVec 3) (op : BitVec 4)
  /-- REDM_G_W (R280): Atomic operation on a GLOBAL word without return. -/
  | redmGW (p : Option Pfx) (k : BitVec 4) (t : Code) (a : Code) (sc : BitVec 3) (op : BitVec 4)
  /-- REDM_G_D (R280): Atomic operation on a GLOBAL doubleword without return. -/
  | redmGD (p : Option Pfx) (k : BitVec 4) (t : Code) (a : Code) (sc : BitVec 3) (op : BitVec 4)
  /-- LDV (R250): Loads through the segment the disp field names, with a cache hint. -/
  | ldv (p : Option Pfx) (k : BitVec 4) (t : Code) (a : Code) (g : BitVec 3) (w : BitVec 2) (h : BitVec 2)
  /-- STV (R250): Stores through the segment the disp field names, with a cache hint. -/
  | stv (p : Option Pfx) (k : BitVec 4) (t : Code) (a : Code) (g : BitVec 3) (w : BitVec 2) (h : BitVec 2)
  /-- PRF (R251): Prefetches one line per lane into L2 and L1. -/
  | prf (k : BitVec 4) (a : Code) (disp : Code)
  /-- CWB (R251): Writes back the dirty sectors of one line per lane. -/
  | cwb (k : BitVec 4) (a : Code) (disp : Code)
  /-- CINV (R251): Drops one line per lane from the core's L1. -/
  | cinv (k : BitVec 4) (a : Code) (disp : Code)
  /-- WAITC (R252): Waits until an in-flight counter falls to a threshold and makes results visible. -/
  | waitc (l : Option Word) (a : Code) (path : BitVec 3)
  /-- SEGRD (R253): Reads a segment register's base or limit. -/
  | segrd (d : Code) (lim : BitVec 1) (g : BitVec 3)
  /-- FENCE (R275): Orders the group's earlier accesses before its later ones at a scope. -/
  | fence (sc : BitVec 3)
  /-- JURYRIG (R352): An issued word with the JURYRIG fate enters the fragment's handler or traps. -/
  | juryrig (w : RawWord)
  /-- ILLEGAL (R60): An issued word that fails a decode or issue check traps ILLEGAL. -/
  | illegal (w : RawWord)
  /-- VENDOR_TEST (R62): An issued vendor-test word traps ILLEGAL or performs a factory operation in RETURN. -/
  | vendorTest (w : RawWord)
  /-- MLDA (R318): Stream word copying an A image from the scratchpad into an A buffer. -/
  | mlda (fmt : BitVec 5) (abuf : BitVec 1) (lsel : BitVec 2) (stride off : BitVec 16)
  /-- MMA (R320): Stream word multiplying the A and B buffers into an accumulator tile. -/
  | mma (afmt bfmt : BitVec 5) (atype : BitVec 2) (slot : BitVec 3) (abuf bbuf ovw : BitVec 1)
  /-- MZERO (R319): Stream word zeroing an accumulator tile. -/
  | mzero (atype : BitVec 2) (slot : BitVec 3)
  /-- MDRAIN (R323): Stream word converting a tile to an output format and writing it out. -/
  | mdrain (f : DrainFields)
  /-- MARRB (R325): Stream word arriving at a barrier. -/
  | marrb (n : BitVec 4)
  /-- MWAITB (R325): Stream word waiting for a barrier completion. -/
  | mwaitb (n : BitVec 4)
  /-- MLOOP (R328): Stream word repeating the following body words. -/
  | mloop (count : BitVec 16) (body : BitVec 10)
  /-- MSCALE (R319): Stream word scaling a tile by a power of two. -/
  | mscale (scl : BitVec 8) (atype : BitVec 2) (slot : BitVec 3)
  /-- MEND (R329): Stream word stopping the sequencer for good. -/
  | mend
  /-- MACC_RD_STREAM (R330): Stream word copying an accumulator slot into the scratchpad. -/
  | maccRdStream (slot : BitVec 3) (off : BitVec 16)
  /-- MACC_WR_STREAM (R330): Stream word copying the scratchpad into an accumulator slot. -/
  | maccWrStream (slot : BitVec 3) (off : BitVec 16)
  /-- EXIT_ARRIVAL (R185): A fragment whose PC reaches the top entry's JADDR parks there. -/
  | exitArrival (t g f : Nat)
  /-- FRAGMENT_AGEING (R200): A slot fragment reaches 64 issues and becomes youngest, rotating if possible. -/
  | fragmentAgeing (t g f : Nat)
  /-- HANG (R202): A group's hang count reaches 2^27 and the group traps HANG. -/
  | hang (t g : Nat)
  /-- IN_FLIGHT_FINISH (R245): An in-flight access finishes, its data becomes pending and its counter falls in order. -/
  | inFlightFinish (t g op : Nat) (lanes : Mask) (keepL1 : Bool)
  /-- RESLICE (R101): After counters drain, a team whose grant changed is re-sliced and its barrier released. -/
  | reslice (t : Nat)
  /-- TASK_BOUNDARY (R229): After counters 2 to 4 drain, the task commits, counters rise and a snapshot is taken. -/
  | taskBoundary (t : Nat)
  /-- TEAM_END (R209): A team whose lanes exited and stream ended drains, takes a final boundary and frees its resources. -/
  | teamEnd (t : Nat)
  /-- TEAM_PLACEMENT (R207): The launcher places a waiting team on a core when one fits. -/
  | teamPlacement (grid : Nat)
  /-- TRAP_REPORT (R340): Pilot receives a parked group's trap report once its counters 2 to 4 reach zero. -/
  | trapReport (t : Nat) (src : TrapSource)
  /-- REPORT_RING_WRITE (R415): Pilot writes a held report into the owner's report ring when there is room. -/
  | reportRingWrite (fn : Fn)
  /-- PAGE_WALK (R346): A TLB miss takes a free page walker and walks both stages. -/
  | pageWalk (core ctx va : Nat) (acc : AccessKind)
  /-- TASK_ROLLBACK (R385): After halting and draining, a level-1 task's version is discarded and the task re-executed or ended. -/
  | taskRollback (t : Nat)
  /-- TELLTALE_MISMATCH (R391): A Telltale mismatch halts the pair, rolls back and reruns or ends the task. -/
  | telltaleMismatch (t : Nat) (m : Mismatch)
  /-- CARD_ACCEPTANCE (R290): A waiting publication is accepted in order once the scheduler and quota have room. -/
  | cardAcceptance
  /-- CARD_DISPATCH (R294): The scheduler gives a ready card to an idle engine in tenant round robin. -/
  | cardDispatch
  /-- CARD_COMPLETION (R298): An engine finishes a card and SEQ passes completed positions. -/
  | cardCompletion (card : Nat)
  /-- QUAY_SEND_ARRIVAL (R304): A send arriving on a Quay port is matched with a receive by tag. -/
  | quaySendArrival (port tag : Nat) (bytes : List Byte)
  /-- QUAY_LINK_DOWN (R304): A Quay link goes down and every running card of its port fails. -/
  | quayLinkDown (port : Nat)
  /-- GRAPH_START (R302): A queued graph start begins an instance when the previous one ends. -/
  | graphStart (p : Nat)
  /-- GRAPH_NODE (R300): The graph walker acts on its oldest ready node. -/
  | graphNode (p : Nat)
  /-- BERTH_DECISION (R419): Pilot chooses which queue a berth holds. -/
  | berthDecision (b : Nat)
  /-- COMMAND_ACCEPTANCE (R418): The launcher takes a ready command from the partition's berths in round robin. -/
  | commandAcceptance (src : CmdSource)
  /-- COMMAND_COMPLETION (R412): Pilot writes a command's status and DONEVAL and signals its vector. -/
  | commandCompletion (c : Nat)
  /-- LAUNCH (R413): Command that checks and launches a grid from a launch record. -/
  | launch (c : Nat)
  /-- SYSLAUNCH (R413): Command that launches a grid as a system launch on queue 0. -/
  | syslaunch (c : Nat)
  /-- COPY (R413): Command that copies memory on a copy engine as a .sys card. -/
  | copy (c : Nat)
  /-- CTXNEW (R413): Command that creates a context from a stage-1 root. -/
  | ctxnew (c : Nat)
  /-- CTXDEL (R413): Command that deletes a context once no grid of it remains. -/
  | ctxdel (c : Nat)
  /-- MAPCODE (R83): Command that raises a context's code generation and removes its TLB entries. -/
  | mapcode (c : Nat)
  /-- TLBINV_COMMAND (R413): Command that invalidates a context's translations over the tenant's partitions. -/
  | tlbinvCommand (c : Nat)
  /-- RESUME_RETRY (R341): RESUME command reissuing the faulting instruction, stream word or card. -/
  | resumeRetry (c : Nat)
  /-- RESUME_SKIP (R341): RESUME command continuing after the faulting instruction or stream word. -/
  | resumeSkip (c : Nat)
  /-- RESUME_KILL (R341): RESUME command ending the grid or failing the card. -/
  | resumeKill (c : Nat)
  /-- GRLOAD (R299): Command that loads a resident graph. -/
  | grload (c : Nat)
  /-- GRSTART (R413): Command that queues a graph start. -/
  | grstart (c : Nat)
  /-- DEBUG_COMMAND (R413): Command that writes a debug comparator. -/
  | debugCommand (c : Nat)
  /-- SIGNAL (R413): Command that completes at once. -/
  | signal (c : Nat)
  /-- PREEMPT_VACATE (R370): PREEMPT request choosing victim cores to vacate. -/
  | preemptVacate (c : Nat)
  /-- PREEMPT_RESIZE (R381): PREEMPT request removing clusters from a partition. -/
  | preemptResize (c : Nat)
  /-- PREEMPT_RELEASE_HOLD (R379): PREEMPT request returning held cores to placement. -/
  | preemptReleaseHold (c : Nat)
  /-- S2RESUME_RETRY (R350): PF command retrying after a stage-2 fault. -/
  | s2resumeRetry (c : Nat)
  /-- S2RESUME_SKIP (R350): PF command skipping after a stage-2 fault. -/
  | s2resumeSkip (c : Nat)
  /-- S2RESUME_KILL (R350): PF command killing after a stage-2 fault. -/
  | s2resumeKill (c : Nat)
  /-- S2INV (R413): PF command removing TLB entries built from a tenant's stage-2 tables. -/
  | s2inv (c : Nat)
  /-- PREEMPT_GRACE_EXPIRY (R371): A victim group uses up its GRACE issues and stops. -/
  | preemptGraceExpiry (t g : Nat)
  /-- CONTEXT_SAVE (R374): Once victim cores have drained and halted, their contexts are written out. -/
  | contextSave (part : Nat)
  /-- TEAM_RESUME (R376): A saved team is placed again and continues where it stopped. -/
  | teamResume (t : Nat)
  /-- L2_WINDOW (R257): A bank's 65,536-lookup window ends and ways are gated or re-enabled. -/
  | l2Window (bank : Nat)
  /-- RAIL_RAISE_SETTLED (R427): A raised rail has settled and the clusters raise their clocks. -/
  | railRaiseSettled (rail : Nat)
  /-- RAIL_LOWER_HOLD_EXPIRY (R427): The required level stays unchanged for 4,096 controller cycles and the rail falls. -/
  | railLowerHoldExpiry (rail : Nat)
  /-- THERMAL_STEP (R426): A junction sensor crosses a threshold and the cluster's thermal step changes. -/
  | thermalStep (cluster : Nat) (celsius : Int)
  /-- THERMAL_SHUTDOWN (R429): A sensor reaches 125 C and the Harbourmaster logs and powers the part off. -/
  | thermalShutdown (cluster : Nat)
  /-- BROWNOUT (R400): Brownout detection finishes the current record and commits a class-5 record. -/
  | brownout
  /-- POWER_UP (R430): Power-up ramps rails and runs the bring-up sequence. -/
  | powerUp
  /-- PF_FLR (R430): An FLR of the PF resets the device and runs bring-up. -/
  | pfFlr
  /-- VF_FLR (R421): An FLR of a VF kills the tenant's grids and clears its queues. -/
  | vfFlr (v : Nat)
  /-- PARTITION_START (R408): An enabled partition starts and binds its graph walker once its wipe ends. -/
  | partitionStart (p : Nat)
  /-- KICK (R416): A KICK write makes a berth re-read TAIL or sets the queue's pending bit. -/
  | kick (fn : Fn) (v : Word)
  /-- HM_WALL_HI (R399): A write of the high half sets the wall-time word. -/
  | hmWallHi (v : Word)
  /-- VAL (R406): A mailbox VAL write hands a new ILPOL to the Harbourmaster. -/
  | val (v : Word)
  /-- HM_INJ_CTL (R445): A write arms one Telltale injection. -/
  | hmInjCtl (v : Word)
  /-- TENANT_BLOCK_WRITE (R405): A write of a tenant block is applied or refused with CFGERR. -/
  | tenantBlockWrite (t off : Nat) (v : Word)
  /-- PARTITION_BLOCK_WRITE (R408): A write of a partition block enables, grows or is refused. -/
  | partitionBlockWrite (p off : Nat) (v : Word)
  /-- QUAY_PORT_WRITE (R420): A write of a Quay port register attaches the port to a tenant. -/
  | quayPortWrite (q : Nat) (v : Word)
  /-- REPBASE (R436): The first PF REPBASE write after bring-up makes Pilot write the attestation report. -/
  | repbase (fn : Fn) (hi : Bool) (v : Word)
  /-- REPHEAD (R415): A REPHEAD write frees report ring room for held reports. -/
  | rephead (fn : Fn) (v : Word)
  /-- REGISTER_WRITE (R5): A write to a host-visible register with no behaviour of its own. -/
  | registerWrite (fn : Fn) (off : Nat) (v : Word)
  /-- QUAY_LINK_UP (R420): A Quay link finishes training and its port's UP bit becomes 1. -/
  | quayLinkUp (port : Nat)
  /-- CHARGE_RECORD_UPDATE (R215): Each cluster cycle the charge record is updated as CR := max(0, CR + C - B), even when nothing issues. -/
  | chargeRecordUpdate (cluster : Nat)
  /-- DEBUGGER_ATTACH (R363): A debugger attaches to or detaches from a context through Pilot, deciding whether DBGBRK raises DEBUG. -/
  | debuggerAttach (ctx : Nat) (attached : Bool)
  deriving DecidableEq, Repr

end Sys2Proof
end

