-- ==== Sys2Proof/Machine/Forms.lean ====
section
/-!
DEFINITION. The encoding tables' field classes (R36-R38, R42, R94, R204, R247, R277, R312, R362), one `Form` per
instruction word, and what follows from a form without any state: the ILLEGAL checks made at decode (R38, R41-R43,
R48, R56-R59, R94, R164, R204, R218, R247, R250, R252, R288, R312, R362), the OVERLAP spans (R123), the registers written
(R52), the bank cost (R210), the port (R210) and the charge weight (R215).
-/
namespace Sys2Proof

/-- An operand, read from its code (R36) or, under XEN, from the extended V number (R42). -/
inductive Opnd where
  | v (n : Nat)
  | q (n : Nat)
  | l (n : Nat)
  | zero
  | laneix
  | imm
  | s (n : Nat)
  | bad
  deriving DecidableEq, Repr

/-- The operand table of R36. -/
def opndOf (c : Code) : Opnd :=
  let n := c.toNat
  if n < 0x60 then .v n
  else if n < 0x70 then .q (n - 0x60)
  else if n < 0x74 then .l (n - 0x70)
  else if n = 0x74 then .zero
  else if n = 0x75 then .laneix
  else if n = 0x76 then .imm
  else if n = 0x77 then .bad
  else .s (n - 0x78)

/-- A lane register operand under XEN (R42), and by the table otherwise. -/
def opndX (xen ext : Bool) (c : Code) : Opnd :=
  if xen then .v ((if ext then 128 else 0) + c.toNat) else opndOf c

/-- The S-form table of R37: the register, ZERO or IMMNEXT. -/
def sOpndOf (c : Code) : Opnd :=
  let n := c.toNat
  if n < 0x40 then .s n else if n = 0x74 then .zero else if n = 0x76 then .imm else .bad

/-- The triple numbers a field may hold (R94, R204). -/
def tripleCode (c : Code) : Bool := [8, 11, 14, 17, 20, 23, 26, 29].contains c.toNat

/-- The three S registers of a mask triple; none for any other code (R8, R204). -/
def tripleRegs (c : Code) : List Opnd := if tripleCode c then (List.range 3).map (fun k => .s (c.toNat + k)) else []

/-- The class an encoding table gives a field. -/
inductive FClass where
  /-- lane destination of `n` registers; `long` for long-latency instructions, which name no L register (R36, R38, R52) -/
  | dst (n : Nat) (long : Bool)
  /-- per-lane source; `imm` where IMMNEXT may stand (R36, R38) -/
  | src (imm : Bool)
  /-- per-lane source of 64 or 128 bits: an aligned V register or ZERO (R38) -/
  | srcN (n : Nat)
  /-- aligned V register only (R188, R312, R362) -/
  | vOnly (n : Nat)
  /-- data of a store of `n` registers (R247) -/
  | stData (n : Nat)
  /-- t of an ATOM of `n` registers (R277) -/
  | atomT (n : Nat) (cas : Bool)
  /-- S0-S7, IMMNEXT or, where `zero`, ZERO (R94) -/
  | uniform (zero : Bool)
  /-- S-form destination and source (R37) -/
  | sDst
  | sSrc
  /-- scalar register coded 0x00-0x3F, written or read (R127, R204) -/
  | sRegDst
  | sRegSrc
  /-- mask triple, a source may be ZERO (R204) -/
  | tripleDst
  | tripleSrc
  /-- lane destination, or triple when MDST = 1 (R94) -/
  | laneOrTriple (long : Bool)
  /-- the a field of SETMODE (R47) -/
  | modeSrc
  /-- a field that holds a value -/
  | value
  deriving DecidableEq, Repr

/-- The place of a field, which decides its extension bit (R41, R42). -/
inductive Pos where
  | d | a | b
  deriving DecidableEq, Repr

/-- A field of a form: class, code and place. -/
structure Fld where
  cls : FClass
  code : Code
  pos : Pos
  deriving DecidableEq, Repr

/-- How a lane read finds the position it reads a from (R105, R106). -/
inductive Far where
  | at_ | back | fwd | flip
  deriving DecidableEq, Repr

/-- The position that a lane read names from a lane, exact (R105). -/
def Far.pos (k : Far) (i : Nat) (b : Word) : Int :=
  match k with
  | .at_ => Int.ofNat b.toNat
  | .back => Int.ofNat i - Int.ofNat b.toNat
  | .fwd => Int.ofNat i + Int.ofNat b.toNat
  | .flip => Int.ofNat (i ^^^ b.toNat)

/-- What the encoding tables say of one word. -/
structure Form where
  major : Nat
  flds : List Fld
  pfx : Option Pfx
  /-- the map marks the cell with a dagger; the registers of the fourth operand (R43, R126) -/
  dagger : Option Nat
  /-- double dagger: MDST is legal (R43) -/
  ddagger : Bool
  /-- F-M or F-I word: XB is always 0 (R42) -/
  noXb : Bool
  /-- the lookahead field (R33), and whether 15 is legal (R50, R61) -/
  lk : Option (BitVec 4)
  lk15 : Bool
  /-- the value fields hold what the tables allow -/
  valOk : Bool
  /-- the literal the word carries (R39) -/
  lit : Option Word
  /-- group-scope: its effect does not read EXEC (R144, R182, R204, R219, R223, R252, R275, R290, R297, R302, R303, R315, R362) -/
  noExec : Bool := false
  /-- the condition code of a branch, which names a triple (R59) -/
  cond : Nat := 0
  /-- how a lane read finds the position it reads from (R105, R106) -/
  far : Option Far := none
  /-- the registers that its effect reads though no source field names them: L0, the old value of a destination (R128, R145, R205) -/
  also : List Opnd := []
  /-- its conversion into one half of d keeps the other: with f32 as the source it reads the old d (R175, R177) -/
  intoHalf : Bool := false
  /-- it moves lanes between addresses or fragments, so that Telltale compares what becomes of them (R389) -/
  branch : Bool := false
  deriving DecidableEq, Repr

/-- Registers of an LDV or STV width code (R250). -/
def vWidthRegs (w : BitVec 2) : Nat := if w = 3 then 4 else if w = 2 then 2 else 1

/-- Bytes of an LDV or STV width code (R250). -/
def vWidthBytes (w : BitVec 2) : Nat := if w = 3 then 16 else if w = 2 then 8 else if w = 1 then 4 else 2

/-- The segment and hint codes of LDV and STV (R250): 4 and 5 never, 2 not in STV, no hint on segment 1. -/
def ldvSegOk (g : BitVec 3) (h : BitVec 2) (store : Bool) : Bool :=
  g != 4 && g != 5 && !(store && g == 2) && !(g == 1 && h != 0)

/-- The CSR numbers that exist (R365). -/
def csrKnown (n : Code) : Bool :=
  n.toNat < 4 || (8 ≤ n.toNat && n.toNat < 12)

/-- The image of an immediate or literal SETMODE (R47): none for a scalar image, known only at execution. -/
def setmodeImage (a : Code) (imm : BitVec 11) (l : Option Word) : Option Nat :=
  if a.toNat = 0x74 then some imm.toNat else if a.toNat = 0x76 then l.map (·.toNat) else none

/-- The MR bits a SETMODE field mask selects (R45, R47). -/
def setmodeSel (m : Code) : Nat :=
  (if m.getLsbD 0 then 0x7 else 0) + (if m.getLsbD 1 then 0x78 else 0) + (if m.getLsbD 2 then 0x380 else 0)
  + (if m.getLsbD 3 then 0x400 else 0) + (if m.getLsbD 4 then 0x800 else 0) + (if m.getLsbD 5 then 0x1F000 else 0)
  + (if m.getLsbD 6 then 0x60000 else 0)

/-- No selected ETYPE or RND field of an image holds a reserved code (R46, R48). -/
def setmodeImageOk (m : Code) (img : Nat) : Bool :=
  !(m.getLsbD 1 && 9 ≤ natBits img 6 3) && !(m.getLsbD 2 && 6 ≤ natBits img 9 7)

/-- The ILLEGAL cases of SETMODE that are checked at decode (R47, R48). -/
def setmodeOk (m a : Code) (imm : BitVec 11) (l : Option Word) : Bool :=
  m != 0
  && (if a.toNat = 0x74 then
        !(m.getLsbD 4 || m.getLsbD 5 || m.getLsbD 6) && (imm.toNat &&& (2 ^ 11 - 1 - (setmodeSel m &&& (2 ^ 11 - 1)))) == 0
      else imm == 0)
  && (match setmodeImage a imm l with
      | some img => setmodeImageOk m img
      | none => true)

/-- The form of each instruction word: the class, code and place of its operand fields, the fourth operand, the lookahead and the
allowed values, from the encoding tables (R61, R93, R127, R164, R188, R204, R217, R247, R273, R288, R312, R362). Other steps have none. -/
def Instr.form : Instr → Option Form
  | .iadd x d a b => some { major := 0x1, flds := [⟨.dst 1 false, d, .d⟩, ⟨.src true, a, .a⟩, ⟨.src true, b, .b⟩], pfx := x.pfx, dagger := none, ddagger := false, noXb := false, lk := none, lk15 := false, valOk := true, lit := x.lit }
  | .isub x d a b => some { major := 0x1, flds := [⟨.dst 1 false, d, .d⟩, ⟨.src true, a, .a⟩, ⟨.src true, b, .b⟩], pfx := x.pfx, dagger := none, ddagger := false, noXb := false, lk := none, lk15 := false, valOk := true, lit := x.lit }
  | .imul x d a b => some { major := 0x1, flds := [⟨.dst 1 false, d, .d⟩, ⟨.src true, a, .a⟩, ⟨.src true, b, .b⟩], pfx := x.pfx, dagger := none, ddagger := false, noXb := false, lk := none, lk15 := false, valOk := true, lit := x.lit }
  | .imulh x d a b => some { major := 0x1, flds := [⟨.dst 1 false, d, .d⟩, ⟨.src true, a, .a⟩, ⟨.src true, b, .b⟩], pfx := x.pfx, dagger := none, ddagger := false, noXb := false, lk := none, lk15 := false, valOk := true, lit := x.lit }
  | .imad x d a b => some { major := 0x1, flds := [⟨.dst 1 false, d, .d⟩, ⟨.src true, a, .a⟩, ⟨.src true, b, .b⟩], pfx := x.pfx, dagger := some 1, ddagger := false, noXb := false, lk := none, lk15 := false, valOk := true, lit := x.lit }
  | .imadw x d a b => some { major := 0x1, flds := [⟨.dst 2 false, d, .d⟩, ⟨.src true, a, .a⟩, ⟨.src true, b, .b⟩], pfx := x.pfx, dagger := some 2, ddagger := false, noXb := false, lk := none, lk15 := false, valOk := true, lit := x.lit }
  | .ineg x d a => some { major := 0x1, flds := [⟨.dst 1 false, d, .d⟩, ⟨.src true, a, .a⟩], pfx := x.pfx, dagger := none, ddagger := false, noXb := false, lk := none, lk15 := false, valOk := true, lit := x.lit }
  | .iabs x d a => some { major := 0x1, flds := [⟨.dst 1 false, d, .d⟩, ⟨.src true, a, .a⟩], pfx := x.pfx, dagger := none, ddagger := false, noXb := false, lk := none, lk15 := false, valOk := true, lit := x.lit }
  | .imin x d a b => some { major := 0x1, flds := [⟨.dst 1 false, d, .d⟩, ⟨.src true, a, .a⟩, ⟨.src true, b, .b⟩], pfx := x.pfx, dagger := none, ddagger := false, noXb := false, lk := none, lk15 := false, valOk := true, lit := x.lit }
  | .imax x d a b => some { major := 0x1, flds := [⟨.dst 1 false, d, .d⟩, ⟨.src true, a, .a⟩, ⟨.src true, b, .b⟩], pfx := x.pfx, dagger := none, ddagger := false, noXb := false, lk := none, lk15 := false, valOk := true, lit := x.lit }
  | .isel x d a b => some { major := 0x1, flds := [⟨.dst 1 false, d, .d⟩, ⟨.src true, a, .a⟩, ⟨.src true, b, .b⟩], pfx := x.pfx, dagger := none, ddagger := false, noXb := false, lk := none, lk15 := false, valOk := true, lit := x.lit, also := [.l 0] }
  | .sad x d a b => some { major := 0x1, flds := [⟨.dst 1 false, d, .d⟩, ⟨.src true, a, .a⟩, ⟨.src true, b, .b⟩], pfx := x.pfx, dagger := some 1, ddagger := false, noXb := false, lk := none, lk15 := false, valOk := true, lit := x.lit }
  | .dot4 x d a b => some { major := 0x1, flds := [⟨.dst 1 false, d, .d⟩, ⟨.src true, a, .a⟩, ⟨.src true, b, .b⟩], pfx := x.pfx, dagger := some 1, ddagger := false, noXb := false, lk := none, lk15 := false, valOk := true, lit := x.lit }
  | .lea x d a b => some { major := 0x1, flds := [⟨.dst 2 false, d, .d⟩, ⟨.srcN 2, a, .a⟩, ⟨.src true, b, .b⟩], pfx := x.pfx, dagger := none, ddagger := false, noXb := false, lk := none, lk15 := false, valOk := true, lit := x.lit }
  | .aadd x d a b => some { major := 0x1, flds := [⟨.dst 2 false, d, .d⟩, ⟨.srcN 2, a, .a⟩, ⟨.src true, b, .b⟩], pfx := x.pfx, dagger := none, ddagger := false, noXb := false, lk := none, lk15 := false, valOk := true, lit := x.lit }
  | .icmp x c d a b => some { major := 0x2, flds := [⟨.dst 1 false, d, .d⟩, ⟨.src true, a, .a⟩, ⟨.src true, b, .b⟩], pfx := x.pfx, dagger := none, ddagger := false, noXb := false, lk := none, lk15 := false, valOk := c.toNat < 10, lit := x.lit }
  | .and x d a b => some { major := 0x3, flds := [⟨.dst 1 false, d, .d⟩, ⟨.src true, a, .a⟩, ⟨.src true, b, .b⟩], pfx := x.pfx, dagger := none, ddagger := false, noXb := false, lk := none, lk15 := false, valOk := true, lit := x.lit }
  | .or x d a b => some { major := 0x3, flds := [⟨.dst 1 false, d, .d⟩, ⟨.src true, a, .a⟩, ⟨.src true, b, .b⟩], pfx := x.pfx, dagger := none, ddagger := false, noXb := false, lk := none, lk15 := false, valOk := true, lit := x.lit }
  | .xor x d a b => some { major := 0x3, flds := [⟨.dst 1 false, d, .d⟩, ⟨.src true, a, .a⟩, ⟨.src true, b, .b⟩], pfx := x.pfx, dagger := none, ddagger := false, noXb := false, lk := none, lk15 := false, valOk := true, lit := x.lit }
  | .not x d a => some { major := 0x3, flds := [⟨.dst 1 false, d, .d⟩, ⟨.src true, a, .a⟩], pfx := x.pfx, dagger := none, ddagger := false, noXb := false, lk := none, lk15 := false, valOk := true, lit := x.lit }
  | .andn x d a b => some { major := 0x3, flds := [⟨.dst 1 false, d, .d⟩, ⟨.src true, a, .a⟩, ⟨.src true, b, .b⟩], pfx := x.pfx, dagger := none, ddagger := false, noXb := false, lk := none, lk15 := false, valOk := true, lit := x.lit }
  | .shl x d a b => some { major := 0x3, flds := [⟨.dst 1 false, d, .d⟩, ⟨.src true, a, .a⟩, ⟨.src true, b, .b⟩], pfx := x.pfx, dagger := none, ddagger := false, noXb := false, lk := none, lk15 := false, valOk := true, lit := x.lit }
  | .shr x d a b => some { major := 0x3, flds := [⟨.dst 1 false, d, .d⟩, ⟨.src true, a, .a⟩, ⟨.src true, b, .b⟩], pfx := x.pfx, dagger := none, ddagger := false, noXb := false, lk := none, lk15 := false, valOk := true, lit := x.lit }
  | .sar x d a b => some { major := 0x3, flds := [⟨.dst 1 false, d, .d⟩, ⟨.src true, a, .a⟩, ⟨.src true, b, .b⟩], pfx := x.pfx, dagger := none, ddagger := false, noXb := false, lk := none, lk15 := false, valOk := true, lit := x.lit }
  | .rol x d a b => some { major := 0x3, flds := [⟨.dst 1 false, d, .d⟩, ⟨.src true, a, .a⟩, ⟨.src true, b, .b⟩], pfx := x.pfx, dagger := none, ddagger := false, noXb := false, lk := none, lk15 := false, valOk := true, lit := x.lit }
  | .shf x d a b => some { major := 0x3, flds := [⟨.dst 1 false, d, .d⟩, ⟨.src true, a, .a⟩, ⟨.src true, b, .b⟩], pfx := x.pfx, dagger := some 1, ddagger := false, noXb := false, lk := none, lk15 := false, valOk := true, lit := x.lit }
  | .popc x d a => some { major := 0x4, flds := [⟨.dst 1 false, d, .d⟩, ⟨.src true, a, .a⟩], pfx := x.pfx, dagger := none, ddagger := false, noXb := false, lk := none, lk15 := false, valOk := true, lit := x.lit }
  | .clz x d a => some { major := 0x4, flds := [⟨.dst 1 false, d, .d⟩, ⟨.src true, a, .a⟩], pfx := x.pfx, dagger := none, ddagger := false, noXb := false, lk := none, lk15 := false, valOk := true, lit := x.lit }
  | .ctz x d a => some { major := 0x4, flds := [⟨.dst 1 false, d, .d⟩, ⟨.src true, a, .a⟩], pfx := x.pfx, dagger := none, ddagger := false, noXb := false, lk := none, lk15 := false, valOk := true, lit := x.lit }
  | .brev x d a => some { major := 0x4, flds := [⟨.dst 1 false, d, .d⟩, ⟨.src true, a, .a⟩], pfx := x.pfx, dagger := none, ddagger := false, noXb := false, lk := none, lk15 := false, valOk := true, lit := x.lit }
  | .bfe x d a b => some { major := 0x4, flds := [⟨.dst 1 false, d, .d⟩, ⟨.src true, a, .a⟩, ⟨.src true, b, .b⟩], pfx := x.pfx, dagger := none, ddagger := false, noXb := false, lk := none, lk15 := false, valOk := true, lit := x.lit }
  | .bfi x d a b => some { major := 0x4, flds := [⟨.dst 1 false, d, .d⟩, ⟨.src true, a, .a⟩, ⟨.src true, b, .b⟩], pfx := x.pfx, dagger := some 1, ddagger := false, noXb := false, lk := none, lk15 := false, valOk := true, lit := x.lit }
  | .bytesel x d a b => some { major := 0x4, flds := [⟨.dst 1 false, d, .d⟩, ⟨.src true, a, .a⟩, ⟨.src true, b, .b⟩], pfx := x.pfx, dagger := some 1, ddagger := false, noXb := false, lk := none, lk15 := false, valOk := true, lit := x.lit }
  | .mov x d a => some { major := 0x5, flds := [⟨.dst 1 false, d, .d⟩, ⟨.src true, a, .a⟩], pfx := x.pfx, dagger := none, ddagger := false, noXb := false, lk := none, lk15 := false, valOk := true, lit := x.lit }
  | .s2v d a => some { major := 0x5, flds := [⟨.dst 1 false, d, .d⟩, ⟨.sRegSrc, a, .a⟩], pfx := none, dagger := none, ddagger := false, noXb := false, lk := none, lk15 := false, valOk := true, lit := none }
  | .v2s l d a => some { major := 0x5, flds := [⟨.sRegDst, d, .d⟩, ⟨.src true, a, .a⟩], pfx := none, dagger := none, ddagger := false, noXb := false, lk := none, lk15 := false, valOk := true, lit := l }
  | .idiv x d a b => some { major := 0x6, flds := [⟨.dst 1 false, d, .d⟩, ⟨.src true, a, .a⟩, ⟨.src true, b, .b⟩], pfx := x.pfx, dagger := none, ddagger := false, noXb := false, lk := none, lk15 := false, valOk := true, lit := x.lit }
  | .irem x d a b => some { major := 0x6, flds := [⟨.dst 1 false, d, .d⟩, ⟨.src true, a, .a⟩, ⟨.src true, b, .b⟩], pfx := x.pfx, dagger := none, ddagger := false, noXb := false, lk := none, lk15 := false, valOk := true, lit := x.lit }
  | .movi p d sh _ => some { major := 0x7, flds := [⟨.dst 1 false, d, .d⟩], pfx := p, dagger := none, ddagger := false, noXb := true, lk := none, lk15 := false, valOk := sh.toNat < 32, lit := none }
  | .ldi p d _ => some { major := 0x8, flds := [⟨.dst 1 false, d, .d⟩], pfx := p, dagger := none, ddagger := false, noXb := true, lk := none, lk15 := false, valOk := true, lit := none }
  | .sadd l d a b => some { major := 0x9, flds := [⟨.sDst, d, .d⟩, ⟨.sSrc, a, .a⟩, ⟨.sSrc, b, .b⟩], pfx := none, dagger := none, ddagger := false, noXb := false, lk := none, lk15 := false, valOk := true, lit := l, noExec := true }
  | .ssub l d a b => some { major := 0x9, flds := [⟨.sDst, d, .d⟩, ⟨.sSrc, a, .a⟩, ⟨.sSrc, b, .b⟩], pfx := none, dagger := none, ddagger := false, noXb := false, lk := none, lk15 := false, valOk := true, lit := l, noExec := true }
  | .smul l d a b => some { major := 0x9, flds := [⟨.sDst, d, .d⟩, ⟨.sSrc, a, .a⟩, ⟨.sSrc, b, .b⟩], pfx := none, dagger := none, ddagger := false, noXb := false, lk := none, lk15 := false, valOk := true, lit := l, noExec := true }
  | .sshl l d a b => some { major := 0x9, flds := [⟨.sDst, d, .d⟩, ⟨.sSrc, a, .a⟩, ⟨.sSrc, b, .b⟩], pfx := none, dagger := none, ddagger := false, noXb := false, lk := none, lk15 := false, valOk := true, lit := l, noExec := true }
  | .sshr l d a b => some { major := 0x9, flds := [⟨.sDst, d, .d⟩, ⟨.sSrc, a, .a⟩, ⟨.sSrc, b, .b⟩], pfx := none, dagger := none, ddagger := false, noXb := false, lk := none, lk15 := false, valOk := true, lit := l, noExec := true }
  | .sand l d a b => some { major := 0x9, flds := [⟨.sDst, d, .d⟩, ⟨.sSrc, a, .a⟩, ⟨.sSrc, b, .b⟩], pfx := none, dagger := none, ddagger := false, noXb := false, lk := none, lk15 := false, valOk := true, lit := l, noExec := true }
  | .sor l d a b => some { major := 0x9, flds := [⟨.sDst, d, .d⟩, ⟨.sSrc, a, .a⟩, ⟨.sSrc, b, .b⟩], pfx := none, dagger := none, ddagger := false, noXb := false, lk := none, lk15 := false, valOk := true, lit := l, noExec := true }
  | .sxor l d a b => some { major := 0x9, flds := [⟨.sDst, d, .d⟩, ⟨.sSrc, a, .a⟩, ⟨.sSrc, b, .b⟩], pfx := none, dagger := none, ddagger := false, noXb := false, lk := none, lk15 := false, valOk := true, lit := l, noExec := true }
  | .ssel l d a b => some { major := 0x9, flds := [⟨.sDst, d, .d⟩, ⟨.sSrc, a, .a⟩, ⟨.sSrc, b, .b⟩], pfx := none, dagger := none, ddagger := false, noXb := false, lk := none, lk15 := false, valOk := true, lit := l, noExec := true, also := [sOpndOf d] }
  | .smov l d a => some { major := 0x9, flds := [⟨.sDst, d, .d⟩, ⟨.sSrc, a, .a⟩], pfx := none, dagger := none, ddagger := false, noXb := false, lk := none, lk15 := false, valOk := true, lit := l, noExec := true }
  | .scmp l c d a b => some { major := 0xa, flds := [⟨.sDst, d, .d⟩, ⟨.sSrc, a, .a⟩, ⟨.sSrc, b, .b⟩], pfx := none, dagger := none, ddagger := false, noXb := false, lk := none, lk15 := false, valOk := c.toNat < 10, lit := l, noExec := true }
  | .fadd x d a b => some { major := 0x10, flds := [⟨.dst 1 false, d, .d⟩, ⟨.src true, a, .a⟩, ⟨.src true, b, .b⟩], pfx := x.pfx, dagger := none, ddagger := false, noXb := false, lk := none, lk15 := false, valOk := true, lit := x.lit }
  | .fsub x d a b => some { major := 0x10, flds := [⟨.dst 1 false, d, .d⟩, ⟨.src true, a, .a⟩, ⟨.src true, b, .b⟩], pfx := x.pfx, dagger := none, ddagger := false, noXb := false, lk := none, lk15 := false, valOk := true, lit := x.lit }
  | .fmul x d a b => some { major := 0x10, flds := [⟨.dst 1 false, d, .d⟩, ⟨.src true, a, .a⟩, ⟨.src true, b, .b⟩], pfx := x.pfx, dagger := none, ddagger := false, noXb := false, lk := none, lk15 := false, valOk := true, lit := x.lit }
  | .ffma x d a b => some { major := 0x10, flds := [⟨.dst 1 false, d, .d⟩, ⟨.src true, a, .a⟩, ⟨.src true, b, .b⟩], pfx := x.pfx, dagger := some 1, ddagger := false, noXb := false, lk := none, lk15 := false, valOk := true, lit := x.lit }
  | .fmin x d a b => some { major := 0x10, flds := [⟨.dst 1 false, d, .d⟩, ⟨.src true, a, .a⟩, ⟨.src true, b, .b⟩], pfx := x.pfx, dagger := none, ddagger := false, noXb := false, lk := none, lk15 := false, valOk := true, lit := x.lit }
  | .fmax x d a b => some { major := 0x10, flds := [⟨.dst 1 false, d, .d⟩, ⟨.src true, a, .a⟩, ⟨.src true, b, .b⟩], pfx := x.pfx, dagger := none, ddagger := false, noXb := false, lk := none, lk15 := false, valOk := true, lit := x.lit }
  | .fminNum x d a b => some { major := 0x10, flds := [⟨.dst 1 false, d, .d⟩, ⟨.src true, a, .a⟩, ⟨.src true, b, .b⟩], pfx := x.pfx, dagger := none, ddagger := false, noXb := false, lk := none, lk15 := false, valOk := true, lit := x.lit }
  | .fmaxNum x d a b => some { major := 0x10, flds := [⟨.dst 1 false, d, .d⟩, ⟨.src true, a, .a⟩, ⟨.src true, b, .b⟩], pfx := x.pfx, dagger := none, ddagger := false, noXb := false, lk := none, lk15 := false, valOk := true, lit := x.lit }
  | .fabs x d a => some { major := 0x10, flds := [⟨.dst 1 false, d, .d⟩, ⟨.src true, a, .a⟩], pfx := x.pfx, dagger := none, ddagger := false, noXb := false, lk := none, lk15 := false, valOk := true, lit := x.lit }
  | .fneg x d a => some { major := 0x10, flds := [⟨.dst 1 false, d, .d⟩, ⟨.src true, a, .a⟩], pfx := x.pfx, dagger := none, ddagger := false, noXb := false, lk := none, lk15 := false, valOk := true, lit := x.lit }
  | .frnd x d a => some { major := 0x10, flds := [⟨.dst 1 false, d, .d⟩, ⟨.src true, a, .a⟩], pfx := x.pfx, dagger := none, ddagger := false, noXb := false, lk := none, lk15 := false, valOk := true, lit := x.lit }
  | .fclass x d a => some { major := 0x10, flds := [⟨.dst 1 false, d, .d⟩, ⟨.src true, a, .a⟩], pfx := x.pfx, dagger := none, ddagger := false, noXb := false, lk := none, lk15 := false, valOk := true, lit := x.lit }
  | .fscale x d a b => some { major := 0x10, flds := [⟨.dst 1 false, d, .d⟩, ⟨.src true, a, .a⟩, ⟨.src true, b, .b⟩], pfx := x.pfx, dagger := none, ddagger := false, noXb := false, lk := none, lk15 := false, valOk := true, lit := x.lit }
  | .fcmp x c d a b => some { major := 0x11, flds := [⟨.dst 1 false, d, .d⟩, ⟨.src true, a, .a⟩, ⟨.src true, b, .b⟩], pfx := x.pfx, dagger := none, ddagger := false, noXb := false, lk := none, lk15 := false, valOk := c.toNat < 8, lit := x.lit }
  | .cvtF2i x d a e => some { major := 0x12, flds := [⟨.dst 1 false, d, .d⟩, ⟨.src true, a, .a⟩], pfx := x.pfx, dagger := none, ddagger := false, noXb := false, lk := none, lk15 := false, valOk := e.toNat < 9, lit := x.lit }
  | .cvtI2f x d a e => some { major := 0x12, flds := [⟨.dst 1 false, d, .d⟩, ⟨.src true, a, .a⟩], pfx := x.pfx, dagger := none, ddagger := false, noXb := false, lk := none, lk15 := false, valOk := e.toNat < 9, lit := x.lit }
  | .cvtF2f x d a _ e => some { major := 0x12, flds := [⟨.dst 1 false, d, .d⟩, ⟨.src true, a, .a⟩], pfx := x.pfx, dagger := none, ddagger := false, noXb := false, lk := none, lk15 := false, valOk := e.toNat < 9, lit := x.lit, intoHalf := e.toNat == 3 || e.toNat == 4 }
  | .qnt x d a fmt => some { major := 0x12, flds := [⟨.dst 1 false, d, .d⟩, ⟨.src true, a, .a⟩], pfx := x.pfx, dagger := none, ddagger := false, noXb := false, lk := none, lk15 := false, valOk := 3 ≤ fmt.toNat && fmt.toNat ≤ 11, lit := x.lit }
  | .dqnt x d a fmt => some { major := 0x12, flds := [⟨.dst 1 false, d, .d⟩, ⟨.src true, a, .a⟩], pfx := x.pfx, dagger := none, ddagger := false, noXb := false, lk := none, lk15 := false, valOk := 3 ≤ fmt.toNat && fmt.toNat ≤ 11, lit := x.lit }
  | .mxsc x d a fmt => some { major := 0x12, flds := [⟨.dst 1 false, d, .d⟩, ⟨.src true, a, .a⟩], pfx := x.pfx, dagger := none, ddagger := false, noXb := false, lk := none, lk15 := false, valOk := 12 ≤ fmt.toNat && fmt.toNat ≤ 23, lit := x.lit }
  | .pack x d a b => some { major := 0x12, flds := [⟨.dst 1 false, d, .d⟩, ⟨.src true, a, .a⟩, ⟨.src true, b, .b⟩], pfx := x.pfx, dagger := none, ddagger := false, noXb := false, lk := none, lk15 := false, valOk := true, lit := x.lit }
  | .unpk x d a => some { major := 0x12, flds := [⟨.dst 2 false, d, .d⟩, ⟨.src true, a, .a⟩], pfx := x.pfx, dagger := none, ddagger := false, noXb := false, lk := none, lk15 := false, valOk := true, lit := x.lit }
  | .rng x d a => some { major := 0x12, flds := [⟨.dst 1 false, d, .d⟩, ⟨.uniform true, a, .a⟩], pfx := x.pfx, dagger := none, ddagger := false, noXb := false, lk := none, lk15 := false, valOk := true, lit := x.lit }
  | .flags l d a => some { major := 0x12, flds := [⟨.dst 1 false, d, .d⟩, ⟨.uniform true, a, .a⟩], pfx := none, dagger := none, ddagger := false, noXb := false, lk := none, lk15 := false, valOk := true, lit := l, noExec := true }
  | .rcp p k d a => some { major := 0x13, flds := [⟨.dst 1 true, d, .d⟩, ⟨.src false, a, .a⟩], pfx := p, dagger := none, ddagger := false, noXb := false, lk := some k, lk15 := false, valOk := true, lit := none }
  | .rsq p k d a => some { major := 0x13, flds := [⟨.dst 1 true, d, .d⟩, ⟨.src false, a, .a⟩], pfx := p, dagger := none, ddagger := false, noXb := false, lk := some k, lk15 := false, valOk := true, lit := none }
  | .sqrt p k d a => some { major := 0x13, flds := [⟨.dst 1 true, d, .d⟩, ⟨.src false, a, .a⟩], pfx := p, dagger := none, ddagger := false, noXb := false, lk := some k, lk15 := false, valOk := true, lit := none }
  | .ex2 p k d a => some { major := 0x13, flds := [⟨.dst 1 true, d, .d⟩, ⟨.src false, a, .a⟩], pfx := p, dagger := none, ddagger := false, noXb := false, lk := some k, lk15 := false, valOk := true, lit := none }
  | .lg2 p k d a => some { major := 0x13, flds := [⟨.dst 1 true, d, .d⟩, ⟨.src false, a, .a⟩], pfx := p, dagger := none, ddagger := false, noXb := false, lk := some k, lk15 := false, valOk := true, lit := none }
  | .sinpi p k d a => some { major := 0x13, flds := [⟨.dst 1 true, d, .d⟩, ⟨.src false, a, .a⟩], pfx := p, dagger := none, ddagger := false, noXb := false, lk := some k, lk15 := false, valOk := true, lit := none }
  | .cospi p k d a => some { major := 0x13, flds := [⟨.dst 1 true, d, .d⟩, ⟨.src false, a, .a⟩], pfx := p, dagger := none, ddagger := false, noXb := false, lk := some k, lk15 := false, valOk := true, lit := none }
  | .tanh p k d a => some { major := 0x13, flds := [⟨.dst 1 true, d, .d⟩, ⟨.src false, a, .a⟩], pfx := p, dagger := none, ddagger := false, noXb := false, lk := some k, lk15 := false, valOk := true, lit := none }
  | .sigm p k d a => some { major := 0x13, flds := [⟨.dst 1 true, d, .d⟩, ⟨.src false, a, .a⟩], pfx := p, dagger := none, ddagger := false, noXb := false, lk := some k, lk15 := false, valOk := true, lit := none }
  | .lreadAt x d a b => some { major := 0x14, flds := [⟨.dst 1 false, d, .d⟩, ⟨.src true, a, .a⟩, ⟨.src true, b, .b⟩], pfx := x.pfx, dagger := none, ddagger := false, noXb := false, lk := none, lk15 := false, valOk := true, lit := x.lit, far := some .at_ }
  | .lreadBack x d a b => some { major := 0x14, flds := [⟨.dst 1 false, d, .d⟩, ⟨.src true, a, .a⟩, ⟨.src true, b, .b⟩], pfx := x.pfx, dagger := none, ddagger := false, noXb := false, lk := none, lk15 := false, valOk := true, lit := x.lit, far := some .back }
  | .lreadFwd x d a b => some { major := 0x14, flds := [⟨.dst 1 false, d, .d⟩, ⟨.src true, a, .a⟩, ⟨.src true, b, .b⟩], pfx := x.pfx, dagger := none, ddagger := false, noXb := false, lk := none, lk15 := false, valOk := true, lit := x.lit, far := some .fwd }
  | .lreadFlip x d a b => some { major := 0x14, flds := [⟨.dst 1 false, d, .d⟩, ⟨.src true, a, .a⟩, ⟨.src true, b, .b⟩], pfx := x.pfx, dagger := none, ddagger := false, noXb := false, lk := none, lk15 := false, valOk := true, lit := x.lit, far := some .flip }
  | .bcast x d a b => some { major := 0x14, flds := [⟨.dst 1 false, d, .d⟩, ⟨.src true, a, .a⟩, ⟨.uniform true, b, .b⟩], pfx := x.pfx, dagger := none, ddagger := false, noXb := false, lk := none, lk15 := false, valOk := true, lit := x.lit, far := some .at_ }
  | .voteAny x d a => some { major := 0x14, flds := [⟨.laneOrTriple false, d, .d⟩, ⟨.src true, a, .a⟩], pfx := x.pfx, dagger := none, ddagger := true, noXb := false, lk := none, lk15 := false, valOk := true, lit := x.lit }
  | .voteAll x d a => some { major := 0x14, flds := [⟨.laneOrTriple false, d, .d⟩, ⟨.src true, a, .a⟩], pfx := x.pfx, dagger := none, ddagger := true, noXb := false, lk := none, lk15 := false, valOk := true, lit := x.lit }
  | .voteBal x d a b => some { major := 0x14, flds := [⟨.dst 1 false, d, .d⟩, ⟨.src true, a, .a⟩, ⟨.uniform true, b, .b⟩], pfx := x.pfx, dagger := none, ddagger := false, noXb := false, lk := none, lk15 := false, valOk := true, lit := x.lit }
  | .lane d => some { major := 0x14, flds := [⟨.dst 1 false, d, .d⟩], pfx := none, dagger := none, ddagger := false, noXb := false, lk := none, lk15 := false, valOk := true, lit := none }
  | .grpid d => some { major := 0x14, flds := [⟨.dst 1 false, d, .d⟩], pfx := none, dagger := none, ddagger := false, noXb := false, lk := none, lk15 := false, valOk := true, lit := none }
  | .getw d => some { major := 0x14, flds := [⟨.dst 1 false, d, .d⟩], pfx := none, dagger := none, ddagger := false, noXb := false, lk := none, lk15 := false, valOk := true, lit := none }
  | .setw l a => some { major := 0x14, flds := [⟨.uniform false, a, .a⟩], pfx := none, dagger := none, ddagger := false, noXb := false, lk := none, lk15 := false, valOk := true, lit := l, noExec := true }
  | .matchLanes p k d a => some { major := 0x15, flds := [⟨.laneOrTriple true, d, .d⟩, ⟨.src false, a, .a⟩], pfx := p, dagger := none, ddagger := true, noXb := false, lk := some k, lk15 := false, valOk := true, lit := none }
  | .redAdd p k d a => some { major := 0x16, flds := [⟨.dst 1 true, d, .d⟩, ⟨.src false, a, .a⟩], pfx := p, dagger := none, ddagger := false, noXb := false, lk := some k, lk15 := false, valOk := true, lit := none }
  | .redMin p k d a => some { major := 0x16, flds := [⟨.dst 1 true, d, .d⟩, ⟨.src false, a, .a⟩], pfx := p, dagger := none, ddagger := false, noXb := false, lk := some k, lk15 := false, valOk := true, lit := none }
  | .redMax p k d a => some { major := 0x16, flds := [⟨.dst 1 true, d, .d⟩, ⟨.src false, a, .a⟩], pfx := p, dagger := none, ddagger := false, noXb := false, lk := some k, lk15 := false, valOk := true, lit := none }
  | .redBitAnd p k d a => some { major := 0x16, flds := [⟨.dst 1 true, d, .d⟩, ⟨.src false, a, .a⟩], pfx := p, dagger := none, ddagger := false, noXb := false, lk := some k, lk15 := false, valOk := true, lit := none }
  | .redBitOr p k d a => some { major := 0x16, flds := [⟨.dst 1 true, d, .d⟩, ⟨.src false, a, .a⟩], pfx := p, dagger := none, ddagger := false, noXb := false, lk := some k, lk15 := false, valOk := true, lit := none }
  | .redBitXor p k d a => some { major := 0x16, flds := [⟨.dst 1 true, d, .d⟩, ⟨.src false, a, .a⟩], pfx := p, dagger := none, ddagger := false, noXb := false, lk := some k, lk15 := false, valOk := true, lit := none }
  | .scanAdd p k d a => some { major := 0x16, flds := [⟨.dst 1 true, d, .d⟩, ⟨.src false, a, .a⟩], pfx := p, dagger := none, ddagger := false, noXb := false, lk := some k, lk15 := false, valOk := true, lit := none }
  | .scanMax p k d a => some { major := 0x16, flds := [⟨.dst 1 true, d, .d⟩, ⟨.src false, a, .a⟩], pfx := p, dagger := none, ddagger := false, noXb := false, lk := some k, lk15 := false, valOk := true, lit := none }
  | .csamp p k d a => some { major := 0x16, flds := [⟨.dst 1 true, d, .d⟩, ⟨.src false, a, .a⟩], pfx := p, dagger := none, ddagger := false, noXb := false, lk := some k, lk15 := false, valOk := true, lit := none }
  | .bra c _ => some { major := 0x20, flds := [], pfx := none, dagger := none, ddagger := false, noXb := false, lk := none, lk15 := false, valOk := c.toNat < 9, lit := none, cond := c.toNat, branch := true }
  | .brx c _ => some { major := 0x21, flds := [], pfx := none, dagger := none, ddagger := false, noXb := false, lk := none, lk15 := false, valOk := c.toNat < 9, lit := none, cond := c.toNat, branch := true }
  | .brz c _ => some { major := 0x22, flds := [], pfx := none, dagger := none, ddagger := false, noXb := false, lk := none, lk15 := false, valOk := c.toNat < 9, lit := none, cond := c.toNat, branch := true }
  | .join _ => some { major := 0x23, flds := [], pfx := none, dagger := none, ddagger := false, noXb := false, lk := none, lk15 := false, valOk := true, lit := none, noExec := true, branch := true }
  | .leave n => some { major := 0x24, flds := [], pfx := none, dagger := none, ddagger := false, noXb := false, lk := none, lk15 := false, valOk := n.toNat != 0, lit := none, branch := true }
  | .cont _ => some { major := 0x25, flds := [], pfx := none, dagger := none, ddagger := false, noXb := false, lk := none, lk15 := false, valOk := true, lit := none, branch := true }
  | .call _ => some { major := 0x26, flds := [], pfx := none, dagger := none, ddagger := false, noXb := false, lk := none, lk15 := false, valOk := true, lit := none, branch := true }
  | .calli a => some { major := 0x27, flds := [⟨.vOnly 2, a, .a⟩], pfx := none, dagger := none, ddagger := false, noXb := false, lk := none, lk15 := false, valOk := true, lit := none, branch := true }
  | .ret => some { major := 0x27, flds := [], pfx := none, dagger := none, ddagger := false, noXb := false, lk := none, lk15 := false, valOk := true, lit := none, branch := true }
  | .yield => some { major := 0x27, flds := [], pfx := none, dagger := none, ddagger := false, noXb := false, lk := none, lk15 := false, valOk := true, lit := none, noExec := true }
  | .exit l a b => some { major := 0x27, flds := [⟨.uniform true, a, .a⟩, ⟨.uniform true, b, .b⟩], pfx := none, dagger := none, ddagger := false, noXb := false, lk := none, lk15 := false, valOk := true, lit := l, branch := true }
  | .nop => some { major := 0x27, flds := [], pfx := none, dagger := none, ddagger := false, noXb := false, lk := none, lk15 := false, valOk := true, lit := none, noExec := true }
  | .mand d a b => some { major := 0x28, flds := [⟨.tripleDst, d, .d⟩, ⟨.tripleSrc, a, .a⟩, ⟨.tripleSrc, b, .b⟩], pfx := none, dagger := none, ddagger := false, noXb := false, lk := none, lk15 := false, valOk := true, lit := none, noExec := true }
  | .mor d a b => some { major := 0x28, flds := [⟨.tripleDst, d, .d⟩, ⟨.tripleSrc, a, .a⟩, ⟨.tripleSrc, b, .b⟩], pfx := none, dagger := none, ddagger := false, noXb := false, lk := none, lk15 := false, valOk := true, lit := none, noExec := true }
  | .mxor d a b => some { major := 0x28, flds := [⟨.tripleDst, d, .d⟩, ⟨.tripleSrc, a, .a⟩, ⟨.tripleSrc, b, .b⟩], pfx := none, dagger := none, ddagger := false, noXb := false, lk := none, lk15 := false, valOk := true, lit := none, noExec := true }
  | .mnot d a => some { major := 0x28, flds := [⟨.tripleDst, d, .d⟩, ⟨.tripleSrc, a, .a⟩], pfx := none, dagger := none, ddagger := false, noXb := false, lk := none, lk15 := false, valOk := true, lit := none, noExec := true }
  | .mandn d a b => some { major := 0x28, flds := [⟨.tripleDst, d, .d⟩, ⟨.tripleSrc, a, .a⟩, ⟨.tripleSrc, b, .b⟩], pfx := none, dagger := none, ddagger := false, noXb := false, lk := none, lk15 := false, valOk := true, lit := none, noExec := true }
  | .mpop d a => some { major := 0x28, flds := [⟨.sRegDst, d, .d⟩, ⟨.tripleSrc, a, .a⟩], pfx := none, dagger := none, ddagger := false, noXb := false, lk := none, lk15 := false, valOk := true, lit := none, noExec := true }
  | .mffs d a => some { major := 0x28, flds := [⟨.sRegDst, d, .d⟩, ⟨.tripleSrc, a, .a⟩], pfx := none, dagger := none, ddagger := false, noXb := false, lk := none, lk15 := false, valOk := true, lit := none, noExec := true }
  | .mcur d => some { major := 0x28, flds := [⟨.tripleDst, d, .d⟩], pfx := none, dagger := none, ddagger := false, noXb := false, lk := none, lk15 := false, valOk := true, lit := none, noExec := true }
  | .mspill d a => some { major := 0x28, flds := [⟨.dst 1 false, d, .d⟩, ⟨.tripleSrc, a, .a⟩], pfx := none, dagger := none, ddagger := false, noXb := false, lk := none, lk15 := false, valOk := true, lit := none }
  | .mfill l d a => some { major := 0x28, flds := [⟨.tripleDst, d, .d⟩, ⟨.src true, a, .a⟩], pfx := none, dagger := none, ddagger := false, noXb := false, lk := none, lk15 := false, valOk := true, lit := l, also := tripleRegs d }
  | .setmode l m a imm => some { major := 0x29, flds := [⟨.modeSrc, a, .a⟩], pfx := none, dagger := none, ddagger := false, noXb := true, lk := none, lk15 := false, valOk := setmodeOk m a imm l, lit := l, noExec := true }
  | .getmode d => some { major := 0x2a, flds := [⟨.dst 1 false, d, .d⟩], pfx := none, dagger := none, ddagger := false, noXb := false, lk := none, lk15 := false, valOk := true, lit := none }
  | .bar _ => some { major := 0x2a, flds := [], pfx := none, dagger := none, ddagger := false, noXb := false, lk := none, lk15 := false, valOk := true, lit := none, noExec := true }
  | .barTask _ => some { major := 0x2a, flds := [], pfx := none, dagger := none, ddagger := false, noXb := false, lk := none, lk15 := false, valOk := true, lit := none, noExec := true }
  | .bara d _ => some { major := 0x2a, flds := [⟨.dst 1 false, d, .d⟩], pfx := none, dagger := none, ddagger := false, noXb := false, lk := none, lk15 := false, valOk := true, lit := none, noExec := true }
  | .barw l a _ => some { major := 0x2a, flds := [⟨.uniform true, a, .a⟩], pfx := none, dagger := none, ddagger := false, noXb := false, lk := none, lk15 := false, valOk := true, lit := l, noExec := true }
  | .barc l a _ => some { major := 0x2a, flds := [⟨.uniform true, a, .a⟩], pfx := none, dagger := none, ddagger := false, noXb := false, lk := none, lk15 := false, valOk := true, lit := l, noExec := true }
  | .role d => some { major := 0x2a, flds := [⟨.dst 1 false, d, .d⟩], pfx := none, dagger := none, ddagger := false, noXb := false, lk := none, lk15 := false, valOk := true, lit := none }
  | .teamid d => some { major := 0x2a, flds := [⟨.dst 1 false, d, .d⟩], pfx := none, dagger := none, ddagger := false, noXb := false, lk := none, lk15 := false, valOk := true, lit := none }
  | .nteam d => some { major := 0x2a, flds := [⟨.dst 1 false, d, .d⟩], pfx := none, dagger := none, ddagger := false, noXb := false, lk := none, lk15 := false, valOk := true, lit := none }
  | .gridid d => some { major := 0x2a, flds := [⟨.dst 1 false, d, .d⟩], pfx := none, dagger := none, ddagger := false, noXb := false, lk := none, lk15 := false, valOk := true, lit := none }
  | .lclk d _ => some { major := 0x2a, flds := [⟨.dst 1 false, d, .d⟩], pfx := none, dagger := none, ddagger := false, noXb := false, lk := none, lk15 := false, valOk := true, lit := none }
  | .taskend => some { major := 0x2a, flds := [], pfx := none, dagger := none, ddagger := false, noXb := false, lk := none, lk15 := false, valOk := true, lit := none, noExec := true }
  | .safept => some { major := 0x2a, flds := [], pfx := none, dagger := none, ddagger := false, noXb := false, lk := none, lk15 := false, valOk := true, lit := none, noExec := true }
  | .ecard l k _ _ a b => some { major := 0x2b, flds := [⟨.src false, a, .a⟩, ⟨.uniform true, b, .b⟩], pfx := none, dagger := none, ddagger := false, noXb := false, lk := some k, lk15 := true, valOk := true, lit := l }
  | .etail l _ a => some { major := 0x2c, flds := [⟨.uniform true, a, .a⟩], pfx := none, dagger := none, ddagger := false, noXb := false, lk := none, lk15 := false, valOk := true, lit := l, noExec := true }
  | .eseq d sel _ => some { major := 0x2c, flds := [⟨.dst 2 false, d, .d⟩], pfx := none, dagger := none, ddagger := false, noXb := false, lk := none, lk15 := false, valOk := sel.toNat < 3, lit := none }
  | .ewait l a _ => some { major := 0x2c, flds := [⟨.uniform true, a, .a⟩], pfx := none, dagger := none, ddagger := false, noXb := false, lk := none, lk15 := false, valOk := true, lit := l, noExec := true }
  | .graph l a b => some { major := 0x2c, flds := [⟨.uniform true, a, .a⟩, ⟨.uniform true, b, .b⟩], pfx := none, dagger := none, ddagger := false, noXb := false, lk := none, lk15 := false, valOk := true, lit := l, noExec := true }
  | .gcond l a b => some { major := 0x2c, flds := [⟨.uniform true, a, .a⟩, ⟨.uniform true, b, .b⟩], pfx := none, dagger := none, ddagger := false, noXb := false, lk := none, lk15 := false, valOk := true, lit := l, noExec := true }
  | .ldmb k t a _ fmt => some { major := 0x2d, flds := [⟨.vOnly 1, t, .d⟩, ⟨.vOnly 2, a, .a⟩], pfx := none, dagger := none, ddagger := false, noXb := true, lk := some k, lk15 := true, valOk := fmt.toNat != 0, lit := none }
  | .mstart l k _ a b => some { major := 0x2e, flds := [⟨.vOnly 1, a, .a⟩, ⟨.uniform true, b, .b⟩], pfx := none, dagger := none, ddagger := false, noXb := false, lk := some k, lk15 := false, valOk := true, lit := l, noExec := true }
  | .maccRd l d a => some { major := 0x2f, flds := [⟨.dst 1 false, d, .d⟩, ⟨.src true, a, .a⟩], pfx := none, dagger := none, ddagger := false, noXb := false, lk := none, lk15 := false, valOk := true, lit := l }
  | .maccWr l a b => some { major := 0x2f, flds := [⟨.src true, a, .a⟩, ⟨.src true, b, .b⟩], pfx := none, dagger := none, ddagger := false, noXb := false, lk := none, lk15 := false, valOk := true, lit := l }
  | .trap _ => some { major := 0x30, flds := [], pfx := none, dagger := none, ddagger := false, noXb := false, lk := none, lk15 := false, valOk := true, lit := none, noExec := true }
  | .eret => some { major := 0x30, flds := [], pfx := none, dagger := none, ddagger := false, noXb := false, lk := none, lk15 := false, valOk := true, lit := none, noExec := true }
  | .emret _ => some { major := 0x30, flds := [], pfx := none, dagger := none, ddagger := false, noXb := false, lk := none, lk15 := false, valOk := true, lit := none, noExec := true }
  | .wrd d _ _ => some { major := 0x30, flds := [⟨.dst 1 false, d, .d⟩], pfx := none, dagger := none, ddagger := false, noXb := false, lk := none, lk15 := false, valOk := true, lit := none }
  | .wwr l a _ _ => some { major := 0x30, flds := [⟨.src true, a, .a⟩], pfx := none, dagger := none, ddagger := false, noXb := false, lk := none, lk15 := false, valOk := true, lit := l }
  | .winfo d _ => some { major := 0x30, flds := [⟨.dst 1 false, d, .d⟩], pfx := none, dagger := none, ddagger := false, noXb := false, lk := none, lk15 := false, valOk := true, lit := none }
  | .csrr d n => some { major := 0x30, flds := [⟨.dst 1 false, d, .d⟩], pfx := none, dagger := none, ddagger := false, noXb := false, lk := none, lk15 := false, valOk := csrKnown n, lit := none }
  | .csrw l a n => some { major := 0x30, flds := [⟨.uniform true, a, .a⟩], pfx := none, dagger := none, ddagger := false, noXb := false, lk := none, lk15 := false, valOk := csrKnown n, lit := l, noExec := true }
  | .segld a _ => some { major := 0x30, flds := [⟨.vOnly 4, a, .a⟩], pfx := none, dagger := none, ddagger := false, noXb := false, lk := none, lk15 := false, valOk := true, lit := none }
  | .tlbinv => some { major := 0x30, flds := [], pfx := none, dagger := none, ddagger := false, noXb := false, lk := none, lk15 := false, valOk := true, lit := none, noExec := true }
  | .tlbinvVa a => some { major := 0x30, flds := [⟨.vOnly 2, a, .a⟩], pfx := none, dagger := none, ddagger := false, noXb := false, lk := none, lk15 := false, valOk := true, lit := none }
  | .dbgbrk _ => some { major := 0x30, flds := [], pfx := none, dagger := none, ddagger := false, noXb := false, lk := none, lk15 := false, valOk := true, lit := none, noExec := true }
  | .halt => some { major := 0x30, flds := [], pfx := none, dagger := none, ddagger := false, noXb := false, lk := none, lk15 := false, valOk := true, lit := none, noExec := true }
  | .ldGB p k t a _ => some { major := 0x38, flds := [⟨.dst 1 true, t, .d⟩, ⟨.srcN 2, a, .a⟩], pfx := p, dagger := none, ddagger := false, noXb := true, lk := some k, lk15 := true, valOk := true, lit := none }
  | .ldGH p k t a _ => some { major := 0x39, flds := [⟨.dst 1 true, t, .d⟩, ⟨.srcN 2, a, .a⟩], pfx := p, dagger := none, ddagger := false, noXb := true, lk := some k, lk15 := true, valOk := true, lit := none }
  | .ldGW p k t a _ => some { major := 0x3a, flds := [⟨.dst 1 true, t, .d⟩, ⟨.srcN 2, a, .a⟩], pfx := p, dagger := none, ddagger := false, noXb := true, lk := some k, lk15 := true, valOk := true, lit := none }
  | .ldGD p k t a _ => some { major := 0x3b, flds := [⟨.dst 2 true, t, .d⟩, ⟨.srcN 2, a, .a⟩], pfx := p, dagger := none, ddagger := false, noXb := true, lk := some k, lk15 := true, valOk := true, lit := none }
  | .ldGQ p k t a _ => some { major := 0x3c, flds := [⟨.dst 4 true, t, .d⟩, ⟨.srcN 2, a, .a⟩], pfx := p, dagger := none, ddagger := false, noXb := true, lk := some k, lk15 := true, valOk := true, lit := none }
  | .ldSB p k t a _ => some { major := 0x3d, flds := [⟨.dst 1 true, t, .d⟩, ⟨.srcN 2, a, .a⟩], pfx := p, dagger := none, ddagger := false, noXb := true, lk := some k, lk15 := true, valOk := true, lit := none }
  | .ldSH p k t a _ => some { major := 0x3e, flds := [⟨.dst 1 true, t, .d⟩, ⟨.srcN 2, a, .a⟩], pfx := p, dagger := none, ddagger := false, noXb := true, lk := some k, lk15 := true, valOk := true, lit := none }
  | .ldSW p k t a _ => some { major := 0x3f, flds := [⟨.dst 1 true, t, .d⟩, ⟨.srcN 2, a, .a⟩], pfx := p, dagger := none, ddagger := false, noXb := true, lk := some k, lk15 := true, valOk := true, lit := none }
  | .ldSD p k t a _ => some { major := 0x40, flds := [⟨.dst 2 true, t, .d⟩, ⟨.srcN 2, a, .a⟩], pfx := p, dagger := none, ddagger := false, noXb := true, lk := some k, lk15 := true, valOk := true, lit := none }
  | .ldSQ p k t a _ => some { major := 0x41, flds := [⟨.dst 4 true, t, .d⟩, ⟨.srcN 2, a, .a⟩], pfx := p, dagger := none, ddagger := false, noXb := true, lk := some k, lk15 := true, valOk := true, lit := none }
  | .ldCB p k t a _ => some { major := 0x42, flds := [⟨.dst 1 true, t, .d⟩, ⟨.srcN 2, a, .a⟩], pfx := p, dagger := none, ddagger := false, noXb := true, lk := some k, lk15 := true, valOk := true, lit := none }
  | .ldCH p k t a _ => some { major := 0x43, flds := [⟨.dst 1 true, t, .d⟩, ⟨.srcN 2, a, .a⟩], pfx := p, dagger := none, ddagger := false, noXb := true, lk := some k, lk15 := true, valOk := true, lit := none }
  | .ldCW p k t a _ => some { major := 0x44, flds := [⟨.dst 1 true, t, .d⟩, ⟨.srcN 2, a, .a⟩], pfx := p, dagger := none, ddagger := false, noXb := true, lk := some k, lk15 := true, valOk := true, lit := none }
  | .ldCD p k t a _ => some { major := 0x45, flds := [⟨.dst 2 true, t, .d⟩, ⟨.srcN 2, a, .a⟩], pfx := p, dagger := none, ddagger := false, noXb := true, lk := some k, lk15 := true, valOk := true, lit := none }
  | .ldCQ p k t a _ => some { major := 0x46, flds := [⟨.dst 4 true, t, .d⟩, ⟨.srcN 2, a, .a⟩], pfx := p, dagger := none, ddagger := false, noXb := true, lk := some k, lk15 := true, valOk := true, lit := none }
  | .ldLB p k t a _ => some { major := 0x47, flds := [⟨.dst 1 true, t, .d⟩, ⟨.srcN 2, a, .a⟩], pfx := p, dagger := none, ddagger := false, noXb := true, lk := some k, lk15 := true, valOk := true, lit := none }
  | .ldLH p k t a _ => some { major := 0x48, flds := [⟨.dst 1 true, t, .d⟩, ⟨.srcN 2, a, .a⟩], pfx := p, dagger := none, ddagger := false, noXb := true, lk := some k, lk15 := true, valOk := true, lit := none }
  | .ldLW p k t a _ => some { major := 0x49, flds := [⟨.dst 1 true, t, .d⟩, ⟨.srcN 2, a, .a⟩], pfx := p, dagger := none, ddagger := false, noXb := true, lk := some k, lk15 := true, valOk := true, lit := none }
  | .ldLD p k t a _ => some { major := 0x4a, flds := [⟨.dst 2 true, t, .d⟩, ⟨.srcN 2, a, .a⟩], pfx := p, dagger := none, ddagger := false, noXb := true, lk := some k, lk15 := true, valOk := true, lit := none }
  | .ldLQ p k t a _ => some { major := 0x4b, flds := [⟨.dst 4 true, t, .d⟩, ⟨.srcN 2, a, .a⟩], pfx := p, dagger := none, ddagger := false, noXb := true, lk := some k, lk15 := true, valOk := true, lit := none }
  | .stGB p k t a _ => some { major := 0x4c, flds := [⟨.stData 1, t, .d⟩, ⟨.srcN 2, a, .a⟩], pfx := p, dagger := none, ddagger := false, noXb := true, lk := some k, lk15 := true, valOk := true, lit := none }
  | .stGH p k t a _ => some { major := 0x4d, flds := [⟨.stData 1, t, .d⟩, ⟨.srcN 2, a, .a⟩], pfx := p, dagger := none, ddagger := false, noXb := true, lk := some k, lk15 := true, valOk := true, lit := none }
  | .stGW p k t a _ => some { major := 0x4e, flds := [⟨.stData 1, t, .d⟩, ⟨.srcN 2, a, .a⟩], pfx := p, dagger := none, ddagger := false, noXb := true, lk := some k, lk15 := true, valOk := true, lit := none }
  | .stGD p k t a _ => some { major := 0x4f, flds := [⟨.stData 2, t, .d⟩, ⟨.srcN 2, a, .a⟩], pfx := p, dagger := none, ddagger := false, noXb := true, lk := some k, lk15 := true, valOk := true, lit := none }
  | .stGQ p k t a _ => some { major := 0x50, flds := [⟨.stData 4, t, .d⟩, ⟨.srcN 2, a, .a⟩], pfx := p, dagger := none, ddagger := false, noXb := true, lk := some k, lk15 := true, valOk := true, lit := none }
  | .stSB p k t a _ => some { major := 0x51, flds := [⟨.stData 1, t, .d⟩, ⟨.srcN 2, a, .a⟩], pfx := p, dagger := none, ddagger := false, noXb := true, lk := some k, lk15 := true, valOk := true, lit := none }
  | .stSH p k t a _ => some { major := 0x52, flds := [⟨.stData 1, t, .d⟩, ⟨.srcN 2, a, .a⟩], pfx := p, dagger := none, ddagger := false, noXb := true, lk := some k, lk15 := true, valOk := true, lit := none }
  | .stSW p k t a _ => some { major := 0x53, flds := [⟨.stData 1, t, .d⟩, ⟨.srcN 2, a, .a⟩], pfx := p, dagger := none, ddagger := false, noXb := true, lk := some k, lk15 := true, valOk := true, lit := none }
  | .stSD p k t a _ => some { major := 0x54, flds := [⟨.stData 2, t, .d⟩, ⟨.srcN 2, a, .a⟩], pfx := p, dagger := none, ddagger := false, noXb := true, lk := some k, lk15 := true, valOk := true, lit := none }
  | .stSQ p k t a _ => some { major := 0x55, flds := [⟨.stData 4, t, .d⟩, ⟨.srcN 2, a, .a⟩], pfx := p, dagger := none, ddagger := false, noXb := true, lk := some k, lk15 := true, valOk := true, lit := none }
  | .stLB p k t a _ => some { major := 0x56, flds := [⟨.stData 1, t, .d⟩, ⟨.srcN 2, a, .a⟩], pfx := p, dagger := none, ddagger := false, noXb := true, lk := some k, lk15 := true, valOk := true, lit := none }
  | .stLH p k t a _ => some { major := 0x57, flds := [⟨.stData 1, t, .d⟩, ⟨.srcN 2, a, .a⟩], pfx := p, dagger := none, ddagger := false, noXb := true, lk := some k, lk15 := true, valOk := true, lit := none }
  | .stLW p k t a _ => some { major := 0x58, flds := [⟨.stData 1, t, .d⟩, ⟨.srcN 2, a, .a⟩], pfx := p, dagger := none, ddagger := false, noXb := true, lk := some k, lk15 := true, valOk := true, lit := none }
  | .stLD p k t a _ => some { major := 0x59, flds := [⟨.stData 2, t, .d⟩, ⟨.srcN 2, a, .a⟩], pfx := p, dagger := none, ddagger := false, noXb := true, lk := some k, lk15 := true, valOk := true, lit := none }
  | .stLQ p k t a _ => some { major := 0x5a, flds := [⟨.stData 4, t, .d⟩, ⟨.srcN 2, a, .a⟩], pfx := p, dagger := none, ddagger := false, noXb := true, lk := some k, lk15 := true, valOk := true, lit := none }
  | .ldGAcqW p k t a sc _ => some { major := 0x5b, flds := [⟨.dst 1 true, t, .d⟩, ⟨.srcN 2, a, .a⟩], pfx := p, dagger := none, ddagger := false, noXb := true, lk := some k, lk15 := true, valOk := sc.toNat < 6, lit := none }
  | .ldGAcqD p k t a sc _ => some { major := 0x5c, flds := [⟨.dst 2 true, t, .d⟩, ⟨.srcN 2, a, .a⟩], pfx := p, dagger := none, ddagger := false, noXb := true, lk := some k, lk15 := true, valOk := sc.toNat < 6, lit := none }
  | .ldSAcqW p k t a sc _ => some { major := 0x5d, flds := [⟨.dst 1 true, t, .d⟩, ⟨.srcN 2, a, .a⟩], pfx := p, dagger := none, ddagger := false, noXb := true, lk := some k, lk15 := true, valOk := sc.toNat < 2, lit := none }
  | .ldSAcqD p k t a sc _ => some { major := 0x5e, flds := [⟨.dst 2 true, t, .d⟩, ⟨.srcN 2, a, .a⟩], pfx := p, dagger := none, ddagger := false, noXb := true, lk := some k, lk15 := true, valOk := sc.toNat < 2, lit := none }
  | .stGRelW p k t a sc _ => some { major := 0x5f, flds := [⟨.stData 1, t, .d⟩, ⟨.srcN 2, a, .a⟩], pfx := p, dagger := none, ddagger := false, noXb := true, lk := some k, lk15 := true, valOk := sc.toNat < 6, lit := none }
  | .stGRelD p k t a sc _ => some { major := 0x60, flds := [⟨.stData 2, t, .d⟩, ⟨.srcN 2, a, .a⟩], pfx := p, dagger := none, ddagger := false, noXb := true, lk := some k, lk15 := true, valOk := sc.toNat < 6, lit := none }
  | .stSRelW p k t a sc _ => some { major := 0x61, flds := [⟨.stData 1, t, .d⟩, ⟨.srcN 2, a, .a⟩], pfx := p, dagger := none, ddagger := false, noXb := true, lk := some k, lk15 := true, valOk := sc.toNat < 2, lit := none }
  | .stSRelD p k t a sc _ => some { major := 0x62, flds := [⟨.stData 2, t, .d⟩, ⟨.srcN 2, a, .a⟩], pfx := p, dagger := none, ddagger := false, noXb := true, lk := some k, lk15 := true, valOk := sc.toNat < 2, lit := none }
  | .atomGW p k t a sc op => some { major := 0x63, flds := [⟨.atomT 1 (op.toNat == 7), t, .d⟩, ⟨.srcN 2, a, .a⟩], pfx := p, dagger := none, ddagger := false, noXb := true, lk := some k, lk15 := true, valOk := sc.toNat < 6 && op.toNat < 10, lit := none }
  | .atomGD p k t a sc op => some { major := 0x64, flds := [⟨.atomT 2 (op.toNat == 7), t, .d⟩, ⟨.srcN 2, a, .a⟩], pfx := p, dagger := none, ddagger := false, noXb := true, lk := some k, lk15 := true, valOk := sc.toNat < 6 && op.toNat < 8, lit := none }
  | .atomSW p k t a sc op => some { major := 0x65, flds := [⟨.atomT 1 (op.toNat == 7), t, .d⟩, ⟨.srcN 2, a, .a⟩], pfx := p, dagger := none, ddagger := false, noXb := true, lk := some k, lk15 := true, valOk := sc.toNat < 2 && op.toNat < 10, lit := none }
  | .atomSD p k t a sc op => some { major := 0x66, flds := [⟨.atomT 2 (op.toNat == 7), t, .d⟩, ⟨.srcN 2, a, .a⟩], pfx := p, dagger := none, ddagger := false, noXb := true, lk := some k, lk15 := true, valOk := sc.toNat < 2 && op.toNat < 8, lit := none }
  | .redmGW p k t a sc op => some { major := 0x67, flds := [⟨.stData 1, t, .d⟩, ⟨.srcN 2, a, .a⟩], pfx := p, dagger := none, ddagger := false, noXb := true, lk := some k, lk15 := true, valOk := sc.toNat < 6 && op.toNat != 6 && op.toNat != 7 && op.toNat < 10, lit := none }
  | .redmGD p k t a sc op => some { major := 0x68, flds := [⟨.stData 2, t, .d⟩, ⟨.srcN 2, a, .a⟩], pfx := p, dagger := none, ddagger := false, noXb := true, lk := some k, lk15 := true, valOk := sc.toNat < 6 && op.toNat != 6 && op.toNat != 7 && op.toNat < 6, lit := none }
  | .ldv p k t a g w h => some { major := 0x69, flds := [⟨.dst (vWidthRegs w) true, t, .d⟩, ⟨.srcN 2, a, .a⟩], pfx := p, dagger := none, ddagger := false, noXb := true, lk := some k, lk15 := true, valOk := ldvSegOk g h false, lit := none }
  | .stv p k t a g w h => some { major := 0x6a, flds := [⟨.stData (vWidthRegs w), t, .d⟩, ⟨.srcN 2, a, .a⟩], pfx := p, dagger := none, ddagger := false, noXb := true, lk := some k, lk15 := true, valOk := ldvSegOk g h true, lit := none }
  | .prf k a _ => some { major := 0x6b, flds := [⟨.srcN 2, a, .a⟩], pfx := none, dagger := none, ddagger := false, noXb := true, lk := some k, lk15 := true, valOk := true, lit := none }
  | .cwb k a _ => some { major := 0x6b, flds := [⟨.srcN 2, a, .a⟩], pfx := none, dagger := none, ddagger := false, noXb := true, lk := some k, lk15 := true, valOk := true, lit := none }
  | .cinv k a _ => some { major := 0x6b, flds := [⟨.srcN 2, a, .a⟩], pfx := none, dagger := none, ddagger := false, noXb := true, lk := some k, lk15 := true, valOk := true, lit := none }
  | .waitc l a path => some { major := 0x6c, flds := [⟨.uniform true, a, .a⟩], pfx := none, dagger := none, ddagger := false, noXb := false, lk := none, lk15 := false, valOk := path.toNat < 5, lit := l, noExec := true }
  | .segrd d _ _ => some { major := 0x6c, flds := [⟨.dst 2 false, d, .d⟩], pfx := none, dagger := none, ddagger := false, noXb := false, lk := none, lk15 := false, valOk := true, lit := none }
  | .fence sc => some { major := 0x6c, flds := [], pfx := none, dagger := none, ddagger := false, noXb := false, lk := none, lk15 := false, valOk := sc.toNat < 6, lit := none, noExec := true }
  | _ => none

/-- A default prefix: no field set (R41). -/
def Pfx.zero : Pfx :=
  { gen := false, gsel := 0, mz := false, rndo := 0, eto := 0, op4 := 0, xd := false, xa := false, xb := false,
    mdst := false, xen := false, o4en := false }

/-- The prefix of a form, or the one that changes nothing. -/
def Form.p (f : Form) : Pfx := f.pfx.getD Pfx.zero

/-- The extension bit of a place (R41). -/
def Pfx.ext (p : Pfx) : Pos → Bool
  | .d => p.xd
  | .a => p.xa
  | .b => p.xb

/-- Whether XEN and the extension bits apply to a class (R42): lane register operands. -/
def FClass.isLaneReg (mdst : Bool) : FClass → Bool
  | .dst .. | .src _ | .srcN _ | .vOnly _ | .stData _ | .atomT .. => true
  | .laneOrTriple _ => !mdst
  | _ => false

/-- The operand of a field, by its class (R36, R37, R42). -/
def Form.opnd (f : Form) (x : Fld) : Opnd :=
  match x.cls with
  | .sDst | .sSrc | .sRegDst | .sRegSrc => sOpndOf x.code
  | c => opndX (f.p.xen && c.isLaneReg f.p.mdst) (f.p.ext x.pos) x.code

/-- A V register below the budget and aligned to its span (R38, R118). -/
def vOk (budget n r : Nat) : Bool := r < budget && r % n == 0

/-- The operand rules of R36 to R38 for one field, under a role budget. -/
def Form.fldOk (f : Form) (budget : Nat) (x : Fld) : Bool :=
  match x.cls, f.opnd x with
  | .dst n _, .v r => vOk budget n r
  | .dst n _, .q _ => n == 1
  | .dst n long, .l k => n == 1 && k == 0 && !long
  | .dst .., .zero => true
  | .dst .., _ => false
  | .src _, .v r => vOk budget 1 r
  | .src i, .imm => i
  | .src _, o => o != .bad
  | .srcN n, .v r => vOk budget n r
  | .srcN _, o => o == .zero
  | .vOnly n, .v r => vOk budget n r
  | .vOnly _, _ => false
  | .stData n, .v r => vOk budget n r
  | .stData _, .zero => true
  | .stData n, .q _ => n == 1
  | .stData n, .l k => n == 1 && k == 0
  | .stData n, .s _ => n == 1
  | .stData _, _ => false
  | .atomT n cas, .v r => vOk budget (if cas then 2 * n else n) r
  | .atomT _ cas, .zero => !cas
  | .atomT n cas, .q _ => n == 1 && !cas
  | .atomT .., _ => false
  | .uniform z, .zero => z
  | .uniform _, .s _ => true
  | .uniform _, .imm => true
  | .uniform _, _ => false
  | .sDst, .s _ => true
  | .sDst, o => o == .zero
  | .sSrc, o => o != .bad
  | .sRegDst, .s _ => true
  | .sRegDst, _ => false
  | .sRegSrc, .s _ => true
  | .sRegSrc, _ => false
  | .tripleDst, _ => tripleCode x.code
  | .tripleSrc, o => tripleCode x.code || o == .zero
  | .laneOrTriple long, o =>
    if f.p.mdst then tripleCode x.code
    else match o with
      | .v r => vOk budget 1 r
      | .q _ => true
      | .l k => k == 0 && !long
      | .zero => true
      | _ => false
  | .modeSrc, .zero => true
  | .modeSrc, .imm => true
  | .modeSrc, .s _ => true
  | .modeSrc, _ => false
  | .value, _ => true

/-- The number of fields coded IMMNEXT where the class reads an operand (R38, R39). -/
def Form.immCount (f : Form) : Nat :=
  (f.flds.filter (fun x =>
    match x.cls with
    | .value | .tripleDst | .tripleSrc => false
    | .laneOrTriple _ => !f.p.mdst && f.opnd x == .imm
    | _ => f.opnd x == .imm)).length
  + (if f.p.o4en && opndOf f.p.op4 == .imm then 1 else 0)

/-- Whether the word has a lane destination, so that MZ = 1 is legal (R43). -/
def Form.hasLaneDst (f : Form) : Bool :=
  f.flds.any (fun x => match x.cls with
    | .dst .. | .atomT .. => true
    | .laneOrTriple _ => !f.p.mdst
    | _ => false)

/-- The fourth operand's rules (R38, R43, R126): 64-bit operands are even V registers or ZERO, and IMMNEXT never stands there. -/
def Form.op4Ok (f : Form) (budget : Nat) : Bool :=
  if f.p.o4en then
    match f.dagger with
    | none => false
    | some n =>
      match opndOf f.p.op4 with
      | .v r => vOk budget n r
      | .zero => true
      | .imm => false
      | .bad => false
      | _ => n == 1
  else f.p.op4 == 0

/-- The prefix-field rules of R41 to R43 and R94. -/
def Form.pfxOk (f : Form) : Bool :=
  match f.pfx with
  | none => true
  | some p =>
    (p.gen || p.gsel == 0) && p.rndo != 7 && p.eto.toNat ≤ 9
    && (!p.mz || f.hasLaneDst)
    && (!p.mdst || (f.ddagger && !p.mz && !p.xd))
    && (if p.xen then
          !(f.noXb && p.xb)
          && [Pos.d, Pos.a, Pos.b].all (fun q => !p.ext q || f.flds.any (fun x => x.pos == q && x.cls.isLaneReg p.mdst))
        else !p.xd && !p.xa && !p.xb)

/-- The lookahead is legal (R50, R61). -/
def Form.lkOk (f : Form) : Bool :=
  match f.lk with
  | some k => k != 15 || f.lk15
  | none => true

/-- Every ILLEGAL check that is made at decode, under a role budget (R38, R43, R60). -/
def Form.ok (f : Form) (budget : Nat) : Bool :=
  f.valOk && f.lkOk && f.pfxOk && f.op4Ok budget && f.flds.all (f.fldOk budget) && decide (f.immCount ≤ 1)

/-- A span of V registers: first and count (R123). -/
abbrev Span := Nat × Nat

/-- The V registers an operand of `n` registers covers (R123). -/
def opndSpan (n : Nat) : Opnd → Option Span
  | .v r => some (r, n)
  | _ => none

/-- The destination span (R123); an LDMB block is checked at issue (R314). -/
def Form.dstSpan (f : Form) : Option Span :=
  f.flds.findSome? (fun x => match x.cls with
    | .dst n _ => opndSpan n (f.opnd x)
    | .laneOrTriple _ => if f.p.mdst then none else opndSpan 1 (f.opnd x)
    | .atomT n _ => opndSpan n (f.opnd x)
    | _ => none)

/-- The source spans, the fourth operand among them (R123); an ATOM's own t is no source here (R277). -/
def Form.srcSpans (f : Form) : List Span :=
  f.flds.filterMap (fun x => match x.cls with
    | .src _ => opndSpan 1 (f.opnd x)
    | .srcN n | .vOnly n | .stData n => opndSpan n (f.opnd x)
    | _ => none)
  ++ (match f.dagger with
      | some n => if f.p.o4en then (opndSpan n (opndOf f.p.op4)).toList else f.dstSpan.toList
      | none => [])

/-- Two spans meet. -/
def spansMeet (x y : Span) : Bool := decide (x.1 < y.1 + y.2) && decide (y.1 < x.1 + x.2)

/-- The OVERLAP condition of R123. -/
def Form.overlaps (f : Form) : Bool :=
  match f.dstSpan with
  | some d => decide (1 < d.2) && f.srcSpans.any (fun x => spansMeet x d && x != d)
  | none => false

/-- A register an instruction writes, as R52 compares it: V span, Q register, S span. -/
inductive Target where
  | v (first count : Nat)
  | q (n : Nat)
  | s (first count : Nat)
  deriving DecidableEq, Repr

/-- Two targets overlap (R52). -/
def Target.meets : Target → Target → Bool
  | .v a n, .v b m => spansMeet (a, n) (b, m)
  | .q a, .q b => a == b
  | .s a n, .s b m => spansMeet (a, n) (b, m)
  | _, _ => false

/-- Group-scope state: S registers and mask triples (R52). -/
def Target.groupScope : Target → Bool
  | .s .. => true
  | _ => false

/-- The registers an operand code names as a destination of `n` registers. -/
def opndTarget (n : Nat) : Opnd → List Target
  | .v r => [.v r n]
  | .q r => [.q r]
  | .s r => [.s r 1]
  | _ => []

/-- The registers a word writes (R52). -/
def Form.targets (f : Form) : List Target :=
  f.flds.flatMap (fun x => match x.cls with
    | .dst n _ | .atomT n _ => opndTarget n (f.opnd x)
    | .sDst | .sRegDst => opndTarget 1 (f.opnd x)
    | .tripleDst => [.s x.code.toNat 3]
    | .laneOrTriple _ => if f.p.mdst then [.s x.code.toNat 3] else opndTarget 1 (f.opnd x)
    | _ => [])

/-- The V registers that a word reads, as R210 counts them: the sources of R123, an ATOM's own t among them (R277), but neither an LDMB's
block, which it writes (R314), nor an MSTART's, whose length its group decides (R315). -/
def Form.bankReads (f : Form) : List Span :=
  if f.major = 0x2E then []
  else (if f.major = 0x2D then { f with flds := f.flds.filter (fun x => x.pos != .d) } else f).srcSpans
    ++ f.flds.filterMap (fun x => match x.cls with
        | .atomT n cas => opndSpan (if cas then 2 * n else n) (f.opnd x)
        | _ => none)

/-- The cycles one beat takes to read spans of V registers: the most distinct ones in one bank, at least 1 (R115, R210). -/
def beatCycles (l : List Span) : Nat :=
  let regs := dedupNat (l.flatMap (fun x => (List.range x.2).map (x.1 + ·)))
  (List.range 4).foldl (fun m k => max m (regs.filter (fun r => r % 4 == k)).length) 1

/-- The shared ports of a core (R210). -/
inductive Port where
  | sfu | memory | matrixIssue
  deriving DecidableEq, Repr

/-- The port an instruction needs (R210). -/
def Form.port (f : Form) : Option Port :=
  if f.major = 0x13 then some .sfu
  else if (0x38 ≤ f.major && f.major ≤ 0x6B) || f.major = 0x2D then some .memory
  else if f.major = 0x2E || f.major = 0x2F then some .matrixIssue
  else none

/-- The charge weight of an instruction per lane of EXEC (R215). The table has no row for major 0x6C (WAITC, SEGRD, FENCE) nor for the words
of a reserved major that reach a fate, and gives 0 here to all of them (log 51, DESIGN CHOICE). -/
def Form.weight (f : Form) : Nat :=
  if f.major = 0x2B || f.major = 0x2D || f.major = 0x2E then 1
  else if 0x20 ≤ f.major && f.major ≤ 0x30 then 0
  else if f.major = 0x09 || f.major = 0x0A then 0
  else if 0x01 ≤ f.major && f.major ≤ 0x08 then 1
  else if f.major = 0x13 then 4
  else if 0x10 ≤ f.major && f.major ≤ 0x16 then 2
  else if 0x38 ≤ f.major && f.major ≤ 0x6B then 3
  else 0

/-- The instructions that close lookahead windows (R51). -/
def Instr.closesWindows : Instr → Bool
  | .brx .. | .join .. | .leave .. | .cont .. | .call .. | .calli .. | .ret | .exit .. | .yield
  | .bar .. | .barTask .. | .bara .. | .barw .. | .barc .. | .taskend | .safept | .setw .. | .setmode ..
  | .trap .. | .dbgbrk .. | .eret | .emret .. | .halt => true
  | _ => false

/-- The instructions the logical-clock gate holds back under DET = 1 (R231). -/
def Instr.gated : Instr → Bool
  | .bar .. | .barTask .. | .bara .. | .barw .. | .taskend | .ewait .. => true
  | _ => false

/-- Whether the map marks the cell prefixable (R61). -/
def pfxableCell (major sx : Nat) : Bool :=
  (1 ≤ major && major ≤ 4) || (major == 5 && sx == 0) || (6 ≤ major && major ≤ 8)
  || major == 0x10 || major == 0x11 || (major == 0x12 && sx ≤ 8) || major == 0x13
  || (major == 0x14 && sx ≤ 7) || major == 0x15 || major == 0x16
  || (0x38 ≤ major && major ≤ 0x6A)

/-- The majors whose format is F-R, or that have no format in the map: their words count literals (R449). -/
def countsLiteral (major : Nat) : Bool :=
  !(major == 7 || major == 8 || (0x20 ≤ major && major ≤ 0x26) || major == 0x29 || major == 0x2D
    || (0x38 ≤ major && major ≤ 0x6B) || major == 0x7F)

end Sys2Proof
end

