-- ==== Sys2Proof/Machine/State.lean ====
section
/-!
DEFINITION. The state of the whole device as plain data: the teams with their lanes, groups, fragments, barriers and matrix
streams; the cores, clusters, rails and L2; the engines, cards and graphs; Pilot, the launcher and the Harbourmaster; memory and
the host-visible registers; and the reasons a step can stop. INVENTORY.md lists each piece with its rule.
-/
namespace Sys2Proof.Machine

/-- A V, Q or L register of a lane (R114). -/
inductive LReg where
  | v (n : Nat)
  | q (n : Nat)
  | l (n : Nat)
  deriving DecidableEq, Repr

/-- A bank frame of a lane: the reserve, Q and L registers at entry to the handler (R119, R352). -/
structure Frame where
  /-- V registers by number -/
  v : Cells 32 := []
  q : Cells 32 := []
  l : Cells 32 := []
  /-- those of them that hold an uncorrectable error (R236) -/
  ue : List LReg := []
  deriving DecidableEq, Repr

/-- A lane, held at its lid (R84, R114). -/
structure Lane where
  /-- the role k (R84) -/
  role : Nat
  /-- V0 to V255 (R114) -/
  v : Cells 32 := []
  /-- Q0 to Q15 (R114) -/
  q : Cells 32 := []
  /-- L0 to L3, the last-result file (R122) -/
  l : Cells 32 := []
  /-- registers with an uncorrectable error (R236) -/
  ue : List LReg := []
  /-- bank frames of depths 1 and 2 (R119, R352) -/
  frame1 : Frame := {}
  frame2 : Frame := {}
  /-- result holds of depths 1 and 2 (R354) -/
  hold1 : Word := 0
  hold2 : Word := 0
  /-- X of depths 1 and 2 (R352) -/
  x1 : Bool := false
  x2 : Bool := false
  /-- left by EXIT without a successor (R183) -/
  exited : Bool := false
  deriving DecidableEq, Repr

/-- A join entry (R184); its depth is its place in the chain. -/
structure JEntry where
  /-- the entry's identity within its group: chains are equal exactly when their top entries are the same (R198) -/
  id : Nat
  jaddr : DWord
  key : Nat
  callEnt : Bool
  deriving DecidableEq, Repr

/-- The PARK field of a fragment record (R198). -/
inductive Park where
  | live
  | exitArrived
  | contArrived (target : DWord)
  deriving DecidableEq, Repr

/-- Memory types, in the order of R258. -/
inductive MemType where
  | cached | writeCombine | uncached | device
  deriving DecidableEq, Repr

/-- The place of a block that may cross a page: bytes from `cut` on lie at `pa2`. The pages may differ in type (R259, R282, R344). -/
structure Loc where
  pa : Nat
  cut : Nat
  pa2 : Nat
  mt : MemType := .cached
  mt2 : MemType := .cached
  deriving DecidableEq, Repr

/-- What a fragment waits for (R102). -/
inductive Wait where
  | none
  /-- barrier n until C_n passes the phase (R226) -/
  | barrier (n phase : Nat)
  /-- the task barrier, having arrived at it (R229) -/
  | task
  /-- EWAIT on the chain of a CCB for a completion number (R297) -/
  | ewait (ccb : Loc) (target : Nat)
  /-- the ETAIL at an address, at step 3, for a publication (R290) -/
  | etail (pub : Nat) (addr : DWord)
  /-- WAITC on a path and threshold (R252) -/
  | waitc (path threshold : Nat)
  /-- second arrival at barrier n, whose count was c (R224) -/
  | stall (n c : Nat)
  /-- second arrival at the task barrier in task `k` (R229) -/
  | taskStall (k : Nat)
  deriving DecidableEq, Repr

/-- A pending write of one lane register (R49). -/
structure PWrite where
  lid : Nat
  reg : LReg
  val : Word
  deriving DecidableEq, Repr

/-- An open lookahead window (R49-R54). -/
structure Window where
  /-- the identity of J within its group -/
  id : Nat
  /-- J's address -/
  addr : DWord
  /-- the counter path of J, if it raises one (R244) -/
  path : Option Nat
  /-- window instructions still to come (R54) -/
  remaining : Nat
  /-- lookahead 15 (R50) -/
  lk15 : Bool
  /-- instructions on the path its group issued since J (R246) -/
  younger : Nat
  /-- instructions its fragment issued since J (R53) -/
  issued : Nat
  /-- J's destination (R52) -/
  dst : List Target
  /-- pending per-lane result (R54) -/
  pend : List PWrite
  /-- pending triple result: first register, lids whose bit is 1, lids it covers (R94, R101) -/
  triple : Option (Nat × List Nat × List Nat)
  /-- J has completed -/
  done : Bool
  /-- sticky flags to OR when the result is delivered (R161) -/
  flags : Nat
  /-- its data was poisoned while another trap held its lanes: the lowest such lid, and its address (R53, R341) -/
  ue : Option (Nat × Nat) := none
  /-- the lids it belongs to, where it does not belong to every lane of its fragment (R102, R246) -/
  only : Option (List Nat) := none
  /-- its result goes to every existing lane of the group, not its fragment's alone: an LDMB's (R314) -/
  whole : Bool := false
  deriving DecidableEq, Repr

/-- A jury-rig level of a fragment (R352). -/
structure JrLevel where
  /-- the identity of the entry within its group: the pieces of a fragment that split in the handler share it (R355) -/
  id : Nat := 0
  /-- the emulated instruction has counted on the logical clock, as some piece left (R230, R355) -/
  counted : Bool := false
  /-- W0 to W7 (R353) -/
  w : List Word
  jrpc : DWord
  jrnext : DWord
  /-- windows banked at entry (R54) -/
  wins : List Window
  /-- the wait an entry for a stream word suspended (R357) -/
  wait : Wait
  /-- the emulated word is a stream word (R357) -/
  stream : Bool
  /-- where the fragment itself continues after a stream word (R357) -/
  pc : DWord
  deriving DecidableEq, Repr

/-- A fragment (R183, R198). -/
structure Frag where
  /-- its lanes by LANEIX -/
  mask : Mask
  pc : DWord
  /-- the join chain, top first (R184) -/
  chain : List JEntry := []
  park : Park := .live
  /-- the PC slot it holds (R197) -/
  slot : Option Nat := none
  /-- the slot's issue count (R200) -/
  count : Nat := 0
  wait : Wait := .none
  wins : List Window := []
  /-- jury-rig levels, the current depth first (R352) -/
  jr : List JrLevel := []
  /-- issue once without testing this comparator (R341) -/
  skipCmp : Option Nat := none
  /-- a FRAG word of its records holds an uncorrectable error (R236) -/
  ue : Bool := false
  deriving DecidableEq, Repr

/-- The address spaces of the segments (R239). -/
inductive Space where
  | global | scratch | const | localSp | frag | card
  deriving DecidableEq, Repr

/-- A segment register (R239); SPACE follows from its number (R238). -/
structure Seg where
  base : DWord
  limit : Nat
  deriving DecidableEq, Repr

/-- One lane's (or one chunk's) part of an access in flight (R241, R245). -/
structure Part where
  lid : Nat
  /-- place among the parts of one lane or block -/
  ix : Nat
  /-- in the scratchpad, else in physical memory -/
  scratch : Bool
  va : Nat
  /-- physical address or scratch offset -/
  pa : Nat
  mt : MemType
  /-- the DEVICE pages it touches: number and log2 of the size (R259, R344) -/
  device : List (Nat × Nat) := []
  /-- bytes from this one on lie in the next page, at `pa2`, of type `mt2` -/
  cut : Nat
  pa2 : Nat
  mt2 : MemType := .uncached
  size : Nat
  /-- store data, atomic operand or compare value -/
  data : Nat
  /-- CAS swap value -/
  data2 : Nat
  /-- of a trailing core, where the leading one makes no such request: it reaches no memory, and brings a free value (R388; log 17, DESIGN
  CHOICE) -/
  blind : Bool := false
  deriving DecidableEq, Repr

/-- What an access in flight does when it is performed (R248, R251, R276-R280, R289, R314). -/
inductive OpKind where
  /-- load of `n` registers from `t`, sign-extended where `sx` (R248) -/
  | load (t : Opnd) (n : Nat) (sx : Bool)
  | store (release : Bool) (scope : Nat)
  /-- atomic: operation, element type, returns into `t` of `n` registers (none for REDM) -/
  | atomic (op etype scope : Nat) (ret : Option (Opnd × Nat))
  /-- append of a card line (R289) -/
  | card
  /-- B block load of an image of `size` bytes into V registers from `first`, `n` of them (R314) -/
  | block (first n size : Nat)
  /-- PRF 0, CWB 1, CINV 2 (R251) -/
  | cache (f : Nat)
  deriving DecidableEq, Repr

/-- An instruction in flight on a counter path (R244, R245). -/
structure Op where
  /-- the identity of its window within the group -/
  id : Nat
  path : Nat
  addr : DWord
  kind : OpKind
  /-- parts not yet performed -/
  parts : List Part
  /-- loaded bytes already returned, of a block (R313) -/
  got : Cells 8
  /-- the L2 replacement hint (R250) -/
  hint : Nat
  /-- the MR when it issued (R219) -/
  mr : Word
  /-- lowest lid whose data was poisoned, and its address (R241) -/
  poisoned : Option (Nat × Nat)
  /-- finished, and waiting in line behind an older one of its path (R245) -/
  fin : Bool := false
  deriving DecidableEq, Repr

/-- A group (R85, R260). -/
structure Group where
  role : Nat
  /-- first lid and number of existing lanes (R85) -/
  first : Nat
  count : Nat
  /-- the pipe it is bound to (R208) -/
  pipe : Nat
  /-- S0 to S63 (R114) -/
  s : Cells 32 := []
  /-- S registers with an uncorrectable error (R236) -/
  ue : List Nat := []
  /-- the mode register (R45) -/
  mr : Word := 0
  /-- SG0 to SG7 (R239) -/
  seg : List Seg := []
  /-- sticky flags IV DZ OF UF NX as bits 0 to 4 (R161) -/
  flags : Nat := 0
  /-- accesses in flight, in issue order (R245) -/
  flight : List Op := []
  /-- logical clock (R230) -/
  clock : DWord := 0
  /-- hang count (R202) -/
  hang : Nat := 0
  /-- recorded width request (R96) -/
  widthReq : Option Nat := none
  /-- no load uses an L1 fill stamped below this (R265) -/
  l1Stamp : Nat := 0
  /-- live fragments oldest first (R199), then parked ones -/
  frags : List Frag := []
  /-- next identity of an entry, operation or window -/
  nextId : Nat := 0
  /-- remaining grace of a pre-emption request (R371) -/
  grace : Option Nat := none
  /-- stopped by a pre-emption request (R371) -/
  stopped : Bool := false
  deriving DecidableEq, Repr

/-- A numbered barrier (R222). -/
structure Barrier where
  /-- role mask and stream bit of P_b -/
  roles : Nat
  stream : Bool
  /-- C_b -/
  c : Nat
  /-- ARR_b as lids, rising -/
  arr : List Nat
  streamArr : Bool
  /-- some arrival of the running phase was a BAR.task (R229) -/
  task : Bool
  deriving DecidableEq, Repr

/-- A loop record of the stream (R328). -/
structure LoopRec where
  start : DWord
  stop : DWord
  index : Nat
  count : Nat
  deriving DecidableEq, Repr

/-- An image buffer with its format tag (R306). -/
structure Staging where
  bytes : Cells 8 := []
  tag : Option Nat := none
  deriving DecidableEq, Repr

/-- What the sequencer does next (R306, R325, R357, R358). -/
inductive StreamSt where
  | running
  | waitBarrier (n : Nat)
  | stallBarrier (n c : Nat)
  | trapped
  | jrPending
  | ended
  deriving DecidableEq, Repr

/-- A matrix stream's state (R306). -/
structure Stream where
  addr : DWord
  loops : List LoopRec := []
  /-- T_n -/
  t : List Nat
  /-- accumulator store: word ((quarter × 8) + slot) × 1,024 + index (R311) -/
  acc : Cells 32 := []
  a : List Staging
  /-- quarters of buffers 0 and 1: entry 4 × buffer + quarter -/
  b : List Staging
  st : StreamSt := .running
  deriving DecidableEq, Repr

/-- A line of a task's version: line number, written bytes by offset (R268). -/
structure VLine where
  line : Nat
  /-- bit i: byte i written -/
  written : Nat
  data : Cells 8
  /-- bit i: the copy's 64-bit word i is poisoned (R255) -/
  bad : Nat := 0
  deriving DecidableEq, Repr

/-- An ETAIL, GRAPH or GCOND that waits for the commit (R292). -/
inductive Deferred where
  | etail (chain : Nat) (ccb : Loc) (cards : List (List Word))
  | graph (graph arg : Word)
  | gcond (index val : Word)
  deriving DecidableEq, Repr

/-- A trap that holds lanes, or a stream, until it is answered (R339-R341, R350, R358). -/
structure Trap where
  id : Nat
  cls : Nat
  sub : Nat := 0
  depth : Nat := 0
  stream : Bool := false
  g : Nat := 0
  pc : DWord := 0
  lid : Nat := 0
  elem : Nat := 0
  /-- window instructions issued (R53) -/
  wins : Nat := 0
  flags : Nat := 0
  detail : Nat := 0
  addr : DWord := 0
  /-- bytes 48 to 59 of the report -/
  words : List Word := []
  /-- bytes 60 to 63 of the report -/
  xlate : Word := 0
  task : Nat := 0
  /-- trapped lids (R339) -/
  lids : List Nat := []
  /-- served in place by the owner of stage 1 or 2 (R350) -/
  served : Option Nat := none
  /-- the length SKIP passes (R341, R449) -/
  len : Nat := 0
  /-- MEM_UE after window instructions: SKIP and KILL only (R341) -/
  late : Bool := false
  /-- the window whose result was poisoned (R341) -/
  win : Option Nat := none
  /-- the handler level of a stream word that banks that window: a RETRY issues J again after it (R341, R357) -/
  bank : Option Nat := none
  /-- comparator matched (R341, R361) -/
  cmp : Option Nat := none
  reported : Bool := false
  /-- the answer that came while the team was saved, 0 RETRY or 2 KILL: it takes effect at the resume (R378) -/
  answer : Option Nat := none
  /-- the cycle it was raised in, and its place in that cycle: core and pipe, a stream after both pipes (R340; log 63, DEDUCED) -/
  cycle : Nat := 0
  place : Nat := 0
  /-- where the accesses of the instruction lie that it got as far as placing, for a trailing core that has a state of its own (R388) -/
  took : List Part := []
  deriving DecidableEq, Repr

/-- The program-visible state of a team, the part a start snapshot holds (R384). -/
structure Body where
  lanes : List Lane
  groups : List Group
  barriers : List Barrier
  /-- arrivals at the task barrier (R229) -/
  taskArr : List Nat := []
  /-- granted width, standing request, grant generation (R89, R95) -/
  grant : Nat
  request : Nat
  gen : Nat := 0
  /-- SR counter (R160) and task number (R229) -/
  srCtr : Nat := 0
  task : Nat := 0
  scratch : Cells 8 := []
  /-- scratch words with an uncorrectable error, by word index (R236) -/
  scratchUE : List Nat := []
  stream : Option Stream := none
  deriving DecidableEq, Repr

/-- A role of a kernel header (R75). -/
structure Role where
  groups : Nat
  vbudget : Nat
  reserve : Bool
  deriving DecidableEq, Repr

/-- The fields of a kernel header that the machine goes on using (R75-R77). -/
structure Header where
  roles : List Role
  wreq : Nat
  level : Nat
  det : Bool
  compat16 : Bool
  /-- the minor number of ISAVER (R75, R82) -/
  isaMinor : Nat := 0
  vfall : Bool
  taskfoot : Nat
  entry : Nat
  mstream : Nat
  jrhandler : Nat
  pb1 : Nat
  pb2 : Nat
  pb3 : Nat
  deriving DecidableEq, Repr

/-- Where a team stands (R206, R374). -/
inductive Place where
  | waiting
  | core (n : Nat)
  /-- saved in the shadow image of a core (R15, R374) -/
  | shadow (core : Nat)
  /-- saved in the tenant's save area (R375, R377) -/
  | saved
  deriving DecidableEq, Repr

/-- How a task runs (R385, R386, R391). -/
inductive RunMode where
  | first
  /-- run again after a trap (R385) -/
  | rerun
  /-- re-executed at level-0 semantics (R386) -/
  | levelZero
  deriving DecidableEq, Repr

/-- A pending boundary of a task (R229, R292). -/
inductive Boundary where
  /-- BAR.task completed at barrier n: its releases wait -/
  | bar (n : Nat)
  | taskend
  deriving DecidableEq, Repr

/-- A lane's part of an event, as Telltale has it: byte mask, address and data (R389, R397). -/
structure TelLane where
  lid : Nat
  mask : Nat
  addr : Nat
  data : Nat
  deriving DecidableEq, Repr

/-- An event that Telltale compares: its kind as in R397, what it does, its source, its place, and its lanes; of a branch, first the fragment
that issues it, then what becomes of that (R389). -/
structure TelEvent where
  kind : Nat
  op : Nat
  /-- group index, 0xFF for the stream -/
  group : Nat
  pc : Nat
  lanes : List TelLane
  deriving DecidableEq, Repr

/-- A place that a hardware error strikes: a lane's register, a group's S register, a scratch word, a fragment's FRAG records (R236, R389). -/
inductive Spot where
  | lane (lid : Nat) (r : LReg)
  | scalar (g n : Nat)
  | scratch (word : Nat)
  | frag (g f : Nat)
  deriving DecidableEq, Repr

/-- The context of a saved level-0 team: the save that wrote it, how many bytes it has, and whether it holds the whole pool. The level-0 teams
that one save writes for a core are one context (R374, R375; log 40, DESIGN CHOICE). -/
structure SavedContext where
  save : Nat
  bytes : Nat
  whole : Bool
  deriving DecidableEq, Repr

/-- The lid of what the stream does (R340). -/
def streamLid : Nat := 0xFFFF

/-- What the leading core of a pair brought from outside in one step: the places of its accesses, and the trap that it took (R388). -/
structure Lead where
  parts : List Part
  fault : Option Trap
  deriving DecidableEq, Repr

/-- A team (R206-R209). -/
structure Team where
  /-- the model's identity of the team -/
  id : Nat
  grid : Nat
  /-- logical index -/
  index : Nat
  tenant : Nat
  part : Nat
  ctx : Nat
  hdr : Header
  /-- image base (R78) -/
  image : DWord
  /-- team seed (R78) -/
  seed : DWord
  place : Place
  /-- the pair slot of a level-2 team (R387) -/
  pairSlot : Option Nat := none
  /-- its context, while it is saved (R374, R375) -/
  context : Option SavedContext := none
  body : Body
  /-- what the trailing core of a level-2 team holds, where it differs from the leading one's state (R387, R388) -/
  trail : Option Body := none
  /-- the events of the running step that Telltale compares (R389) -/
  tel : List TelEvent := []
  /-- where the running step's accesses to memory lie, while the trailing core holds a state of its own (R388) -/
  took : List Part := []
  /-- on the trailing side of a step, what the leading core brought from outside (R388) -/
  lead : Option Lead := none
  /-- start snapshot of the task (R384) -/
  snap : Option Body := none
  /-- the traps that parked groups in that snapshot (R374, R384) -/
  snapTraps : List Trap := []
  /-- the boundary whose release follows the snapshot (R229) -/
  snapAt : Option Boundary := none
  mode : RunMode := .first
  /-- the task's mismatch count, and a mismatch that Telltale has found (R391, R446) -/
  mcount : Nat := 0
  mismatch : Option Mismatch := none
  versions : List VLine := []
  deferred : List Deferred := []
  boundary : Option Boundary := none
  /-- the pending boundary has committed the task's version (R229, R292) -/
  committed : Bool := false
  /-- a re-slice to this request waits at a barrier for the drain (R97) -/
  reslice : Option (Nat × Nat) := none
  /-- the segment 0 of the stream (R322) -/
  seg0 : Seg
  /-- argument words and segment templates of the launch (R77, R116) -/
  args : List Word
  segT : List Seg
  traps : List Trap := []
  /-- a task rollback is due with this trap class (R385) -/
  rollback : Option Trap := none
  /-- some instruction issued since the release of the last boundary (R373) -/
  issued : Bool := false
  deriving DecidableEq, Repr

/-- A TLB entry: the combined result of a walk for one page (R348). -/
structure TlbEntry where
  ctx : Nat
  vpage : Nat
  /-- log2 of the page size -/
  size : Nat
  ppage : Nat
  w : Bool
  x : Bool
  mt : MemType
  /-- what stage 1 alone gives, and the levels of the two leaves: they decide which stage a refused access names (R340, R346) -/
  w1 : Bool := false
  x1 : Bool := false
  mt1 : MemType := .cached
  level1 : Nat := 3
  level2 : Nat := 3
  deriving DecidableEq, Repr

/-- A PCIe memory request to the host: its requester, whether it writes, its bus address and length (R402). -/
structure HostReq where
  fn : Fn
  write : Bool
  addr : Nat
  len : Nat
  deriving DecidableEq, Repr

/-- An L1 sector: number (physical address ÷ 32), fill stamp, bytes (R243, R265). -/
structure L1Sector where
  sector : Nat
  stamp : Nat
  data : List Byte
  deriving DecidableEq, Repr

/-- The tag of an entry of a core's instruction caches (R82). -/
structure CodeTag where
  ctx : Nat
  /-- the context's code generation -/
  gen : Nat
  compat16 : Bool
  isaMinor : Nat
  /-- the virtual word address -/
  va : Nat
  deriving DecidableEq, Repr

/-- A core (R16, R21, R208, R234). -/
structure Core where
  pb1 : Nat := 0x500
  pb2 : Nat := 0x700
  pb3 : Nat := 0x740
  /-- resident groups, oldest first: team id and group index (R212) -/
  age : List (Nat × Nat) := []
  /-- cycles for which pipes 0 and 1 and the three ports stay held (R210) -/
  pipeBusy : List Nat := [0, 0]
  portBusy : List Nat := [0, 0, 0]
  /-- pipe 0's issue of the running cycle was heavy, and pipe 1's issuers of that cycle (R212, R216) -/
  heavy : Bool := false
  late : List (Nat × Nat) := []
  /-- times flattening passed a group over in a row (R216) -/
  passed : List (Nat × Nat × Nat) := []
  /-- comparators 0 to 11 (R360) -/
  cmps : List (BitVec 128) := List.replicate 12 0
  tlb : List TlbEntry := []
  l1 : List L1Sector := []
  /-- what the last stream that ended on the core left in the accumulator slots (R209, R311) -/
  acc : Cells 32 := []
  /-- the byte instruction cache: code words by tag, the newest first (R16, R82) -/
  code : List (CodeTag × Word) := []
  /-- the decoded-operation cache: the words of decoded instructions by the tag of the first (R16, R82) -/
  ops : List (CodeTag × List Word) := []
  held : Bool := false
  deriving DecidableEq, Repr

/-- A cluster: two cores (R21). -/
structure Cluster where
  tlb : List TlbEntry := []
  /-- charge record and the charge of the running cycle (R215) -/
  cr : Nat := 0
  charge : Nat := 0
  /-- thermal step, clock level, clock gate (R424-R427) -/
  thermal : Nat := 0
  level : Nat := 6
  gated : Bool := true
  deriving DecidableEq, Repr

/-- A logic rail (R422-R427). -/
structure Rail where
  /-- the voltage it stands at, in millivolts; 0 where it is off -/
  mv : Nat := 0
  /-- the level whose voltage it is to have -/
  sought : Nat := 6
  /-- it rises, and has not settled -/
  raising : Bool := false
  /-- a lowering waits for the level to stay unchanged (R427; log 11, DESIGN CHOICE) -/
  hold : Bool := false
  /-- the voltage falls -/
  falling : Bool := false
  deriving DecidableEq, Repr

/-- A line's standing in an L2 bank (R254, R256). -/
structure L2Line where
  line : Nat
  way : Nat
  valid : BitVec 8
  dirty : BitVec 8
  prio : Nat
  stamp : Nat
  /-- team whose open version copy it is (R271) -/
  owner : Option Nat
  deriving DecidableEq, Repr

/-- A write-combining buffer entry (R259). -/
structure WcEntry where
  line : Nat
  /-- the groups that stored into it, by team and index (R259) -/
  owners : List (Nat × Nat)
  written : Nat
  data : Cells 8
  deriving DecidableEq, Repr

/-- An L2 bank (R254-R259). -/
structure Bank where
  lines : List L2Line := []
  ways : BitVec 16 := BitVec.allOnes 16
  /-- lookups and misses of the running window (R257) -/
  lookups : Nat := 0
  misses : Nat := 0
  /-- the misses of windows that ended, the oldest first, not yet acted on (R257) -/
  windows : List Nat := []
  /-- single-bit errors corrected, as Pilot sees them (R255) -/
  corrected : Nat := 0
  wc : List WcEntry := []
  deriving DecidableEq, Repr

/-- What a card was given by: chain k of a tenant, with the place of its CCB, a graph walker's own chain, or a COPY command
(R282, R301, R412, R417). -/
inductive CardOwner where
  | chain (k : Nat) (ccb : Loc)
  | walker (part : Nat)
  | command (cmd : Nat)
  deriving DecidableEq, Repr

/-- An accepted card that has not completed (R284, R293-R295). Tenant 16 stands for the PF's own COPY commands (R294, R417). -/
structure Card where
  id : Nat
  owner : CardOwner
  tenant : Nat
  part : Nat
  ctx : Nat
  /-- its position on the chain -/
  pos : Nat
  /-- the 128-byte card -/
  words : List Word
  /-- outstanding cards it waits for, by id (R293) -/
  edges : List Nat := []
  /-- the engine of its class that runs it (R294) -/
  engine : Option Nat := none
  /-- a fault of reason 0 holds it, served by the owner of a stage (R295, R350) -/
  held : Option Nat := none
  /-- the graph and node of the walker that it is (R300) -/
  node : Option (Nat × Nat) := none
  /-- bytes its engine has moved, or elements' bytes added (R294, R295) -/
  moved : Nat := 0
  /-- the index words of a gather or scatter, once read (R287) -/
  ix : Option (List Nat) := none
  /-- the bytes of the send that a receive has matched (R304) -/
  link : Option (List Byte) := none
  /-- the peer's receive has matched this send and written every byte (R304) -/
  taken : Bool := false
  deriving DecidableEq, Repr

/-- A request for acceptance that waits at step 3 (R290). -/
structure Publication where
  id : Nat
  owner : CardOwner
  tenant : Nat
  part : Nat
  ctx : Nat
  cards : List (List Word)
  /-- the team whose commit waits for it (R292), or the walker's graph and node it is (R300) -/
  commit : Option Nat := none
  node : Option (Nat × Nat) := none
  /-- of an ETAIL that waits: the position its first card was read at, the segment it read through, DET, and the trap it would raise
  (R290, R291) -/
  start : Nat := 0
  seg : Seg := { base := 0, limit := 0 }
  det : Bool := false
  site : Option Trap := none
  deriving DecidableEq, Repr

/-- A resident graph of a partition (R299). -/
structure GraphRec where
  num : Nat
  ctx : Nat
  nodes : List (List Word)
  deriving DecidableEq, Repr

/-- A running graph instance (R300). -/
structure GraphRun where
  graph : Nat
  arg : Word
  running : List Nat
  arrivals : List (Nat × Nat)
  error : Bool
  deriving DecidableEq, Repr

/-- A partition (R27, R407) with its graph walker (R299-R303). -/
structure Partition where
  en : Bool := false
  owner : Nat := 0
  cfgerr : Bool := false
  busy : Bool := false
  clu : List Word := [0, 0]
  chan : Word := 0
  berth : List Word := [0, 0]
  /-- berths that leave once Pilot has unmapped their queues (R408) -/
  leaving : List Nat := []
  graphs : List GraphRec := []
  cond : Cells 32 := []
  starts : List (Word × Word) := []
  /-- the running instances, one of a graph at most (R302) -/
  runs : List GraphRun := []
  /-- the ready nodes of all of them, by graph and node, in the order in which they became ready (R300) -/
  ready : List (Nat × Nat) := []
  /-- the walker's chain -/
  wTail : Nat := 0
  wSeq : Nat := 0
  wErrPos : DWord := BitVec.allOnes 64
  wErrCode : Nat := 0
  /-- the berth that the launcher took from last (R418; log 10, DESIGN CHOICE) -/
  rr : Nat := 63
  deriving DecidableEq, Repr

/-- A tenant block and what the Harbourmaster holds for the tenant (R404, R382). -/
structure Tenant where
  en : Bool := false
  wceil : Nat := 96
  cfgerr : Bool := false
  cardq : Nat := 0
  verq : Nat := 0
  hvScope : Nat := 0
  s2root : DWord := 0
  save : DWord := 0
  ialim : DWord := 0
  ilpol : Word := 1
  deriving DecidableEq, Repr

/-- The registers of one PCIe function (R410, R417). -/
structure FnRegs where
  repBase : DWord := 0
  repLog2 : Nat := 0
  repHead : Word := 0
  repTail : Word := 0
  qcb : Cells 64 := []
  pending : List Nat := []
  /-- reports waiting for the ring, oldest first (R415) -/
  reports : List (List Byte) := []
  deriving DecidableEq, Repr

/-- A berth (R416, R418, R419). -/
structure Berth where
  /-- the tenant and queue mapped on it -/
  queue : Option (Nat × Nat) := none
  /-- TAIL as the berth read it last (R416) -/
  tail : Nat := 0
  accepted : Nat := 0
  deriving DecidableEq, Repr

/-- An accepted command (R412). -/
structure Command where
  id : Nat
  fn : Fn
  queue : Nat
  part : Nat
  /-- QCB.CTX at its acceptance (R411) -/
  ctx : Nat := 0
  pos : Nat
  /-- the 64-byte record -/
  words : List Word
  /-- completion code, when it is known -/
  code : Option Nat
  started : Bool := false
  /-- result words of the completion -/
  result : List Word := []
  deriving DecidableEq, Repr

/-- A context (R413). -/
structure Context where
  num : Nat
  tenant : Nat
  root : DWord
  /-- code generation (R83) -/
  codeGen : Nat := 0
  debugger : Bool := false
  deriving DecidableEq, Repr

/-- A grid (R206, R209). -/
structure Grid where
  id : Nat
  serial : Word
  tenant : Nat
  part : Nat
  ctx : Nat
  hdr : Header
  image : DWord
  seed : DWord
  args : List Word
  segT : List Seg
  teams : Nat
  placed : Nat := 0
  ended : Nat := 0
  fatal : Option Nat := none
  command : Option Nat := none
  /-- the walker's graph and node that it is (R300) -/
  node : Option (Nat × Nat) := none
  sys : Bool := false
  deriving DecidableEq, Repr

/-- A pre-emption request (R368-R370). -/
structure Preempt where
  part : Nat
  /-- the victim cores -/
  victims : List Nat
  grace : Nat
  /-- the vacated cores stay held -/
  hold : Bool
  /-- CLMASK of a resize -/
  remove : Nat
  command : Nat
  deriving DecidableEq, Repr

/-- A Quay port (R304, R420). -/
structure QuayPort where
  en : Bool := false
  owner : Nat := 0
  up : Bool := false
  /-- sends that arrived unmatched: tag and bytes -/
  arrived : List (Nat × List Byte) := []
  deriving DecidableEq, Repr

/-- A firmware slot (R430, R434, R435). -/
structure FwSlot where
  /-- the bundle's bytes, by offset -/
  bundle : Cells 8 := []
  /-- the firmware that the part left the factory with: its bundle asks for nothing, and the vendor's root and the owner's of the reset signed
  it (log 16, DESIGN CHOICE) -/
  factory : Bool := false
  deriving DecidableEq, Repr

/-- The fused hash of the owner root key at reset, whose signature the factory's bundle carries (R433, R434; log 16, DESIGN CHOICE). -/
def factoryOwner : Option (BitVec 512) := some 0

/-- The fuses (R24-R26, R431, R433). -/
structure Fuses where
  /-- V780-X: 256 GiB (R22) -/
  partX : Bool := false
  /-- cores fused to 64 lanes (R25) -/
  fmax64 : List Nat := []
  /-- life-cycle state (R433): 0 BLANK, 1 PROVISIONED, 2 FIELD, 3 RETURN -/
  lcs : Nat := 2
  mount : Nat := 0
  /-- majors that a SKU enables beyond the V780 (R63) -/
  sku : List Nat := []
  /-- the SHA3-512 hash of the owner root key, once it is fused (R433; log 16, DESIGN CHOICE) -/
  owner : Option (BitVec 512) := factoryOwner
  /-- the identity key exists (R433) -/
  identity : Bool := true
  rollback : Nat := 0
  deriving DecidableEq, Repr

/-- The Harbourmaster (15). -/
structure Harbour where
  /-- paired slots: slot, leading cluster (R387) -/
  pairs : List (Nat × Nat) := []
  /-- SEQ of the next record (R394) -/
  seq : Nat := 1
  /-- trap-log slots by index: 256 bytes each (R395) -/
  log : List (Nat × List Byte) := []
  /-- head slots 0 and 1 (R398) -/
  heads : List (List Byte) := [[], []]
  /-- the newest record is in its slot, and its head is still to be written (R398) -/
  headDue : Bool := false
  /-- HMCYCLE as the last record or head took it (R395; log 11, DESIGN CHOICE) -/
  cycle : DWord := 0
  wall : DWord := 0
  wallLo : Word := 0
  mbTen : Word := 0
  mbDone : Bool := true
  mbRefused : Bool := false
  injCtl : Word := 0
  injSel : Word := 0
  injCount : Nat := 0
  brownout : Bool := false
  thermalDown : Bool := false
  deriving DecidableEq, Repr

/-- BOOT_STAT and the firmware (R430-R436). -/
structure Boot where
  phase : Nat := 0
  err : Nat := 0
  slot : Nat := 0
  slots : List FwSlot := [{ factory := true }, {}]
  attested : Bool := false
  /-- bring-ups so far: the boot count of the attestation report (R436) -/
  count : Nat := 0
  deriving DecidableEq, Repr

/-- A turn of the agenda: what the environment or an agent does next (log 2, DESIGN CHOICE). -/
inductive Turn where
  /-- an event of the opcode table -/
  | event (i : Instr)
  /-- a core takes its next issue cycle -/
  | issue (core : Nat)
  /-- a team's sequencer starts its next word -/
  | stream (team : Nat)
  /-- an uncorrectable 64-bit word appears at a physical address (R255; log 19, DESIGN CHOICE) -/
  | poison (addr : Nat)
  /-- a double-bit error in an L2 sector: the committed copy at a physical address, or a team's version copy (R255; log 19, DESIGN CHOICE) -/
  | l2Error (addr : Nat) (owner : Option Nat)
  /-- a double-bit error in the tag of a line of an L2 bank (R255; log 19, DESIGN CHOICE) -/
  | l2TagError (addr : Nat) (owner : Option Nat)
  /-- a single-bit error in an L2 bank, corrected (R255; log 19, DESIGN CHOICE) -/
  | l2Corrected (bank : Nat)
  /-- an uncorrectable error in a place of a team, on its core or on the trailing one (R236, R388; log 19, DESIGN CHOICE) -/
  | uncorrectable (team : Nat) (at_ : Spot) (trailing : Bool)
  /-- a bit of a place of a level-2 team flips unseen, on one of its two cores (R389; log 17, DESIGN CHOICE) -/
  | flip (team : Nat) (at_ : Spot) (bit : Nat) (trailing : Bool)
  /-- a core's instruction caches lose a code word (R82; log 42, DESIGN CHOICE) -/
  | codeDrop (core va : Nat)
  /-- an engine makes the next piece of a card (R294; log 21, DESIGN CHOICE) -/
  | enginePiece (card : Nat)
  /-- the peer's receive of a tag and length has matched a send of a port, and has written every byte if their lengths agree (R304; log 22, DESIGN CHOICE) -/
  | quayTaken (port tag len : Nat)
  /-- a falling rail has come down to a voltage, in millivolts (R427; log 11, DESIGN CHOICE) -/
  | railFall (rail mv : Nat)
  /-- the host writes bytes behind the aperture (R402; log 14, DESIGN CHOICE) -/
  | hostWrite (addr : Nat) (bytes : List Byte)
  deriving DecidableEq, Repr

/-- Whose instruction is being executed and its words (the model's own; log 2, DESIGN CHOICE). -/
structure Cur where
  team : Nat
  g : Nat
  f : Nat
  addr : DWord
  pfxW : Word := 0
  mainW : Word := 0
  litW : Word := 0
  hasPfx : Bool := false
  hasLit : Bool := false
  /-- the length in bytes (R39), and the length a decode trap has (R449) -/
  len : Nat := 4
  trapLen : Nat := 4
  stream : Bool := false
  deriving DecidableEq, Repr

/-- A memory: (address, byte) pairs; an unlisted address reads zero (R430; log 7, DEDUCED). -/
abbrev Memory := List Host.Cell

/-- The canonical form of a memory: addresses strictly rising, no byte zero. -/
abbrev Memory.wf (m : Memory) : Bool := Cells.wf m

/-- The device. -/
structure State where
  /-- physical memory (R22); an unlisted byte reads zero (R430) -/
  mem : Cells 8
  /-- host memory behind the aperture (R402) -/
  hostMem : Cells 8
  /-- the last request the part made through the aperture (R402) -/
  hostReq : Option HostReq
  /-- poisoned 64-bit words, by physical address ÷ 8 (R255) -/
  poison : List Nat
  /-- the bytes, by physical address, that were last written with zero (R5, R283; log 29, DEDUCED) -/
  zeroed : Cells 1
  teams : List Team
  cores : List Core
  clusters : List Cluster
  rails : List Rail
  /-- the voltage of the retention rail, in millivolts (R422) -/
  retention : Nat
  banks : List Bank
  cards : List Card
  pubs : List Publication
  /-- tenant served next by the engines' round robin (R294) -/
  engineRR : Nat
  parts : List Partition
  tenants : List Tenant
  vfs : List FnRegs
  pfRegs : FnRegs
  berths : List Berth
  pfNext : Nat
  cmds : List Command
  ctxs : List Context
  grids : List Grid
  preempts : List Preempt
  quay : List QuayPort
  fuses : Fuses
  hm : Harbour
  boot : Boot
  /-- serial of the next launch (R414) -/
  gridSerial : Word
  /-- signalled vectors (R412, R415) -/
  signals : List (Nat × Nat)
  agenda : List Turn
  cur : Option Cur
  /-- free values drawn (logs 8, 9, 15) -/
  freeCount : Nat
  /-- cycles that have ended (R340; log 63, DEDUCED) -/
  cycles : Nat
  /-- identities and stamps -/
  nextId : Nat
  stamp : Nat
  deriving DecidableEq, Repr

/-- The machine right after reset: no power-up has run, nothing is mapped, placed or launched (R404, R407, R414, R431; log 10, DESIGN CHOICE). -/
def State.reset : State :=
  { mem := [], hostMem := [], hostReq := none, poison := [], zeroed := [], teams := [], cores := List.replicate 96 {}, clusters := List.replicate 48 {},
    rails := List.replicate 12 {}, retention := 0, banks := List.replicate 64 {}, cards := [], pubs := [], engineRR := 0,
    parts := List.replicate 24 {}, tenants := List.replicate 16 {}, vfs := List.replicate 16 {}, pfRegs := {},
    berths := List.replicate 64 {}, pfNext := 0, cmds := [], ctxs := [], grids := [], preempts := [], quay := [{}, {}],
    fuses := {}, hm := {}, boot := {}, gridSerial := 1, signals := [], agenda := [], cur := none, freeCount := 0, cycles := 0, nextId := 0, stamp := 0 }

/-- The reasons a step stops with a fault: there is none. A translation never gives an address without memory (R22, R402, R409), and what
goes wrong in a program, a card or a command is a trap, an error code or a report. Safe: no step ends in a fault. -/
inductive Fault where
  deriving DecidableEq, Repr

/-- The reasons a step is refused. -/
inductive Refusal where
  /-- An instruction without a meaning in this model. Raised by Machine/Dispatch.lean only. Safe. -/
  | notModelled (mnemonic : String)
  /-- A group or stream instruction executed with no issuer: the machine's step never does so. Safe. -/
  | noIssuer
  /-- An event of the device that is not due in the state: the machine's step takes an agenda turn like it as nothing. Safe. -/
  | notDue
  deriving DecidableEq, Repr

end Sys2Proof.Machine
end

