-- ==== Sys2Proof/Machine/Ops.lean ====
section
/-!
DEFINITION. The named operations over the state: finding and changing teams, groups, fragments and lanes, the mask triples and EXEC
(R8, R9, R86), taking a trap (R336-R341), entering the jury-rig handler and returning from it (R351-R357).
-/
namespace Sys2Proof.Machine

/-! ### Finding and changing parts of the state -/

/-- The team of an identity. -/
def State.team? (s : State) (t : Nat) : Option Team := s.teams.find? (fun x => x.id == t)

/-- Change one team. -/
def State.modTeam (s : State) (t : Nat) (f : Team → Team) : State :=
  { s with teams := s.teams.map (fun x => if x.id == t then f x else x) }

/-- Change the body of a team. -/
def Team.modBody (t : Team) (f : Body → Body) : Team := { t with body := f t.body }

/-- Change one group of a team. -/
def Team.modGroup (t : Team) (g : Nat) (f : Group → Group) : Team :=
  t.modBody (fun b => { b with groups := listModify b.groups g f })

/-- Change one lane of a team. -/
def Team.modLane (t : Team) (lid : Nat) (f : Lane → Lane) : Team :=
  t.modBody (fun b => { b with lanes := listModify b.lanes lid f })

/-- Change one fragment of a group. -/
def Group.modFrag (g : Group) (k : Nat) (f : Frag → Frag) : Group := { g with frags := listModify g.frags k f }

/-- The lane at a lid (R84). -/
def Team.lane (t : Team) (lid : Nat) : Lane := (t.body.lanes[lid]?).getD { role := 0 }

/-- Change one core. -/
def State.modCore (s : State) (c : Nat) (f : Core → Core) : State := { s with cores := listModify s.cores c f }

/-- Change one cluster. -/
def State.modCluster (s : State) (k : Nat) (f : Cluster → Cluster) : State := { s with clusters := listModify s.clusters k f }

/-- The core a team stands on. -/
def Team.core? (t : Team) : Option Nat :=
  match t.place with
  | .core n => some n
  | _ => none

/-- The budget of a role: B_k (R118). -/
def Header.budget (h : Header) (k : Nat) : Nat := 8 * ((h.roles[k]?).map (·.vbudget)).getD 0

/-- Whether a role has its JRRESERVE bit (R119). -/
def Header.reserve (h : Header) (k : Nat) : Bool := ((h.roles[k]?).map (·.reserve)).getD false

/-! ### Masks and triples -/

/-- The positions that hold a lane of the group (R86). -/
def Group.exist (g : Group) : Mask := maskFirst g.count

/-- The lids of the positions of a mask, in ascending LANEIX (R85). -/
def Group.lids (g : Group) (m : Mask) : List Nat := (maskList m).map (fun i => g.first + i)

/-- The LANEIX of a lid of the group (R85). -/
def Group.ix (g : Group) (lid : Nat) : Nat := lid - g.first

/-- The mask of those lids that the group holds. -/
def Group.maskOfLids (g : Group) (l : List Nat) : Mask :=
  maskOfList ((l.filter (fun x => decide (g.first ≤ x) && decide (x < g.first + g.count))).map g.ix)

/-- The triple whose first register is S(n): bit i of S(n + i ÷ 32) for LANEIX i (R8). -/
def Group.triple (g : Group) (n : Nat) : Mask := g.s.get (n + 2) ++ g.s.get (n + 1) ++ g.s.get n

/-- Write an S register: in a triple, bits of positions that hold no lane are ignored (R8, R86, R139). -/
def Group.setS (g : Group) (n : Nat) (v : Word) : Group :=
  let v := if 8 ≤ n && n ≤ 31 then v &&& ((g.exist >>> (32 * ((n - 8) % 3))).setWidth 32) else v
  { g with s := g.s.set n v, ue := g.ue.filter (· != n) }

/-- Write a triple (R8, R86). -/
def Group.setTriple (g : Group) (n : Nat) (m : Mask) : Group :=
  ((g.setS n (m.setWidth 32)).setS (n + 1) ((m >>> 32).setWidth 32)).setS (n + 2) ((m >>> 64).setWidth 32)

/-- Put the bits of a pending triple at S(n) for the lids that it covers: 1 for `lids` (R94, R101). -/
def Group.mergeTriple (g : Group) (n : Nat) (lids cov : List Nat) : Group :=
  g.setTriple n ((g.triple n &&& ~~~(g.maskOfLids cov)) ||| g.maskOfLids lids)

/-! ### The mode register (R45, R46) -/

/-- MR.GUARD. -/
def mrGuard (mr : Word) : Nat := bitsOf mr 2 0
/-- MR.ETYPE. -/
def mrEtype (mr : Word) : Nat := bitsOf mr 6 3
/-- MR.RND. -/
def mrRnd (mr : Word) : Nat := bitsOf mr 9 7
/-- MR.SAT. -/
def mrSat (mr : Word) : Bool := mr.getLsbD 10
/-- MR.FTZ. -/
def mrFtz (mr : Word) : Bool := mr.getLsbD 11
/-- MR.EXCEN as bits IV DZ OF UF NX. -/
def mrExcen (mr : Word) : Nat := bitsOf mr 16 12
/-- MR.SRSEL. -/
def mrSrsel (mr : Word) : Nat := bitsOf mr 18 17
/-- MR.DET. -/
def mrDet (mr : Word) : Bool := mr.getLsbD 31

/-! ### EXEC -/

/-- The lanes of a mask whose X of a jury-rig depth is set (R352). -/
def Team.xMask (t : Team) (g : Group) (m : Mask) (depth : Nat) : Mask :=
  maskOfList ((maskList m).filter (fun i =>
    if depth = 1 then (t.lane (g.first + i)).x1 else (t.lane (g.first + i)).x2))

/-- EXEC (R9, R41, R352): the guard triple and the fragment's mask; in the handler, X and the mask, with the prefix's own guard. -/
def execMask (t : Team) (g : Group) (f : Frag) (p : Option Pfx) : Mask :=
  let gen := (p.map (·.gen)).getD false
  let sel := if gen then (p.map (·.gsel.toNat)).getD 0 else mrGuard g.mr
  if f.jr.length = 0 then f.mask &&& g.triple (8 + 3 * sel)
  else
    let x := t.xMask g f.mask f.jr.length
    if gen then x &&& g.triple (8 + 3 * sel) else x

/-! ### The issuer -/

/-- The issuing fragment, with what it reads. -/
structure Iss where
  c : Cur
  s : State
  t : Team
  g : Group
  f : Frag
  fm : Form
  /-- EXEC -/
  ex : Mask

/-- The issuer that the state names, read out of it, for an instruction of a form. -/
def State.issuer (s : State) (fm : Form) : Option Iss :=
  match s.cur with
  | none => none
  | some c =>
    if c.stream then none else
    match s.team? c.team with
    | none => none
    | some t =>
      match t.body.groups[c.g]? with
      | none => none
      | some g =>
        match g.frags[c.f]? with
        | none => none
        | some f => some { c := c, s := s, t := t, g := g, f := f, fm := fm, ex := execMask t g f fm.pfx }

/-- Change the issuing team. -/
def Iss.modTeam (q : Iss) (f : Team → Team) : State := q.s.modTeam q.c.team f

/-- Change the issuing group. -/
def Iss.modGroup (q : Iss) (f : Group → Group) : State := q.modTeam (fun t => t.modGroup q.c.g f)

/-- Change the issuing fragment. -/
def Iss.modFrag (q : Iss) (f : Frag → Frag) : State := q.modGroup (fun g => g.modFrag q.c.f f)

/-- LANEIX of the lanes of EXEC, ascending. -/
def Iss.lanes (q : Iss) : List Nat := maskList q.ex

/-- The lid of a LANEIX of the issuing group. -/
def Iss.lid (q : Iss) (i : Nat) : Nat := q.g.first + i

/-- The lowest lid of the issuing fragment. -/
def Frag.lowest (f : Frag) (g : Group) : Nat := g.first + ((maskList f.mask).head?).getD 0

/-- ETYPE of the instruction: ETO, else MR.ETYPE (R41). -/
def Iss.etype (q : Iss) : Nat := if q.fm.p.eto = 0 then mrEtype q.g.mr else q.fm.p.eto.toNat - 1

/-- The rounding code of the instruction: RNDO, else MR.RND (R41). -/
def Iss.rnd (q : Iss) : Nat := if q.fm.p.rndo = 0 then mrRnd q.g.mr else q.fm.p.rndo.toNat - 1

/-! ### Trap classes (R335) and their order (R337) -/

def clsIllegal : Nat := 0
def clsJuryrig : Nat := 1
def clsFp : Nat := 2
def clsXlate : Nat := 3
def clsSeg : Nat := 4
def clsMemUe : Nat := 5
def clsLkhd : Nat := 6
def clsOverlap : Nat := 7
def clsScope : Nat := 8
def clsDet : Nat := 9
def clsVersion : Nat := 10
def clsBrk : Nat := 11
def clsHang : Nat := 12
def clsDebug : Nat := 13
def clsTelltale : Nat := 14
def clsEmul : Nat := 15

/-- The place of a trap in the order of R337, which has none for the DEBUG of TRAP, DBGBRK and HALT: they come last (log 66, DESIGN
CHOICE). -/
def Trap.rank (t : Trap) : Nat :=
  if t.cls = clsDebug then (if t.sub = 4 then 1 else if t.sub = 5 then 11 else 15)
  else if t.cls = clsIllegal then 2
  else if t.cls = clsOverlap then 3
  else if t.cls = clsJuryrig || t.cls = clsEmul then 4
  else if t.cls = clsLkhd then 5
  else if t.cls = clsBrk then 6
  else if t.cls = clsDet then 7
  else if t.cls = clsScope then 8
  else if t.cls = clsSeg then 9
  else if t.cls = clsXlate then 10
  else if t.cls = clsVersion then 12
  else if t.cls = clsFp then 13
  else 14

/-- A trap of the issuing instruction, naming a lid; SKIP passes the length that a decode trap has where OVERLAP is raised (R336, R340,
R449). -/
def mkTrap (t : Team) (g : Group) (f : Frag) (c : Cur) (cls lid : Nat) : Trap :=
  { id := 0, cls := cls, depth := f.jr.length, g := c.g, pc := c.addr, lid := lid,
    words := if cls = clsIllegal || cls = clsJuryrig || cls = clsEmul then [c.mainW, c.pfxW, c.litW] else [],
    task := t.body.task, lids := g.lids f.mask,
    len := if cls = clsOverlap then c.trapLen else c.len }

/-- A trap that names the lowest lid of the fragment (R337). -/
def Iss.trap (q : Iss) (cls : Nat) : Trap := mkTrap q.t q.g q.f q.c cls (q.f.lowest q.g)

/-- A trap that names a lane by its LANEIX (R337). -/
def Iss.trapAt (q : Iss) (cls i : Nat) : Trap := mkTrap q.t q.g q.f q.c cls (q.lid i)

/-! ### Taking a trap -/

/-- The level whose rules the team's current task follows (R338, R386). -/
def Team.levelNow (t : Team) : Nat := if t.mode = .levelZero then 0 else t.hdr.level

/-- Whether a trap parks its group, whatever the level (R338). -/
def Trap.parks (t : Trap) : Bool := t.cls = clsDebug || (t.cls = clsXlate && t.served.isSome)

/-- Where a trap stands among those of its cycle: by core, then by the pipe of its group; a stream, which has no pipe, after both (R340; log 63,
DEDUCED). -/
def Team.trapPlace (t : Team) (tr : Trap) : Nat :=
  4 * t.core?.getD 0 + (if tr.stream then 2 else ((t.body.groups[tr.g]?).map (·.pipe)).getD 0)

/-- Take a trap in a team: the group is parked and the report made ready, or, at levels 1 and 2, the task is to be rolled back
(R338, R339, R350, R358, R385). A parked victim group has stopped (R371). The flags the instruction raised are kept (R336). -/
def State.takeTrap (s : State) (team : Nat) (tr : Trap) : State :=
  let took := tr.took
  let tr := { tr with id := s.nextId, cycle := s.cycles, took := [] }
  let s := { s with nextId := s.nextId + 1 }
  s.modTeam team (fun t =>
    let tr := { tr with place := t.trapPlace tr }
    let t := { t with took := took }.modGroup tr.g (fun g => if tr.stream then g else { g with flags := g.flags ||| tr.flags })
    if t.levelNow = 0 || tr.parks then
      { (t.modGroup tr.g (fun g => if !tr.stream && g.grace.isSome then { g with stopped := true } else g)) with traps := t.traps ++ [tr] }
    else { t with rollback := some (t.rollback.getD tr) })

/-- Whether a group is parked: it holds a lane that some unanswered trap holds (R339). -/
def Team.parked (t : Team) (g : Group) : Bool :=
  t.traps.any (fun tr => tr.lids.any (fun l => decide (g.first ≤ l) && decide (l < g.first + g.count)))

/-- Whether a lane is trapped (R183). -/
def Team.trapped (t : Team) (lid : Nat) : Bool := t.traps.any (fun tr => tr.lids.contains lid)

/-! ### The jury-rig handler -/

/-- The register id of an operand code in the window (R353), read under R36 and R42. -/
def regId (xen ext : Bool) (c : Code) : Nat :=
  match opndX xen ext c with
  | .v n => n
  | .q n => 0x100 + n
  | .l n => 0x110 + n
  | .zero => 0x114
  | .laneix => 0x115
  | .imm => 0x116
  | .s n => 0x140 + n
  | .bad => 0x117

/-- W0 to W7 of a group word that takes the JURYRIG fate: its literal and its length are those that R449 counts (R353, R449). -/
def windowWords (c : Cur) (mr : Word) (depth : Nat) (xEmpty : Bool) : List Word :=
  let p := if c.hasPfx then c.pfxW else 0
  let xen := p.getLsbD 1
  let o4 := p.getLsbD 0
  let m := c.mainW
  let c0 : Code := m.extractLsb' 14 7
  let c1 : Code := m.extractLsb' 7 7
  let c2 : Code := m.extractLsb' 0 7
  let c3 : Code := if o4 then p.extractLsb' 6 7 else 0
  [ m, p, (if c.hasLit then c.litW else 0),
    BitVec.ofNat 32 (c0.toNat + 2 ^ 7 * c1.toNat + 2 ^ 14 * c2.toNat + 2 ^ 21 * c3.toNat + 2 ^ 28 * bitsOf m 24 21),
    BitVec.ofNat 32 (regId xen (p.getLsbD 5) c0 + 2 ^ 16 * regId xen (p.getLsbD 4) c1),
    BitVec.ofNat 32 (regId xen (p.getLsbD 3) c2 + 2 ^ 16 * (if o4 then regId false false c3 else 0x117)),
    mr,
    BitVec.ofNat 32 (bitsOf m 24 21 + 2 ^ 4 * c.hasPfx.toNat + 2 ^ 5 * c.hasLit.toNat + 2 ^ 6 * depth + 2 ^ 8 * c.len
      + 2 ^ 13 * xEmpty.toNat + 2 ^ 14 * (p.getLsbD 20).toNat) ]

/-- W0 to W7 of a stream word (R353). -/
def streamWindowWords (w : DWord) (mr : Word) (depth : Nat) (xEmpty : Bool) : List Word :=
  [ lo32 w, hi32 w, 0, 0, 0x01170117, 0x01170117, mr,
    BitVec.ofNat 32 (2 ^ 6 * depth + 2 ^ 8 * 8 + 2 ^ 12 + 2 ^ 13 * xEmpty.toNat) ]

/-- A register that the bank frames cover: the reserve, Q and L (R119). -/
def LReg.banked (budget : Nat) : LReg → Bool
  | .v n => decide (budget - 16 ≤ n) && decide (n < budget)
  | _ => true

/-- Copy the reserve, Q and L registers of a lane into a bank frame and record X (R352). -/
def Lane.bank (ln : Lane) (budget depth : Nat) (x : Bool) : Lane :=
  let fr : Frame := { v := ln.v.keep (fun n => decide (budget - 16 ≤ n) && decide (n < budget)), q := ln.q, l := ln.l,
                      ue := ln.ue.filter (LReg.banked budget) }
  if depth = 1 then { ln with frame1 := fr, hold1 := 0, x1 := x } else { ln with frame2 := fr, hold2 := 0, x2 := x }

/-- Restore the reserve, Q and L registers of a lane from a bank frame (R355). -/
def Lane.unbank (ln : Lane) (budget depth : Nat) : Lane :=
  let fr := if depth = 1 then ln.frame1 else ln.frame2
  let keep := ln.v.keep (fun n => !(decide (budget - 16 ≤ n) && decide (n < budget)))
  { ln with v := (List.range (budget - (budget - 16))).foldl (fun v k => v.set (budget - 16 + k) (fr.v.get (budget - 16 + k))) keep,
            q := fr.q, l := fr.l, ue := ln.ue.filter (fun r => !r.banked budget) ++ fr.ue }

/-- Whether the handler of a fragment can be entered (R351). -/
def handlerReady (t : Team) (g : Group) : Bool := t.hdr.jrhandler != 0 && t.hdr.reserve g.role

/-- Enter the handler of a fragment: bank, record X, write the operand window and continue at JRHANDLER (R352). -/
def Team.enterHandler (t : Team) (gi fi : Nat) (x : Mask) (w : Nat → List Word) (jrpc jrnext : DWord) (stream : Bool) : Team :=
  match t.body.groups[gi]? with
  | none => t
  | some g =>
    match g.frags[fi]? with
    | none => t
    | some f =>
      let depth := f.jr.length + 1
      let t := (maskList f.mask).foldl (fun t i =>
        t.modLane (g.first + i) (fun ln => ln.bank (t.hdr.budget g.role) depth (x.getLsbD i))) t
      let lv : JrLevel := { id := g.nextId, w := w depth, jrpc := jrpc, jrnext := jrnext, wins := f.wins, wait := f.wait, stream := stream, pc := f.pc }
      t.modGroup gi (fun g => { (g.modFrag fi (fun f =>
        { f with jr := lv :: f.jr, wins := [], wait := .none, pc := t.image + BitVec.ofNat 64 t.hdr.jrhandler })) with nextId := g.nextId + 1 })

/-- Count a window instruction of the fragment in its open windows (R49, R53). -/
def Window.count (w : Window) : Window :=
  { w with remaining := w.remaining - 1, issued := w.issued + 1 }

/-- Where a shift of the last-result file takes a register (R122). -/
def LReg.shifted : LReg → Option LReg
  | .l n => if n < 3 then some (.l (n + 1)) else none
  | r => some r

/-- Shift the last-result file of a lane (R122). -/
def Lane.shiftL (ln : Lane) (r : Word) : Lane :=
  { ln with l := (((ln.l.set 3 (ln.l.get 2)).set 2 (ln.l.get 1)).set 1 (ln.l.get 0)).set 0 r,
            ue := ln.ue.filterMap LReg.shifted }

/-- The value that EMRET.l shifts in, by slot 0's register id; none where it shifts nothing (R355). L1 to L3 stand in neither of R355's lists and shift
nothing, and a V register at or beyond the budget gives its cell (log 67, DESIGN CHOICE). -/
def Lane.emretValue (ln : Lane) (id depth : Nat) : Option Word :=
  if id < 0x100 then some (ln.v.get id)
  else if id < 0x110 then some (ln.q.get (id - 0x100))
  else if id = 0x110 || id = 0x114 then some (if depth = 1 then ln.hold1 else ln.hold2)
  else none

/-- The register that EMRET.l reads, by slot 0's register id (R355). -/
def emretReg (id : Nat) : Option LReg :=
  if id < 0x100 then some (.v id) else if id < 0x110 then some (.q (id - 0x100)) else none

/-- Leave the loops whose body ends at an address, or go round again (R328). -/
def loopNext (next : DWord) : List LoopRec → DWord × List LoopRec
  | [] => (next, [])
  | l :: rest =>
    if l.stop = next then
      if l.index + 1 < l.count then (l.start, { l with index := l.index + 1 } :: rest) else loopNext next rest
    else (next, l :: rest)

/-- The instruction that a level emulates counts once on the clock, as its first piece leaves (R230, R355). -/
def Group.countEmulated (g : Group) (lv : JrLevel) (depth : Nat) : Group :=
  if lv.counted then g
  else
    { g with clock := if depth = 1 then g.clock + 1 else g.clock,
             frags := g.frags.map (fun f => { f with jr := f.jr.map (fun l => if l.id == lv.id then { l with counted := true } else l) }) }

/-- Leave the handler: restore the frames and windows, lower the depth, and continue (R355). `em` is EMRET, `lst` its .l form. -/
def Team.leaveHandler (t : Team) (gi fi : Nat) (em lst : Bool) : Team :=
  match t.body.groups[gi]? with
  | none => t
  | some g =>
    match g.frags[fi]? with
    | none => t
    | some f =>
      match f.jr with
      | [] => t
      | lv :: rest =>
        let depth := rest.length + 1
        let id := bitsOf (lv.w.getD 4 0) 15 0
        let t := (maskList f.mask).foldl (fun t i =>
          t.modLane (g.first + i) (fun ln =>
            let ln' := ln.unbank (t.hdr.budget g.role) depth
            let x := if depth = 1 then ln.x1 else ln.x2
            if em && lst && !lv.stream && x then
              match ln'.emretValue id depth with
              | some r => ln'.shiftL r
              | none => ln'
            else ln')) t
        let t := t.modGroup gi (fun g =>
          let g := if em && !lv.stream then g.countEmulated lv depth else g
          g.modFrag fi (fun f =>
            { f with jr := rest, wait := lv.wait,
                     wins := if em && !lv.stream then lv.wins.map Window.count else lv.wins,
                     pc := if lv.stream then lv.pc else if em then lv.jrnext else lv.jrpc }))
        if lv.stream then
          t.modBody (fun b => { b with stream := b.stream.map (fun st =>
            if st.st = .jrPending then
              (if em then
                 let r := loopNext lv.jrnext st.loops
                 { st with st := .running, addr := r.1, loops := r.2 }
               else { st with st := .running, addr := lv.jrpc })
            else st) })
        else t

end Sys2Proof.Machine
end

