-- ==== Sys2Proof/Machine/Operands.lean ====
section
/-!
DEFINITION. Operands: reading a source of every class and writing a lane destination, with the last-result shift and the zeroing
of inactive lanes (R36-R42, R94, R114, R122).
-/
namespace Sys2Proof

/-- A register of a 64- or 128-bit operand: the next ones of a V operand (R114), zero for ZERO. -/
def Opnd.next (o : Opnd) (k : Nat) : Opnd :=
  match o with
  | .v n => .v (n + k)
  | o => if k = 0 then o else .zero

/-- The operand of the field at a place of the form. -/
def Form.at (f : Form) (p : Pos) : Opnd :=
  match f.flds.find? (fun x => x.pos == p) with
  | some x => f.opnd x
  | none => .zero

/-- The fourth operand: OP4 where O4EN is set, else the old destination (R43, R126). -/
def Form.opC (f : Form) : Opnd := if f.p.o4en then opndOf f.p.op4 else f.at .d

/-- The first `n` registers of an operand. -/
def Opnd.span (o : Opnd) (n : Nat) : List Opnd := (List.range n).map o.next

/-- The registers that a word reads, in a lane or for the group: its operands (R36-R38, R43, R126), and what its effect reads beside them. -/
def Form.reads (f : Form) : List Opnd :=
  f.flds.flatMap (fun x => match x.cls with
    | .src _ | .uniform _ | .sSrc | .sRegSrc | .modeSrc => [f.opnd x]
    | .srcN n | .stData n => (f.opnd x).span n
    | .vOnly n => if x.pos = .d then [] else (f.opnd x).span n
    | .atomT n cas => (f.opnd x).span (if cas then 2 * n else n)
    | .tripleSrc => tripleRegs x.code
    | _ => [])
  ++ (match f.dagger with
      | some n => f.opC.span n
      | none => [])
  ++ f.also

/-- The registers a lane destination of `n` words names; none for L0 and ZERO (R36). -/
def Opnd.dstRegs (o : Opnd) (n : Nat) : List Machine.LReg :=
  match o with
  | .v r => (List.range n).map (fun k => .v (r + k))
  | .q r => [.q r]
  | _ => []

end Sys2Proof

namespace Sys2Proof.Machine

/-- The value of an operand in the lane at a LANEIX (R36, R37). -/
def readOpnd (t : Team) (g : Group) (lit : Word) (o : Opnd) (i : Nat) : Word :=
  match o with
  | .v n => (t.lane (g.first + i)).v.get n
  | .q n => (t.lane (g.first + i)).q.get n
  | .l n => (t.lane (g.first + i)).l.get n
  | .zero => 0
  | .laneix => BitVec.ofNat 32 i
  | .imm => lit
  | .s n => g.s.get n
  | .bad => 0

/-- The literal of the instruction. -/
def Iss.lit (q : Iss) : Word := q.fm.lit.getD 0

/-- Read an operand in a lane of the issuing group. -/
def Iss.rd (q : Iss) (o : Opnd) (i : Nat) : Word := readOpnd q.t q.g q.lit o i

/-- The a, b and d operands of an issue. -/
def Iss.opA (q : Iss) : Opnd := q.fm.at .a
def Iss.opB (q : Iss) : Opnd := q.fm.at .b
def Iss.opD (q : Iss) : Opnd := q.fm.at .d

/-- a and b in the lane at a LANEIX. -/
def Iss.a (q : Iss) (i : Nat) : Word := q.rd q.opA i
def Iss.b (q : Iss) (i : Nat) : Word := q.rd q.opB i

/-- The 64-bit operand a in a lane: a pair or ZERO (R38, R114). -/
def Iss.a64 (q : Iss) (i : Nat) : DWord := cat64 (q.rd (q.opA.next 1) i) (q.rd q.opA i)

/-- The fourth operand of a lane, and its 64-bit form. An old destination that names no register reads 0. -/
def Iss.cVal (q : Iss) (i : Nat) : Word := q.rd q.fm.opC i
def Iss.c64 (q : Iss) (i : Nat) : DWord := cat64 (q.rd (q.fm.opC.next 1) i) (q.rd q.fm.opC i)

/-- The uniform operand at a place: S0-S7, the literal or ZERO (R94). -/
def Iss.uni (q : Iss) (p : Pos) : Word := q.rd (q.fm.at p) 0

/-! ### Formats (R308) -/

/-- K of a format code. -/
def mfK (c : Nat) : Nat :=
  if [1, 2, 28, 29].contains c then 16
  else if [7, 10, 11, 16, 22, 25, 27, 30, 31].contains c then 64 else 32

/-- Element bytes of a line. -/
def mfL (c : Nat) : Nat :=
  if [5, 6, 14, 15, 20, 21].contains c then 24 else if c = 30 then 16 else if c = 31 then 8 else 32

/-- Scale bytes of a line. -/
def mfSigma (c : Nat) : Nat :=
  if [12, 13, 17, 14, 15, 28, 29].contains c then 1
  else if [16, 18, 19, 23, 20, 21].contains c then 2
  else if [22, 24, 26, 25, 27].contains c then 4 else 0

/-- Bytes of an image of n lines (R309). -/
def mfImage (n c : Nat) : Nat := n * (mfL c + mfSigma c)

/-! ### B blocks (R313) -/

/-- Registers of a B block in a group of E lanes. -/
def blockRegs (c e : Nat) : Nat := (mfImage 32 c + 4 * e - 1) / (4 * e)

/-- The first register of a block operand. -/
def blockFirst : Opnd → Nat
  | .v n => n
  | _ => 0

/-! ### Reads of other lanes (R104-R106) -/

/-- A position of the group holds a lane in range: it exists and has not exited (R104). -/
def Iss.inRange (q : Iss) (j : Nat) : Bool := decide (j < q.g.count) && !(q.t.lane (q.lid j)).exited

/-- The position whose a a lane read takes: the one named, where a lane in range is there, else the lane's own (R105). -/
def Iss.source (q : Iss) (i : Nat) (j : Int) : Nat := if 0 ≤ j ∧ q.inRange j.toNat then j.toNat else i

/-! ### Uncorrectable errors in registers (R236) -/

/-- A per-lane register holds an uncorrectable error (R236). -/
def Lane.bad (ln : Lane) : Opnd → Bool
  | .v n => ln.ue.contains (.v n)
  | .q n => ln.ue.contains (.q n)
  | .l n => ln.ue.contains (.l n)
  | _ => false

/-- An S register holds an uncorrectable error (R236). -/
def Group.bad (g : Group) : Opnd → Bool
  | .s n => g.ue.contains n
  | _ => false

/-- The S registers that a word reads beside its operands: the triple of its guard, where its effect reads EXEC, and the triple of a branch
condition (R9, R41, R59, R352). -/
def Iss.maskReads (q : Iss) : List Opnd :=
  let tri := fun (k : Nat) => (List.range 3).map (fun j => Opnd.s (8 + 3 * k + j))
  let gen := q.fm.p.gen
  (if q.fm.noExec then []
   else if gen then tri q.fm.p.gsel.toNat
   else if q.f.jr.length = 0 then tri (mrGuard q.g.mr) else [])
  ++ (if q.fm.cond = 0 then [] else tri (q.fm.cond - 1))

/-- The lanes whose registers a word reads: those of EXEC, or of them the lowest alone for V2S, LDMB, SEGLD and TLBINV.va
(R139, R314, R366, R367). -/
def Iss.readers (q : Iss) : List Nat :=
  let low := q.fm.flds.any (fun x => match x.cls with
    | .vOnly _ => q.fm.major = 0x2D || q.fm.major = 0x30
    | .sRegDst => q.fm.major = 5
    | _ => false)
  if low then q.lanes.take 1 else q.lanes

/-- The old destination that a conversion from f32 into one half of it keeps (R41, R175, R177). -/
def Iss.oldHalf (q : Iss) : List Opnd := if q.fm.intoHalf && q.etype = 2 then [q.fm.at .d] else []

/-- A lane meets an uncorrectable error: in a register of its own that it reads, or, for a lane read, in the a it takes (R104, R236). -/
def Iss.laneBad (q : Iss) (i : Nat) : Bool :=
  match q.fm.far with
  | none => (q.fm.reads ++ q.oldHalf).any (q.t.lane (q.lid i)).bad
  | some k =>
    (q.t.lane (q.lid i)).bad (q.fm.at .b)
    || (q.t.lane (q.lid (q.source i (k.pos i (q.rd (q.fm.at .b) i))))).bad (q.fm.at .a)

/-- MEM_UE where the instruction reads a word with an uncorrectable error: a FRAG word of its fragment, an S register, or a register of a
lane (R236, R337; log 19, DESIGN CHOICE). A word that the handler is to emulate reads no register here but those of its guard (R351). -/
def Iss.regError (q : Iss) : Option Trap :=
  let emulated := q.fm.major = 6 && !q.s.fuses.sku.contains 6
  if q.f.ue || ((if emulated then [] else q.fm.reads) ++ q.maskReads).any q.g.bad then some (q.trap clsMemUe)
  else if emulated then none
  else (q.readers.find? q.laneBad).map (fun i => q.trapAt clsMemUe i)

/-- Write a V or Q register of a lane. L0 and ZERO write no register (R36). -/
def Lane.setReg (ln : Lane) (r : LReg) (x : Word) : Lane :=
  let ue := ln.ue.filter (· != r)
  match r with
  | .v n => { ln with v := ln.v.set n x, ue := ue }
  | .q n => { ln with q := ln.q.set n x, ue := ue }
  | .l n => { ln with l := ln.l.set n x, ue := ue }

/-- Write registers and values pairwise into a lane. -/
def Lane.setRegs (ln : Lane) : List LReg → List Word → Lane
  | r :: rs, x :: xs => (ln.setReg r x).setRegs rs xs
  | _, _ => ln

/-- Write the result words of each lane of a list of LANEIX into the destination registers, shifting the last-result file with the
low word where `shift` is set (R122). -/
def Team.writeLanes (t : Team) (g : Group) (regs : List LReg) (shift : Bool) (val : Nat → List Word) (ixs : List Nat) : Team :=
  ixs.foldl (fun t i =>
    t.modLane (g.first + i) (fun ln =>
      let ws := val i
      let ln := ln.setRegs regs ws
      if shift then ln.shiftL (ws.headD 0) else ln)) t

/-- Write zero into the destination registers of the fragment's lanes outside EXEC, for MZ = 1 (R41). -/
def Team.zeroInactive (t : Team) (g : Group) (f : Frag) (ex : Mask) (mz : Bool) (regs : List LReg) : Team :=
  if mz then (maskList (f.mask &&& ~~~ex)).foldl (fun t i =>
      t.modLane (g.first + i) (fun ln => ln.setRegs regs (List.replicate regs.length 0))) t
  else t

/-- The team after a short-latency result of `n` words in every lane of EXEC (R36, R41, R122). The values are those read before any
write (R9), since `val` reads the issue's own team. -/
def Iss.laneResult (q : Iss) (n : Nat) (val : Nat → List Word) : Team :=
  let regs := q.opD.dstRegs n
  (q.t.zeroInactive q.g q.f q.ex q.fm.p.mz regs).writeLanes q.g regs true val q.lanes

/-- The state after a short-latency lane result of one word. -/
def Iss.result (q : Iss) (val : Nat → Word) : State := q.modTeam (fun _ => q.laneResult 1 (fun i => [val i]))

/-- The state after a short-latency 64-bit lane result (R114, R122). -/
def Iss.result64 (q : Iss) (val : Nat → DWord) : State :=
  q.modTeam (fun _ => q.laneResult 2 (fun i => [lo32 (val i), hi32 (val i)]))

/-- A pending result of `n` words in each lane of EXEC, with the zeros of MZ, for a long-latency instruction (R41, R49). -/
def Iss.pending (q : Iss) (n : Nat) (val : Nat → List Word) : List PWrite :=
  let regs := q.opD.dstRegs n
  q.lanes.flatMap (fun i => (regs.zip (val i)).map (fun p => { lid := q.lid i, reg := p.1, val := p.2 }))

/-- The pending zeros of the fragment's lanes outside EXEC under MZ (R41). -/
def Iss.pendingZeros (q : Iss) (n : Nat) : List PWrite :=
  if q.fm.p.mz then
    (maskList (q.f.mask &&& ~~~q.ex)).flatMap (fun i =>
      (q.opD.dstRegs n).map (fun r => { lid := q.lid i, reg := r, val := 0 }))
  else []

end Sys2Proof.Machine
end

