-- ==== Sys2Proof/Machine/Issue.lean ====
section
/-!
DEFINITION. The issue of a group instruction, shared by every meaning: the order of traps (R337), the delivery of lookahead windows
(R49-R52), what every issue counts (R200, R202, R210, R215, R230), and the effect.
-/
namespace Sys2Proof.Machine

/-! ### Lookahead windows -/

/-- Write one pending register of a lane. -/
def Team.applyPend (t : Team) (p : PWrite) : Team := t.modLane p.lid (fun ln => ln.setReg p.reg p.val)

/-- Deliver the result of a window of some lanes to its group: those lanes' registers, or, of a B block, those of every lane that it covers, the
triple, the sticky flags (R49, R101, R161, R314). -/
def Team.deliver (t : Team) (gi : Nat) (lids : List Nat) (w : Window) : Team :=
  let t := (w.pend.filter (fun p => w.whole || lids.contains p.lid)).foldl Team.applyPend t
  t.modGroup gi (fun g =>
    let g := { g with flags := g.flags ||| w.flags }
    match w.triple with
    | some (n, lids, cov) => g.mergeTriple n lids cov
    | none => g)

/-- Deliver and close the windows of a fragment that satisfy a test and whose instruction has completed. -/
def Team.deliverWhere (t : Team) (gi fi : Nat) (p : Window → Bool) : Team :=
  match (t.body.groups[gi]?).bind (fun g => g.frags[fi]?) with
  | none => t
  | some f =>
    let due := f.wins.filter (fun w => w.done && p w)
    let lids := ((t.body.groups[gi]?).map (fun g => g.lids f.mask)).getD []
    let t := due.foldl (fun t w => t.deliver gi lids w) t
    t.modGroup gi (fun g => g.modFrag fi (fun f => { f with wins := f.wins.filter (fun w => !(w.done && p w)) }))

/-- A window that must have closed before the fragment's next instruction issues: its count has run out, or the instruction closes
windows (R49, R51). -/
def Window.due (closing : Bool) (w : Window) : Bool := closing || (!w.lk15 && w.remaining == 0)

/-- What of a banked window's destination a handler word can reach in place: group-scope state, and the V registers outside the reserve
(R52, R54, R352). `lo` and `hi` bound the reserve. -/
def targetOutside (lo hi : Nat) : Target → List Target
  | .v a n => ((List.range n).map (a + ·)).filterMap (fun r => if lo ≤ r && r < hi then none else some (Target.v r 1))
  | .q _ => []
  | .s a n => [.s a n]

/-- The windows banked in a fragment's handler levels (R54). -/
def Frag.banked (f : Frag) : List Window := f.jr.flatMap (·.wins)

/-- The registers a word writes meet an open window: of its own fragment, banked ones included, or, for group-scope state, of any
fragment (R52, R54). -/
def lkhdHit (g : Group) (f : Frag) (fi lo hi : Nat) (ts : List Target) : Bool :=
  f.wins.any (fun w => w.dst.any (fun d => ts.any d.meets))
  || f.banked.any (fun w => (w.dst.flatMap (targetOutside lo hi)).any (fun d => ts.any d.meets))
  || g.frags.zipIdx.any (fun p => p.2 != fi
        && (p.1.wins ++ p.1.banked).any (fun w => w.dst.any (fun d => d.groupScope && ts.any d.meets)))

/-- Open a window of the issuing fragment (R49, R50). -/
def Group.openWindow (g : Group) (fi : Nat) (w : Window) : Group := g.modFrag fi (fun f => { f with wins := f.wins ++ [w] })

/-! ### Debug comparators on the pc (R361) -/

/-- The fields of a comparator (R360). -/
def cmpEn (c : BitVec 128) : Bool := c.getLsbD 0
def cmpDacc (c : BitVec 128) : Nat := bitsOf c 2 1
def cmpCtx (c : BitVec 128) : Nat := bitsOf c 31 16
def cmpLidOk (c : BitVec 128) (lid : Nat) : Bool := decide (bitsOf c 47 32 ≤ lid) && decide (lid ≤ bitsOf c 63 48)
def cmpAddr (c : BitVec 128) : Nat := bitsOf c 115 64
def cmpIgn (c : BitVec 128) : Nat := bitsOf c 121 116

/-- The comparators of the team's core. -/
def State.comparators (s : State) (t : Team) : List (BitVec 128) :=
  match t.core? with
  | some n => ((s.cores[n]?).map (·.cmps)).getD []
  | none => []

/-- The PC comparator that matches for the lowest lid of EXEC, the first of them, with that lid (R337, R361). -/
def Iss.pcMatch (q : Iss) : Option (Nat × Nat) :=
  let hits := ((q.s.comparators q.t).take 8).zipIdx.filterMap (fun p =>
    if cmpEn p.1 && cmpCtx p.1 == q.t.ctx && cmpAddr p.1 == q.c.addr.toNat && q.f.skipCmp != some p.2 then
      (q.lanes.find? (fun i => cmpLidOk p.1 (q.lid i))).map (fun i => (p.2, q.lid i))
    else none)
  minBy (fun h => h.2) hits

/-! ### What every issue counts -/

/-- The beats of a group: 32-lane slices that hold an existing lane (R88). -/
def Group.beats (g : Group) : Nat := (g.count + 31) / 32

/-- The index of a port in a core's list (R210). -/
def portIx : Port → Nat
  | .sfu => 0
  | .memory => 1
  | .matrixIssue => 2

/-- The registers of the block that an MSTART reads (R313, R315). -/
def blockRead (fm : Form) (t : Team) (g : Group) : List Span :=
  if fm.major = 0x2E then
    [(blockFirst (fm.at .a), blockRegs (bitsOf (readOpnd t g (fm.lit.getD 0) (fm.at .b) 0) 4 0) g.count)]
  else []

/-- The cycles of one beat of a word (R210). -/
def cyclesAt (fm : Form) (t : Team) (g : Group) : Nat := beatCycles (fm.bankReads ++ blockRead fm t g)

/-- The charge that a cluster's record has taken in the running cycle (R215). -/
def State.chargeOf (s : State) (cluster : Nat) : Nat := ((s.clusters[cluster]?).map (·.charge)).getD 0

/-- Charge a cluster's record (R215). -/
def State.addCharge (s : State) (cluster w : Nat) : State := s.modCluster cluster (fun c => { c with charge := c.charge + w })

/-- Charge the record of a core's cluster with what a team issues there; at level 2 the trailing cluster issues it too, and is charged, here where
its core holds what the leading one does, and by its own issue else (R215, R387). -/
def State.chargeClusters (s : State) (t : Team) (n w : Nat) : State :=
  let s := s.addCharge (n / 2) w
  if t.pairSlot.isSome && t.trail.isNone then s.addCharge (n / 2 + 1) w else s

/-- Hold the pipe and the port of an issue, and charge its clusters (R210, R215). -/
def State.chargeIssue (s : State) (t : Team) (g : Group) (fm : Form) (ex : Mask) : State :=
  match t.core? with
  | none => s
  | some n =>
    let cyc := g.beats * cyclesAt fm t g
    let s := s.modCore n (fun c =>
      let c := { c with pipeBusy := listModify c.pipeBusy g.pipe (fun _ => cyc) }
      match fm.port with
      | some p => { c with portBusy := listModify c.portBusy (portIx p) (fun _ => cyc) }
      | none => c)
    s.chargeClusters t n (fm.weight * (maskList ex).length)

/-- Use up one issue of a pre-emption's grace (R371). -/
def Group.spendGrace (g : Group) : Group := { g with grace := g.grace.map (· - 1) }

/-- The events of a team as its issue leaves them: a branch of a checked team is told to Telltale, with the fragment that issues it (R389). -/
def Iss.told (q : Iss) (t : Team) : List TelEvent :=
  if q.fm.branch && t.pairSlot.isSome then
    t.tel ++ [{ kind := 4, op := q.fm.major, group := q.c.g, pc := q.c.addr.toNat,
                lanes := [{ lid := q.f.lowest q.g, mask := 0, addr := 0, data := q.f.mask.toNat }] }]
  else t.tel

/-- Count an issue: the clock outside the handler, the hang count, the slot's issue count, the fragment's windows; and move the pc past
the instruction (R30, R49, R53, R200, R202, R230). An instruction that waits counts on the clock here, at its issue, before its wait ends (log
57, DEDUCED). -/
def Iss.account (q : Iss) : State :=
  let s := q.modGroup (fun g =>
    let g := { g.spendGrace with clock := if q.f.jr.length = 0 then g.clock + 1 else g.clock, hang := g.hang + 1 }
    g.modFrag q.c.f (fun f =>
      { f with pc := q.c.addr + BitVec.ofNat 64 q.c.len, count := f.count + 1, wins := f.wins.map Window.count, skipCmp := none }))
  (s.modTeam q.c.team (fun t => { t with issued := true, tel := q.told t })).chargeIssue q.t q.g q.fm q.ex

/-- Count the issue of a word whose fate is JURYRIG: it completes only at EMRET, so neither the clock nor a window counts it here, and
the pc is left to the entry (R49, R230, R352). -/
def Iss.accountFate (q : Iss) : State :=
  let s := q.modGroup (fun g =>
    { (g.spendGrace.modFrag q.c.f (fun f => { f with count := f.count + 1, skipCmp := none })) with hang := g.hang + 1 })
  (s.modTeam q.c.team (fun t => { t with issued := true })).chargeIssue q.t q.g q.fm q.ex

/-! ### The issue -/

/-- What the effect of an instruction comes to. -/
inductive Eff where
  /-- its effect -/
  | ok (s : State)
  /-- it stalls, to issue again (R224) -/
  | hold (w : Wait)
  /-- it traps, and has no effect (R336) -/
  | trap (t : Trap)

/-- The least trap by the order of R337. -/
def firstTrap (l : List Trap) : Option Trap := minBy Trap.rank l

/-- The reserve of a role: its first register and the one past it (R119). -/
def Header.reserveSpan (h : Header) (k : Nat) : Nat × Nat := (h.budget k - 16, h.budget k)

/-- Issue a word of a form: `ok` is its ILLEGAL check under the budget, `tg` gives the registers it writes (R52), `acct` what the issue
counts, `eff` its effect on the state that the issue has counted in. The trap of the lowest rank is taken (R337), else the effect
stands. What traps or stalls at its issue holds no pipe or port and charges nothing (R210, R215; log 64, DESIGN CHOICE). -/
def issueForm (fm : Form) (closing : Bool) (ok : Nat → Bool) (tg : Iss → List Target) (acct : Iss → State) (eff : Iss → Eff) (s : State) :
    Host.Outcome State Fault Refusal :=
  match s.issuer fm with
  | none => .refused .noIssuer
  | some q0 =>
    let s := { (s.modTeam q0.c.team (fun t => t.deliverWhere q0.c.g q0.c.f (Window.due closing))) with cur := s.cur }
    match s.issuer fm with
    | none => .refused .noIssuer
    | some q =>
      let s0 := { s with cur := none }
      match q.pcMatch with
      | some (n, lid) =>
        .next (s0.takeTrap q.c.team { mkTrap q.t q.g q.f q.c clsDebug lid with sub := 4, detail := n, cmp := some n })
      | none =>
        if !ok (q.t.hdr.budget q.g.role) then .next (s0.takeTrap q.c.team { q.trap clsIllegal with len := q.c.trapLen })
        else
          let s1 := acct q
          match s1.issuer fm with
          | none => .refused .noIssuer
          | some q1 =>
            let r := eff { q1 with s := { s1 with cur := none }, ex := q.ex }
            let res := q.t.hdr.reserveSpan q.g.role
            let traps := (match r with
                | .trap t => [t]
                | _ => [])
              ++ (if fm.overlaps then [q.trap clsOverlap] else [])
              ++ (if lkhdHit q.g q.f q.c.f res.1 res.2 (tg q) then [q.trap clsLkhd] else [])
              ++ q.regError.toList
            match firstTrap traps with
            | some t => .next (s0.takeTrap q.c.team t)
            | none =>
              match r with
              | .ok s2 => .next s2
              | .hold w => .next (s0.modTeam q.c.team (fun t => t.modGroup q.c.g (fun g => g.modFrag q.c.f (fun f => { f with wait := w }))))
              | .trap t => .next (s0.takeTrap q.c.team t)

/-- Issue a group instruction. -/
def issueWith (i : Instr) (tg : Iss → List Target) (acct : Iss → State) (eff : Iss → Eff) (s : State) : Host.Outcome State Fault Refusal :=
  match i.form with
  | none => .refused .noIssuer
  | some fm => issueForm fm i.closesWindows fm.ok tg acct eff s

/-- Issue an instruction whose written registers are those its form gives (R52). -/
def issue (i : Instr) (eff : Iss → Eff) (s : State) : Host.Outcome State Fault Refusal :=
  issueWith i (fun q => q.fm.targets) Iss.account eff s

/-- Issue an instruction that, past its decode checks, always has its effect. -/
def issueOk (i : Instr) (eff : Iss → State) (s : State) : Host.Outcome State Fault Refusal :=
  issue i (fun q => .ok (eff q)) s

end Sys2Proof.Machine
end

