-- ==== Sys2Proof/Machine/Translate.lean ====
section
/-!
DEFINITION. Physical memory, poison, the two-stage walk, the TLBs and the checks of a translation (R22, R255, R344-R349, R402, R409).
-/
namespace Sys2Proof.Machine

/-! ### Physical memory -/

/-- The size of a channel (R22). -/
def State.channelSize (s : State) : Nat := if s.fuses.partX then 2 ^ 33 else 2 ^ 32

/-- The channel of a physical address below the aperture, if one holds it (R22). -/
def State.channelOf (s : State) (pa : Nat) : Option Nat :=
  let n := pa / s.channelSize
  if n < 32 then some n else none

/-- The host aperture (R402). -/
def inAperture (pa : Nat) : Bool := decide (2 ^ 45 ≤ pa) && decide (pa < 2 ^ 46)

/-- Whether a physical address stands for memory. -/
def State.hasMemory (s : State) (pa : Nat) : Bool := (s.channelOf pa).isSome || inAperture pa

/-- One committed byte: of LPDDR6, or of host memory through the aperture (R402). -/
def State.physByte (s : State) (pa : Nat) : Byte := if inAperture pa then s.hostMem.get (pa - 2 ^ 45) else s.mem.get pa

/-- The committed little-endian value of n bytes (R3). -/
def State.physRead (s : State) (pa n : Nat) : Nat := if inAperture pa then s.hostMem.readNat (pa - 2 ^ 45) n else s.mem.readNat pa n

/-- Poison after a write: cleared in the 64-bit words it covers whole (R255). -/
def clearPoison (p : List Nat) (pa n : Nat) : List Nat := p.filter (fun w => !(decide (pa ≤ 8 * w) && decide (8 * w + 8 ≤ pa + n)))

/-- Note which of some bytes, written from an address on, are zero (R5, R283). -/
def noteZeros (z : Cells 1) (pa : Nat) (l : List Byte) : Cells 1 := z.setRange pa (l.map (fun b => if b = 0 then 1 else 0))

/-- Write n bytes of committed memory (R3, R255). -/
def State.physWrite (s : State) (pa n x : Nat) : State :=
  let s := { s with zeroed := noteZeros s.zeroed pa (bytesOfNat n x) }
  if inAperture pa then { s with hostMem := s.hostMem.writeNat (pa - 2 ^ 45) n x }
  else { s with mem := s.mem.writeNat pa n x, poison := clearPoison s.poison pa n }

/-- Whether any 64-bit word that [pa, pa + n) touches is poisoned (R255). -/
def State.poisoned (s : State) (pa n : Nat) : Bool := s.poison.any (fun w => decide (8 * w < pa + n) && decide (pa < 8 * w + 8))

/-- The part makes a PCIe memory request where an access of a function goes through the aperture (R402). -/
def State.hostRequest (s : State) (fn : Fn) (write : Bool) (pa n : Nat) : State :=
  if inAperture pa then { s with hostReq := some { fn := fn, write := write, addr := pa - 2 ^ 45, len := n } } else s

/-! ### L2 standing (R254, R256): data is held once, in memory (log 13, DEDUCED) -/

/-- The home bank of a physical address (R254). -/
def State.bankOf (s : State) (pa : Nat) : Option Nat := (s.channelOf pa).map (fun n => 2 * n + natBits pa 8 8)

/-- The set of a line number (R254). -/
def setOfLine (line : Nat) : Nat := line / 2 % 512

/-- Change one bank. -/
def State.modBank (s : State) (b : Nat) (f : Bank → Bank) : State := { s with banks := listModify s.banks b f }

/-- The priority of a hint code: none gives normal (R250, R256). -/
def hintPrio (h : Nat) : Nat := if h = 1 then 3 else if h = 2 then 1 else if h = 3 then 0 else 2

/-- A way for a line among the ways that may take it: a free one, else that of the victim, which leaves (R256, R271). -/
def Bank.makeRoom (b : Bank) (line : Nat) (ok : Nat → Bool) : Option (Nat × Bank) :=
  let here := b.lines.filter (fun x => setOfLine x.line == setOfLine line)
  let free := (List.range 16).find? (fun w => ok w && !(here.any (fun x => x.way == w)))
  match free with
  | some w => some (w, b)
  | none =>
    match minBy (fun x => x.prio * 2 ^ 64 + x.stamp) (here.filter (fun x => ok x.way && x.owner.isNone)) with
    | some v => some (v.way, { b with lines := b.lines.filter (fun x => x != v) })
    | none => none

/-- The lookups of a window of the estimator (R257). -/
def windowLookups : Nat := 65536

/-- Count a lookup of a bank; the last of a window closes it (R257). -/
def Bank.count (b : Bank) (miss : Bool) : Bank :=
  let n := b.misses + miss.toNat
  if windowLookups ≤ b.lookups + 1 then { b with lookups := 0, misses := 0, windows := b.windows ++ [n] }
  else { b with lookups := b.lookups + 1, misses := n }

/-- An access of a CACHED page reaches its home bank: a hit or a miss, its fill, its priority and its dirty bit (R254-R257). What counts as
a lookup and a miss, and the priority after the fill of a further sector, are log 58's (DESIGN CHOICE). -/
def State.l2Touch (s : State) (pa : Nat) (write : Bool) (hint : Nat) : State :=
  match s.bankOf pa with
  | none => s
  | some bi =>
    let line := pa / 256
    let sec : BitVec 8 := BitVec.ofNat 8 (2 ^ natBits pa 7 5)
    let s := { s with stamp := s.stamp + 1 }
    s.modBank bi (fun b =>
      let hit := b.lines.any (fun x => x.line == line && x.owner.isNone)
      let b := b.count (!hit)
      if hit then
        { b with lines := b.lines.map (fun x =>
            if x.line == line && x.owner.isNone then
              { x with valid := x.valid ||| sec, dirty := if write then x.dirty ||| sec else x.dirty, stamp := s.stamp,
                       prio := if hint = 0 then x.prio else hintPrio hint }
            else x) }
      else
        match b.makeRoom line (fun w => b.ways.getLsbD w) with
        | none => b
        | some (w, b) =>
          { b with lines := b.lines ++ [{ line := line, way := w, valid := sec, dirty := if write then sec else 0, prio := hintPrio hint,
                                          stamp := s.stamp, owner := none }] })

/-- An access of a CACHED page by the team whose version copy it meets: a hit on that copy, and its priority (R256, R257, R269). -/
def State.l2Version (s : State) (tid pa hint : Nat) : State :=
  match s.bankOf pa with
  | none => s
  | some bi =>
    let s := { s with stamp := s.stamp + 1 }
    s.modBank bi (fun b => { b.count false with lines := b.lines.map (fun x =>
      if x.line == pa / 256 && x.owner == some tid then
        { x with stamp := s.stamp, prio := if hint = 0 then x.prio else hintPrio hint }
      else x) })

/-! ### Page walks -/

/-- A translation failure: stage, level, reason (R349), and whether it met a table address (kind walk). -/
structure XErr where
  stage : Nat
  level : Nat
  reason : Nat
  walk : Bool := false
  deriving DecidableEq, Repr

/-- A leaf: page base, log2 of the page size, W, X and MT. -/
structure Leaf where
  base : Nat
  size : Nat
  w : Bool
  x : Bool
  mt : MemType
  deriving DecidableEq, Repr

/-- The memory type of a table entry (R345). -/
def mtOf (n : Nat) : MemType := if n = 0 then .cached else if n = 1 then .writeCombine else if n = 2 then .uncached else .device

/-- The place of a memory type in the order of R258. -/
def mtRank : MemType → Nat
  | .cached => 0
  | .writeCombine => 1
  | .uncached => 2
  | .device => 3

/-- The later of two types (R258). -/
def mtLater (a b : MemType) : MemType := if mtRank a < mtRank b then b else a

/-- What a table entry of a level says: a malformed or absent entry, a pointer, or a leaf (R344, R345). -/
inductive Pte where
  | absent
  | malformed
  | table (base : Nat)
  | leaf (l : Leaf)
  deriving DecidableEq, Repr

/-- Read a table entry (R344, R345). A leaf's base not aligned to its page is malformed. -/
def pteOf (level x : Nat) : Pte :=
  if natBits x 0 0 = 0 then .absent
  else if natBits x 11 7 ≠ 0 || natBits x 63 46 ≠ 0 then .malformed
  else
    let t := natBits x 1 1 = 1
    let addr := natBits x 45 12 * 2 ^ 12
    let psz := natBits x 4 4
    if t then
      if level = 3 || psz ≠ 0 || natBits x 6 5 ≠ 0 then .malformed else .table addr
    else if level < 2 then .malformed
    else
      let size := if level = 3 then (if psz = 1 then 16 else 12) else (if psz = 1 then 29 else 21)
      if addr % 2 ^ size ≠ 0 then .malformed
      else .leaf { base := addr, size := size, w := natBits x 2 2 = 1, x := natBits x 3 3 = 1, mt := mtOf (natBits x 6 5) }

/-- The index bits of a level (R344). -/
def pteIndex (level a : Nat) : Nat :=
  if level = 0 then a / 2 ^ 39 else if level = 1 then natBits a 38 30 else if level = 2 then natBits a 29 21 else natBits a 20 12

/-- The level of a leaf (R344). -/
def Leaf.level (l : Leaf) : Nat := if l.size ≤ 16 then 3 else 2

/-- A walk down from a level: `rd` reads a level's table entry at an address of the stage's own kind (R346). -/
def walkFrom (rd : Nat → Nat → Except XErr Nat) (stage a : Nat) : Nat → Nat → Nat → Except XErr Leaf
  | 0, level, _ => .error { stage := stage, level := level, reason := 4 }
  | f + 1, level, base =>
    match rd level (base + 8 * pteIndex level a) with
    | .error e => .error e
    | .ok x =>
      match pteOf level x with
      | .absent => .error { stage := stage, level := level, reason := 0 }
      | .malformed => .error { stage := stage, level := level, reason := 4 }
      | .leaf l => .ok l
      | .table b => walkFrom rd stage a f (level + 1) b

/-- The addresses of the table entries that a walk reads, in order (R346). -/
def walkReads (rd : Nat → Nat → Except XErr Nat) (a : Nat) : Nat → Nat → Nat → List Nat
  | 0, _, _ => []
  | f + 1, level, base =>
    let at_ := base + 8 * pteIndex level a
    at_ :: (match rd level at_ with
      | .error _ => []
      | .ok x =>
        match pteOf level x with
        | .table b => walkReads rd a f (level + 1) b
        | _ => [])

/-- Read a level's table entry from physical memory; a poisoned word fails with reason 5 (R346, R349). -/
def State.readEntry (s : State) (stage level pa : Nat) : Except XErr Nat :=
  if !s.hasMemory pa then .error { stage := stage, level := level, reason := 4 }
  else if s.poisoned pa 8 then .error { stage := stage, level := level, reason := 5 }
  else .ok (s.physRead pa 8)

/-- The channels of a tenant's partitions (R409). -/
def State.tenantChannels (s : State) (ten : Nat) : Nat :=
  s.parts.foldl (fun m p => if p.en && p.owner = ten then m ||| p.chan.toNat else m) 0

/-- The physical page of a stage-2 leaf belongs to the tenant: its channels, or the aperture with a type other than CACHED (R402,
R409). -/
def State.leafAllowed (s : State) (ten : Nat) (l : Leaf) : Bool :=
  if inAperture l.base then decide (l.mt ≠ .cached)
  else match s.channelOf l.base with
    | some n => (s.tenantChannels ten).testBit n
    | none => false

/-- The stage-2 walk of an intermediate address (R344, R346, R349). -/
def State.stage2 (s : State) (ten ia : Nat) : Except XErr Leaf :=
  match s.tenants[ten]? with
  | none => .error { stage := 2, level := 0, reason := 4 }
  | some t =>
    if bitsOf t.ialim 45 21 * 2 ^ 21 ≤ ia then .error { stage := 2, level := 0, reason := 2 }
    else
      match walkFrom (s.readEntry 2) 2 ia 4 0 (bitsOf t.s2root 45 10 * 2 ^ 10) with
      | .error e => .error e
      | .ok l => if s.leafAllowed ten l then .ok l else .error { stage := 2, level := l.level, reason := 4 }

/-- The address inside a leaf's page. -/
def Leaf.addr (l : Leaf) (a : Nat) : Nat := l.base + a % 2 ^ l.size

/-- Read a level's stage-1 table entry: its intermediate address is translated by a stage-2 walk (R346). -/
def State.readStage1 (s : State) (ten level ia : Nat) : Except XErr Nat :=
  match s.stage2 ten ia with
  | .error e => .error { e with walk := true }
  | .ok l =>
    match s.readEntry 1 level (l.addr ia) with
    | .error e => .error { e with walk := true }
    | .ok x => .ok x

/-- The two-stage walk of a virtual address: the combined entry for its page (R346). -/
def State.walk (s : State) (ten root va : Nat) : Except XErr TlbEntry :=
  match walkFrom (s.readStage1 ten) 1 va 4 0 root with
  | .error e => .error e
  | .ok l1 =>
    match s.stage2 ten (l1.addr va) with
    | .error e => .error e
    | .ok l2 =>
      let size := min l1.size l2.size
      .ok { ctx := 0, vpage := va / 2 ^ size, size := size, ppage := l2.addr (l1.addr va) / 2 ^ size,
            w := l1.w && l2.w, x := l1.x && l2.x, mt := mtLater l1.mt l2.mt,
            w1 := l1.w, x1 := l1.x, mt1 := l1.mt, level1 := l1.level, level2 := l2.level }

/-- The physical addresses that the stage-2 walk of an intermediate address reads (R346). -/
def State.stage2Reads (s : State) (ten ia : Nat) : List Nat :=
  match s.tenants[ten]? with
  | none => []
  | some t =>
    if bitsOf t.ialim 45 21 * 2 ^ 21 ≤ ia then [] else walkReads (s.readEntry 2) ia 4 0 (bitsOf t.s2root 45 10 * 2 ^ 10)

/-- A walk's reads reach the L2 home banks: the stage-2 walk of each stage-1 table entry, the entry, and the stage-2 walk of the leaf's
address (R257, R346). -/
def State.touchWalk (s : State) (ten root va : Nat) : State :=
  let entries := walkReads (s.readStage1 ten) va 4 0 root
  let leaf := match walkFrom (s.readStage1 ten) 1 va 4 0 root with
    | .ok l => [l.addr va]
    | .error _ => []
  let reads := entries.flatMap (fun ia => s.stage2Reads ten ia ++ (match s.stage2 ten ia with
      | .ok l => [l.addr ia]
      | .error _ => [])) ++ leaf.flatMap (s.stage2Reads ten)
  reads.foldl (fun s pa => (s.l2Touch pa false 0).hostRequest (.vf ten) false pa 8) s

/-! ### TLBs (R348; replacement: log 6, DESIGN CHOICE) -/

/-- An entry maps an address of a context. -/
def TlbEntry.maps (e : TlbEntry) (ctx va : Nat) : Bool := e.ctx == ctx && e.vpage == va / 2 ^ e.size

/-- The physical address under an entry. -/
def TlbEntry.pa (e : TlbEntry) (va : Nat) : Nat := e.ppage * 2 ^ e.size + va % 2 ^ e.size

/-- Add an entry, the oldest leaving a full TLB. -/
def tlbAdd (cap : Nat) (l : List TlbEntry) (e : TlbEntry) : List TlbEntry := (e :: l).take cap

/-- A context of a tenant (R409, R413). -/
def State.ownCtx (s : State) (ten ctx : Nat) : Bool := s.ctxs.any (fun c => c.num == ctx && c.tenant == ten)

/-- The stage-1 root of a context, for the tenant that owns it (R344, R409, R413). -/
def State.ctxRoot (s : State) (ten ctx : Nat) : Option Nat :=
  (s.ctxs.find? (fun c => c.num == ctx && c.tenant == ten)).map (·.root.toNat)

/-- Look up or walk: the entry for an address, with the TLBs of the core filled by a successful walk (R348). -/
def State.lookup (s : State) (core : Option Nat) (ten ctx va : Nat) : State × Except XErr TlbEntry :=
  let hit1 := core.bind (fun n => (s.cores[n]?).bind (fun c => c.tlb.find? (fun e => e.maps ctx va)))
  match hit1 with
  | some e => (s, .ok e)
  | none =>
    let hit2 := core.bind (fun n => (s.clusters[n / 2]?).bind (fun c => c.tlb.find? (fun e => e.maps ctx va)))
    let fill1 := fun (s : State) e => match core with
      | some n => s.modCore n (fun c => { c with tlb := tlbAdd 64 c.tlb e })
      | none => s
    match hit2 with
    | some e => (fill1 s e, .ok e)
    | none =>
      match s.ctxRoot ten ctx with
      | none => (s, .error { stage := 1, level := 0, reason := 0 })
      | some root =>
        let r := s.walk ten root va
        let s := s.touchWalk ten root va
        match r with
        | .error e => (s, .error e)
        | .ok e =>
          let e := { e with ctx := ctx }
          let s := fill1 s e
          (match core with
           | some n => s.modCluster (n / 2) (fun c => { c with tlb := tlbAdd 2048 c.tlb e })
           | none => s, .ok e)

/-- The kind code of an access in a report (R340). -/
def akCode : AccessKind → Nat
  | .fetch => 0
  | .load => 1
  | .store => 2
  | .atomic => 3
  | .engine => 4
  | .walk => 5

/-- What an access asks of its page: its kind, whether it writes, its size (R259, R347). -/
structure Acc where
  kind : AccessKind
  write : Bool
  size : Nat
  deriving DecidableEq, Repr

/-- The permission and memory-type checks of a page (R259, R347, R402). -/
def Acc.check (a : Acc) (e : TlbEntry) (pa : Nat) : Option Nat :=
  if a.kind = .fetch then (if e.x then none else some 1)
  else if a.write && (!e.w || e.x) then some 1
  else if a.kind = .atomic && (e.mt = .writeCombine || e.mt = .device || inAperture pa) then some 3
  else if a.size = 16 && e.mt = .device then some 3
  else none

/-- The stage and level that refuse an access with a reason: for a permission, stage 1 where its own bits refuse, for a type the stage that
gives it (R340, R346, R349; log 14, DEDUCED). -/
def TlbEntry.refusal (e : TlbEntry) (a : Acc) (pa reason : Nat) : XErr :=
  let first := if reason = 1 then (if a.kind = .fetch then !e.x1 else e.x || !e.w1) else !inAperture pa && e.mt1 == e.mt
  { stage := if first then 1 else 2, level := if first then e.level1 else e.level2, reason := reason }

/-- Translate one address: beyond 2^52 reason 2, else by TLB or walk, then the checks (R240, R347, R349). -/
def State.translate (s : State) (core : Option Nat) (ten ctx va : Nat) (a : Acc) : State × Except XErr (Nat × MemType) :=
  if 2 ^ 52 ≤ va then (s, .error { stage := 1, level := 0, reason := 2 })
  else
    match s.lookup core ten ctx va with
    | (s, .error e) => (s, .error e)
    | (s, .ok e) =>
      match a.check e (e.pa va) with
      | some r => (s, .error (e.refusal a (e.pa va) r))
      | none => (s, .ok (e.pa va, e.mt))

/-- log2 of the size of the page that a TLB of the core holds for an address just translated (R259, R348). -/
def State.pageSize (s : State) (core : Option Nat) (ctx va : Nat) : Nat :=
  ((core.bind (fun n => (s.cores[n]?).bind (fun c => c.tlb.find? (fun e => e.maps ctx va)))).map (·.size)).getD 12

/-- Bytes 60 to 63 of an XLATE report (R340). -/
def XErr.word (e : XErr) (k : AccessKind) : Word :=
  BitVec.ofNat 32 (e.stage + 4 * e.level + 16 * (if e.walk then 5 else akCode k) + 256 * e.reason)

/-- The failure that such bytes report. -/
def XErr.ofWord (w : Word) : XErr := { stage := bitsOf w 1 0, level := bitsOf w 3 2, reason := bitsOf w 15 8, walk := bitsOf w 7 4 == 5 }

/-- The stage whose owner serves the fault: reason 0 only (R349, R350). -/
def XErr.served (e : XErr) : Option Nat := if e.reason = 0 then some e.stage else none

end Sys2Proof.Machine
end

