-- ==== Sys2Proof/Machine/Memory.lean ====
section
/-!
DEFINITION. Accesses to memory as they are performed: the L2's standing lines and write combining (R254-R259), versions of tasks
(R268-R271), L1 copies (R243, R265), and the finishing of accesses in flight (R245, R248, R255, R279, R313).
-/
namespace Sys2Proof.Machine

/-! ### Versions (R268-R271) -/

/-- The byte a team sees over a committed one (R269). -/
def Team.verByte (t : Team) (pa : Nat) (b : Byte) : Byte :=
  match t.versions.find? (fun v => v.line == pa / 256) with
  | some v => if v.written.testBit (pa % 256) then v.data.get (pa % 256) else b
  | none => b

/-- Whether any open version holds a line (R269). -/
def State.versionOpen (s : State) (line : Nat) : Bool := s.teams.any (fun t => t.versions.any (fun v => v.line == line))

/-- The value a team reads at a physical address: its version over the committed data (R269). -/
def State.readFor (s : State) (t : Team) (pa n : Nat) : Nat :=
  if t.versions.isEmpty then s.physRead pa n
  else natOfBytes ((List.range n).map (fun k => t.verByte (pa + k) (s.physByte (pa + k))))

/-- Write bytes into a version line: the poison of the 64-bit words it covers whole goes (R255, R268). -/
def VLine.write (v : VLine) (off n x : Nat) : VLine :=
  { v with written := v.written ||| ((2 ^ n - 1) * 2 ^ off), data := v.data.writeNat off n x,
           bad := (List.range 32).foldl (fun b i =>
             if v.bad.testBit i && !(decide (off ≤ 8 * i) && decide (8 * i + 8 ≤ off + n)) then b + 2 ^ i else b) 0 }

/-- Whether a team's GLOBAL and LOCAL writes are versioned: at levels 1 and 2, every one (R268). -/
def Team.versioned (t : Team) : Bool := decide (t.levelNow ≠ 0)

/-- The written bytes of a line cover its 64-bit word of a number whole. -/
def wordWhole (written w : Nat) : Bool := natBits written (8 * (w % 32) + 7) (8 * (w % 32)) == 255

/-- The version copies of open tasks in a line's home set (R271). -/
def Bank.versionsIn (b : Bank) (line : Nat) : Nat :=
  (b.lines.filter (fun x => setOfLine x.line == setOfLine line && x.owner.isSome)).length

/-- Why a version line cannot be taken: TASKFOOT reached, set full (R271). -/
def State.versionBar (s : State) (t : Team) (pa : Nat) : Bool × Bool :=
  (decide (t.hdr.taskfoot ≤ t.versions.length),
   match (s.bankOf pa).bind (fun b => s.banks[b]?) with
   | some b => decide (8 ≤ b.versionsIn (pa / 256))
   | none => false)

/-- Take a version line for a team's first write to it: a way from 0 to 7, re-enabled if gated, its L1 copies dropped (R257, R269,
R271). A line behind the aperture has no home bank, so it takes no way (R254, R402; log 32, DEDUCED). The taking counts as a lookup and a miss
(log 58, DESIGN CHOICE). -/
def State.takeVersion (s : State) (tid pa : Nat) : State :=
  let line := pa / 256
  let s := s.modTeam tid (fun t => { t with versions := t.versions ++ [{ line := line, written := 0, data := [] }] })
  let cores : List Core := s.cores.map (fun (c : Core) => { c with l1 := c.l1.filter (fun x => x.sector / 8 != line) })
  let s : State := { s with stamp := s.stamp + 1, cores := cores }
  match s.bankOf pa with
  | none => s
  | some bi => s.modBank bi (fun b =>
      let b := b.count true
      match b.makeRoom line (fun w => decide (w < 8)) with
      | none => b
      | some (w, b) =>
        let e : L2Line := { line := line, way := w, valid := 0, dirty := 0, prio := 2, stamp := s.stamp, owner := some tid }
        { b with ways := b.ways ||| BitVec.ofNat 16 (2 ^ w), lines := b.lines ++ [e] })

/-- The sectors of a version line that hold a written byte: they are the dirty ones (R255, R268). -/
def VLine.dirty (v : VLine) : BitVec 8 :=
  BitVec.ofNat 8 ((List.range 8).foldl (fun b i => if natBits v.written (32 * i + 31) (32 * i) = 0 then b else b + 2 ^ i) 0)

/-- A version copy takes the place of the committed line, if one stands: its dirty sectors join that line's (R255, R270). It keeps its way as a
committed line whatever the type of its page, of a page too whose accesses do not allocate (R259; log 32, DESIGN CHOICE). -/
def L2Line.commit (x : L2Line) (versions : List VLine) (old : Option L2Line) : L2Line :=
  let d := ((versions.find? (fun v => v.line == x.line)).map VLine.dirty).getD 0
  { x with owner := none, valid := d ||| ((old.map (·.valid)).getD 0), dirty := d ||| ((old.map (·.dirty)).getD 0) }

/-- The lines of a team that the L2 holds as versions become committed or are dropped (R270). -/
def State.releaseVersionLines (s : State) (tid : Nat) (keep : Bool) : State :=
  let versions := ((s.team? tid).map (·.versions)).getD []
  { s with banks := s.banks.map (fun b =>
      let mine := b.lines.filter (fun x => x.owner == some tid)
      let stands := fun (n : Nat) (x : L2Line) => x.owner.isNone && x.line == n
      let rest := b.lines.filter (fun x => !(x.owner == some tid) && !(keep && mine.any (fun m => stands m.line x)))
      { b with lines := rest ++ (if keep then mine.map (fun x => x.commit versions (b.lines.find? (stands x.line))) else []) }) }

/-- Write the listed bytes of a line of memory; the poison of the words they cover whole goes, whichever stores wrote them (R255; log 60,
DEDUCED). -/
def State.writeMasked (s : State) (line written : Nat) (data : Cells 8) : State :=
  (List.range 256).foldl (fun s o => if written.testBit o then s.physWrite (line * 256 + o) 1 (data.get o).toNat else s)
    { s with poison := s.poison.filter (fun w => !(w / 32 == line && wordWhole written w)) }

/-- A 64-bit word of the part's own memory is poisoned (R255). -/
def State.poisonWord (s : State) (w : Nat) : State :=
  if s.poison.contains w then s else { s with poison := insertBy (fun w => w) w s.poison }

/-- Commit a team's version: every written byte replaces the committed byte, as one write, and poison goes with the words it stands in
(R255, R270). -/
def State.commitVersion (s : State) (tid : Nat) : State :=
  match s.team? tid with
  | none => s
  | some t =>
    let s := t.versions.foldl (fun s v =>
      (List.range 32).foldl (fun s i => if v.bad.testBit i then s.poisonWord (v.line * 32 + i) else s)
        ((s.writeMasked v.line v.written v.data).hostRequest (.vf t.tenant) true (v.line * 256) 256)) s
    (s.releaseVersionLines tid true).modTeam tid (fun t => { t with versions := [] })

/-- Discard a team's version (R270). -/
def State.discardVersion (s : State) (tid : Nat) : State :=
  (s.releaseVersionLines tid false).modTeam tid (fun t => { t with versions := [] })

/-! ### Write combining (R259) -/

/-- The function whose requests the accesses of a team, or of a card's engine, become: the VF of its tenant, or the PF (R402, R417). -/
def State.requester (s : State) (id : Nat) : Fn :=
  match s.team? id with
  | some t => .vf t.tenant
  | none =>
    match s.cards.find? (fun c => c.id == id) with
    | some c => if c.tenant = 16 then .pf else .vf c.tenant
    | none => .pf

/-- Write the listed bytes of a combining entry to memory. -/
def State.drainEntry (s : State) (e : WcEntry) : State :=
  let s := s.writeMasked e.line e.written e.data
  match e.owners.head? with
  | some o => s.hostRequest (s.requester o.1) true (e.line * 256) 256
  | none => s

/-- A group stored into a combining entry, or any group of a team, or the engine of a card, did (R259, R286). -/
def WcEntry.ofGroup (tid gi : Nat) (e : WcEntry) : Bool := e.owners.contains (tid, gi)
def WcEntry.ofTeam (tid : Nat) (e : WcEntry) : Bool := e.owners.any (fun o => o.1 == tid)

/-- The bank that combines a line; aperture lines, which have no home bank, are combined by line number. -/
def State.wcBank (s : State) (pa : Nat) : Nat := (s.bankOf pa).getD (pa / 256 % 64)

/-- Drain the entries that satisfy a test (R259). -/
def State.drainWc (s : State) (p : WcEntry → Bool) : State :=
  let es := s.banks.flatMap (fun b => b.wc.filter p)
  es.foldl State.drainEntry { s with banks := s.banks.map (fun b => { b with wc := b.wc.filter (fun e => !p e) }) }

/-- Drain the entry of the line of an address (R259). -/
def State.drainLine (s : State) (pa : Nat) : State := s.drainWc (fun e => e.line == pa / 256)

/-- Merge a store into the combining entry of its line; a full entry drains (R259). -/
def State.wcWrite (s : State) (tid gi pa n x : Nat) : State :=
  let line := pa / 256
  let off := pa % 256
  let bi := s.wcBank pa
  let old := ((s.banks[bi]?).bind (fun b => b.wc.find? (fun e => e.line == line))).getD { line := line, owners := [], written := 0, data := [] }
  let e : WcEntry :=
    { old with owners := if old.owners.contains (tid, gi) then old.owners else old.owners ++ [(tid, gi)],
               written := old.written ||| ((2 ^ n - 1) * 2 ^ off), data := old.data.writeNat off n x }
  let s := s.modBank bi (fun b => { b with wc := b.wc.filter (fun y => y.line != line) })
  if e.written = 2 ^ 256 - 1 then s.drainEntry e else s.modBank bi (fun b => { b with wc := b.wc ++ [e] })

/-- An access to committed data past every L1, by an agent that goes by the page's type: combining entries drain, a CACHED page's sectors are
looked up in their home banks, and of another page behind the aperture the host is asked (R257, R259, R286, R402). -/
def State.reach (s : State) (fn : Fn) (write : Bool) (pa n : Nat) (mt : MemType) : State :=
  let sectors := (List.range ((pa % 32 + n + 31) / 32)).map (fun k => pa / 32 * 32 + 32 * k)
  let s := sectors.foldl (fun s a => if mt = .cached then (s.drainLine a).l2Touch a write 0 else s.drainLine a) s
  if mt = .cached then s else s.hostRequest fn write pa n

/-! ### L1 copies (R243, R265; log 5, DESIGN CHOICE) -/

/-- The sector copy a core holds. -/
def Core.l1Find (c : Core) (pa : Nat) : Option L1Sector := c.l1.find? (fun x => x.sector == pa / 32)

/-- A store of the core's own agents updates the sector it holds (R243). -/
def Core.l1Store (c : Core) (pa n x : Nat) : Core :=
  { c with l1 := c.l1.map (fun e =>
      if e.sector == pa / 32 then
        { e with data := (e.data.zipIdx.map (fun p =>
            if pa % 32 ≤ p.2 && p.2 < pa % 32 + n then BitVec.ofNat 8 (x / 2 ^ (8 * (p.2 - pa % 32))) else p.1)) }
      else e) }

/-- Drop a line from a core's L1 (R251, R265). -/
def Core.l1Drop (c : Core) (pa : Nat) : Core := { c with l1 := c.l1.filter (fun x => x.sector / 8 != pa / 256) }

/-- Drop a line from the L1 of a core, where there is one (R251, R264, R279). -/
def State.l1DropAt (s : State) (core : Option Nat) (pa : Nat) : State :=
  match core with
  | some c => s.modCore c (fun k => k.l1Drop pa)
  | none => s

/-- The 256-byte L1 lines a core has room for (R233, R243). -/
def Core.l1Room (c : Core) : Nat := (2048 - c.pb3) * 4

/-- Keep the lines that the L1 has room for, the newest of them (R233; log 5, DESIGN CHOICE). -/
def Core.l1Trim (c : Core) : Core :=
  let lines := (dedupNat (c.l1.map (fun x => x.sector / 8))).take c.l1Room
  { c with l1 := c.l1.filter (fun x => lines.contains (x.sector / 8)) }

/-- The TLB, L1 and instruction caches of a core are empty, and nothing stands in its accumulator slots (R27, R408). -/
def Core.wipe (c : Core) : Core := { c with tlb := [], l1 := [], code := [], ops := [], acc := [] }

/-- Fill a sector with the committed bytes of now. -/
def State.l1Fill (s : State) (core pa : Nat) : State :=
  let e : L1Sector := { sector := pa / 32, stamp := s.stamp + 1, data := bytesOfNat 32 (s.physRead (pa / 32 * 32) 32) }
  { s.modCore core (fun c => { c with l1 := e :: c.l1.filter (fun x => x.sector != pa / 32) }.l1Trim) with stamp := s.stamp + 1 }

/-! ### Reads and writes of an agent -/

/-- A CACHED read by a team reaches the L2: its own version copy of the line, or the committed copy, which fills the core's L1 where no
version is open and the line is not behind the aperture (R243, R256, R269). -/
def State.cachedRead (s : State) (t : Team) (pa hint : Nat) : State :=
  if t.versions.any (fun v => v.line == pa / 256) then s.l2Version t.id pa hint
  else
    let s := s.l2Touch pa false hint
    match t.core? with
    | some c => if s.versionOpen (pa / 256) || inAperture pa then s else s.l1Fill c pa
    | none => s

/-- Read for a group of a team: the combining entry of the line drains first; a CACHED page may answer from L1 when `keepL1` asks and
R265 allows, and else fills it (R243, R259, R264, R265). A read past the L1 leaves no L1 copy of the core older than itself. -/
def State.agentRead (s : State) (tid : Nat) (l1Stamp : Nat) (keepL1 : Bool) (pa n : Nat) (mt : MemType) (hint : Nat) : State × Nat :=
  match s.team? tid with
  | none => (s, 0)
  | some t =>
    let s := s.drainLine pa
    match mt with
    | .cached =>
      (match t.core?.bind (fun c => (s.cores[c]?).bind (fun k => k.l1Find pa)) with
       | some e =>
         if keepL1 && decide (l1Stamp ≤ e.stamp) then (s, natOfBytes ((e.data.drop (pa % 32)).take n))
         else (s.cachedRead t pa hint, s.readFor t pa n)
       | none => (s.cachedRead t pa hint, s.readFor t pa n))
    | _ =>
      let s := s.hostRequest (.vf t.tenant) false pa n
      (s.l1DropAt t.core? pa, s.readFor t pa n)

/-- A write of committed data by an agent, a team's of a core or a card's engine (R286): into the combining buffer, or into memory, where the core's L1 copy takes it (R243,
R259, R264). -/
def State.committedWrite (s : State) (core : Option Nat) (tid gi pa n x : Nat) (mt : MemType) (hint : Nat) : State :=
  let onCore := fun (s : State) (f : Core → Core) => match core with
    | some c => s.modCore c f
    | none => s
  match mt with
  | .writeCombine => onCore (s.wcWrite tid gi pa n x) (fun k => k.l1Drop pa)
  | .cached => onCore (((s.drainLine pa).l2Touch pa true hint).physWrite pa n x) (fun k => k.l1Store pa n x)
  | _ =>
    let s := onCore ((s.drainLine pa).physWrite pa n x) (fun k => k.l1Store pa n x)
    s.hostRequest (s.requester tid) true pa n

/-- Write for a team: into its version at levels 1 and 2, else committed data. A CACHED write gives the version copy its hint's priority
(R256, R268). -/
def State.agentWrite (s : State) (tid gi pa n x : Nat) (mt : MemType) (hint : Nat) : State :=
  match s.team? tid with
  | none => s
  | some t =>
    if t.versioned then
      let s := if t.versions.any (fun v => v.line == pa / 256) then s else s.takeVersion tid pa
      let s := if mt = .cached then s.l2Version tid pa hint else s
      s.modTeam tid (fun t => { t with versions := t.versions.map (fun v => if v.line == pa / 256 then v.write (pa % 256) n x else v) })
    else s.committedWrite t.core? tid gi pa n x mt hint

/-! ### Atomic arithmetic (R278) -/

/-- op(old, v) of an atomic, by operation code (R56), element type and size in bytes. -/
def atomicNew (op e size : Nat) (ftz : Bool) (old v : Nat) : Nat :=
  let n := 8 * size
  let halves := fun (f : Nat → Nat → Nat) =>
    ofElems (etWidth e) ((List.range (32 / etWidth e)).map (fun k =>
      f (natBits old (etWidth e * k + etWidth e - 1) (etWidth e * k)) (natBits v (etWidth e * k + etWidth e - 1) (etWidth e * k))))
  let f := etFmt e
  let signed := e = 0
  let less := if signed then decide (sextNat n v < sextNat n old) else decide (v < old)
  if op = 0 then (old + v) % 2 ^ n
  else if op = 1 then (if less then v else old)
  else if op = 2 then (if less then old else v)
  else if op = 3 then old &&& v
  else if op = 4 then old ||| v
  else if op = 5 then old ^^^ v
  else if op = 6 then v
  else if op = 8 then
    halves (fun a b => (({ f := f, mode := 0, rv := 0, ftz := ftz } : RCtx).add (f.input ftz a) (f.input ftz b)).1)
  else
    halves (fun a b =>
      let a := a % 2 ^ (f.width - 1)
      let b := b % 2 ^ (f.width - 1)
      if (f.decode a).isNan || (f.decode b).isNan then f.nan else max a b)

/-- The types an atomic operation allows (R278). -/
def atomicTypeOk (op e : Nat) : Bool :=
  if op ≤ 2 then e == 0 || e == 1
  else if op = 8 || op = 9 then etFloat e
  else true

/-! ### Accesses in flight -/

/-- Change a window of a group, wherever it stands: in a fragment or banked in its handler levels (R54). -/
def Group.modWindow (g : Group) (id : Nat) (f : Window → Window) : Group :=
  let on := fun (l : List Window) => l.map (fun w => if w.id == id then f w else w)
  { g with frags := g.frags.map (fun r => { r with wins := on r.wins, jr := r.jr.map (fun lv => { lv with wins := on lv.wins }) }) }

/-- Remove a window of a group. -/
def Group.dropWindow (g : Group) (id : Nat) : Group :=
  let on := fun (l : List Window) => l.filter (fun w => w.id != id)
  { g with frags := g.frags.map (fun r => { r with wins := on r.wins, jr := r.jr.map (fun lv => { lv with wins := on lv.wins }) }) }

/-- The window of an identity in a fragment. -/
def Frag.window? (f : Frag) (id : Nat) : Option Window := (f.wins ++ f.jr.flatMap (·.wins)).find? (fun w => w.id == id)

/-- The fragments that hold a window: the one that opened it, or the pieces that it has split into (R54, R190). -/
def Group.holders (g : Group) (id : Nat) : List Frag := g.frags.filter (fun f => (f.window? id).isSome)

/-- Add pending register writes to a window (R245, R248). -/
def Window.addPend (w : Window) (l : List PWrite) : Window := { w with pend := w.pend ++ l }

/-- The pending writes of a value of n words in a lane (R248). -/
def pendWords (lid : Nat) (t : Opnd) (n x : Nat) : List PWrite :=
  ((t.dstRegs n).zipIdx).map (fun p => { lid := lid, reg := p.1, val := BitVec.ofNat 32 (x / 2 ^ (32 * p.2)) })

/-- The place of a byte of a part: its page may end inside the part. -/
def Part.byteAt (p : Part) (k : Nat) : Nat := if k < p.cut then p.pa + k else p.pa2 + (k - p.cut)

/-- The type of the page of a byte of a part (R259). -/
def Part.typeAt (p : Part) (k : Nat) : MemType := if k < p.cut then p.mt else p.mt2

/-- A part lies in one page at a multiple of its size, so that it is one access (R242). -/
def Part.whole (p : Part) : Bool := decide (p.size ≤ p.cut) && p.pa % p.size == 0

/-- Whether a byte lies in a poisoned word that the team would read: of its version copy, or of the committed copy, which a version that
holds the whole word hides (R255, R269). -/
def State.bytePoisoned (s : State) (t : Team) (pa : Nat) : Bool :=
  let committed := s.poison.contains (pa / 8) && !inAperture pa
  match t.versions.find? (fun v => v.line == pa / 256) with
  | some v => v.bad.testBit (pa / 8 % 32) || (committed && !wordWhole v.written (pa / 8))
  | none => committed

/-- Whether a part's words hold an uncorrectable error: poison, or a scratch word (R236, R255). -/
def State.partPoisoned (s : State) (t : Team) (p : Part) : Bool :=
  if p.blind then false
  else if p.scratch then t.body.scratchUE.any (fun w => decide (4 * w < p.pa + p.size) && decide (p.pa < 4 * w + 4))
  else (List.range p.size).any (fun k => s.bytePoisoned t (p.byteAt k))

/-- The combining entries of the lines under a part drain before the part is read (R259). -/
def State.drainPart (s : State) (p : Part) : State :=
  if p.scratch then s else (s.drainLine (p.byteAt 0)).drainLine (p.byteAt (p.size - 1))

/-- What a part brings to which no request answers: a free value of its size (R388; log 17, DESIGN CHOICE). -/
def State.strayValue (s : State) (p : Part) : Nat := (Config.strayWord s.freeCount p.lid p.ix).toNat % 2 ^ (8 * p.size)

/-- Read a part: from the scratchpad or from memory. -/
def State.readPart (s : State) (tid : Nat) (l1Stamp : Nat) (keepL1 : Bool) (p : Part) (hint : Nat) : State × Nat :=
  if p.blind then (s, s.strayValue p)
  else if p.scratch then (s, ((s.team? tid).map (fun t => t.body.scratch.readNat p.pa p.size)).getD 0)
  else if p.whole then s.agentRead tid l1Stamp keepL1 p.pa p.size p.mt hint
  else (List.range p.size).foldl (fun (acc : State × Nat) k =>
    let r := acc.1.agentRead tid l1Stamp keepL1 (p.byteAt k) 1 (p.typeAt k) hint
    (r.1, acc.2 + r.2 * 2 ^ (8 * k))) (s, 0)

/-- Scratch words with an error after a write that covers them whole (R236). -/
def clearScratchUE (l : List Nat) (a n : Nat) : List Nat := l.filter (fun w => !(decide (a ≤ 4 * w) && decide (4 * w + 4 ≤ a + n)))

/-- The poison of the words that a part covers whole in memory is gone, once its bytes are there (R255). -/
def State.clearPart (s : State) (p : Part) : State :=
  let there := fun (l : List Nat) (mt : MemType) (pa n : Nat) => if mt = .writeCombine then l else clearPoison l pa n
  { s with poison := there (there s.poison p.mt p.pa (min p.cut p.size)) p.mt2 p.pa2 (p.size - p.cut) }

/-- Write a part of a card: CARD space is not versioned (R268, R289). -/
def State.writeCard (s : State) (core : Option Nat) (tid gi : Nat) (p : Part) : State :=
  if p.blind then s
  else ((List.range p.size).foldl (fun s k => s.committedWrite core tid gi (p.byteAt k) 1 (p.data / 2 ^ (8 * k)) (p.typeAt k) 0) s).clearPart p

/-- Write a part: to the scratchpad or to memory. -/
def State.writePart (s : State) (tid gi : Nat) (p : Part) (x hint : Nat) : State :=
  if p.blind then s
  else if p.scratch then s.modTeam tid (fun t => t.modBody (fun b =>
    { b with scratch := b.scratch.writeNat p.pa p.size x, scratchUE := clearScratchUE b.scratchUE p.pa p.size }))
  else if p.whole then s.agentWrite tid gi p.pa p.size x p.mt hint
  else
    let s' := (List.range p.size).foldl (fun s k => s.agentWrite tid gi (p.byteAt k) 1 (x / 2 ^ (8 * k)) (p.typeAt k) hint) s
    if ((s.team? tid).map Team.versioned).getD true then s' else s'.clearPart p

/-- Change an access in flight. -/
def Group.modOp (g : Group) (id : Nat) (f : Op → Op) : Group := { g with flight := g.flight.map (fun o => if o.id == id then f o else o) }

/-- Sign-extend a loaded value of 1 or 2 bytes to 32 bits (R248). -/
def extendLoad (sx : Bool) (size x : Nat) : Nat :=
  if sx && decide (size < 4) then intMod 32 (sextNat (8 * size) x) else x

/-- The L2 sees the read of an atomic on a CACHED page that writes nothing, in the team's version copy or the committed line; one that writes
is seen as its write (R257, R269, R279). -/
def State.l2Seen (s : State) (t : Team) (p : Part) (hint : Nat) : State :=
  if p.scratch || p.mt != .cached then s
  else if t.versions.any (fun v => v.line == p.pa / 256) then s.l2Version t.id p.pa hint
  else s.l2Touch p.pa false hint

/-- The kinds of access that read their bytes. -/
def OpKind.reads : OpKind → Bool
  | .load .. | .atomic .. | .block .. => true
  | _ => false

/-- Perform one part of an access (R248, R251, R276, R279, R313). -/
def State.performPart (s : State) (tid gi : Nat) (o : Op) (keepL1 : Bool) (p : Part) : State :=
  let s := if o.kind.reads then s.drainPart p else s
  match s.team? tid with
  | none => s
  | some t =>
    let stamp := ((t.body.groups[gi]?).map (·.l1Stamp)).getD 0
    let onG := fun (s : State) (f : Group → Group) => s.modTeam tid (fun t => t.modGroup gi f)
    let bad := fun (s : State) => onG s (fun g => g.modOp o.id (fun o =>
      let here := (p.lid, if p.scratch then 0 else p.va)
      { o with poisoned := match o.poisoned with
          | some (l, e) => if p.lid < l then some here else some (l, e)
          | none => some here }))
    match o.kind with
    | .load d n sx =>
      if s.partPoisoned t p then bad s
      else
        let (s, x) := s.readPart tid stamp keepL1 p o.hint
        onG s (fun g => g.modWindow o.id (fun w =>
          w.addPend (pendWords p.lid (d.next (2 * p.ix)) (min n 2) (extendLoad sx p.size x))))
    | .store .. => s.writePart tid gi p p.data o.hint
    | .card => s.writeCard t.core? tid gi p
    | .atomic op e _ ret =>
      if s.partPoisoned t p then bad s
      else
        let (s, old) := s.readPart tid s.stamp false { p with mt := if p.mt = .cached then .uncached else p.mt } o.hint
        let s := if p.scratch then s else s.l1DropAt t.core? p.pa
        let s := if op = 7 && old ≠ p.data then s.l2Seen t p o.hint
          else s.writePart tid gi p (if op = 7 then p.data2 else atomicNew op e p.size (mrFtz o.mr) old p.data) o.hint
        let s := if p.scratch then s else s.l1DropAt t.core? p.pa
        (match ret with
         | some (d, n) => onG s (fun g => g.modWindow o.id (fun w => w.addPend (pendWords p.lid d n old)))
         | none => s)
    | .block .. =>
      if s.partPoisoned t p then bad s
      else
        let (s, x) := s.readPart tid stamp keepL1 p o.hint
        onG s (fun g => g.modOp o.id (fun o => { o with got := o.got.writeNat p.ix p.size x }))
    | .cache f =>
      if f = 0 then
        (if p.mt = .cached then
           (List.range 8).foldl (fun s k => (s.agentRead tid stamp false (p.pa / 256 * 256 + 32 * k) 1 p.mt o.hint).1) s
         else s)
      else if f = 1 then
        (match s.bankOf p.pa with
         | some b => s.modBank b (fun b => { b with lines := b.lines.map (fun x =>
             if x.line == p.pa / 256 && x.owner.isNone then { x with dirty := 0 } else x) })
         | none => s)
      else
        s.l1DropAt t.core? p.pa

/-- The bytes of a B block placed over the existing lanes of a group (R313). -/
def blockPend (g : Group) (first n : Nat) (img : Cells 8) (size : Nat) : List PWrite :=
  (List.range n).flatMap (fun r => (List.range g.count).map (fun i =>
    let b := 4 * g.count * r + 4 * i
    { lid := g.first + i, reg := .v (first + r),
      val := BitVec.ofNat 32 (natOfBytes ((List.range 4).map (fun k => if b + k < size then img.get (b + k) else 0))) }))

/-- Take finished accesses off their path in order (R245). -/
def popDone (path : Nat) : List Op → List Op
  | [] => []
  | o :: rest => if o.path = path && o.fin then popDone path rest else if o.path = path then o :: rest else o :: popDone path rest

/-- The in-flight counter of a path (R244). -/
def Group.counter (g : Group) (path : Nat) : Nat := (g.flight.filter (fun o => o.path == path)).length

/-- The kinds of access whose completion resets the hang count: stores, atomics and REDM (R202). -/
def OpKind.resetsHang : OpKind → Bool
  | .store .. | .atomic .. => true
  | _ => false

/-- The window of an identity was opened by an instruction outside the handler, which the logical clock counted (R54, R230). -/
def Frag.openedOutside (f : Frag) (id : Nat) : Bool :=
  match f.jr.getLast? with
  | none => true
  | some lv => lv.wins.any (fun w => w.id == id)

/-- MEM_UE of an access whose data was poisoned: the window's result is dropped, the clock no longer counts the instruction, and the
lanes of the fragments that hold the window are trapped. A group word that the handler emulates while it banks the window has issued in it
(R53, R54, R230, R241, R341; log 65, DEDUCED). -/
def State.lateUe (s : State) (tid gi id lid va : Nat) : State :=
  match (s.team? tid).bind (fun t => (t.body.groups[gi]?).map (fun g => (t, g))) with
  | none => s
  | some (t, g) =>
    let held := g.holders id
    match ((held.filter (fun f => (g.lids f.mask).contains lid) ++ held).head?).bind (fun f => (f.window? id).map (fun w => (f, w))) with
    | none => s
    | some (f, w) =>
      let s := s.modTeam tid (fun t => t.modGroup gi (fun g =>
        let g := g.dropWindow id
        if f.openedOutside id then { g with clock := g.clock - 1 } else g))
      let level := f.jr.find? (fun lv => lv.wins.any (fun w => w.id == id))
      let n := w.issued + (level.any (fun lv => !lv.stream)).toNat
      s.takeTrap tid { id := 0, cls := clsMemUe, depth := f.jr.length, g := gi, pc := w.addr, lid := lid, wins := min n 255,
                       addr := BitVec.ofNat 64 va, task := t.body.task, lids := held.flatMap (fun f => g.lids f.mask), len := 0,
                       late := n ≠ 0, win := some id, bank := level.map (·.id) }

/-- A finished access: its window's result is complete; its counter falls in order; the hang count resets after a store or an atomic;
MEM_UE is raised where a word was poisoned, or kept in the window while another trap holds the fragment's lanes: a lane is held by at most
one unanswered trap (R53, R202, R241, R245, R341). -/
def State.finishAccess (s : State) (tid gi : Nat) (o : Op) : State :=
  match (s.team? tid).bind (fun t => (t.body.groups[gi]?).map (fun g => (t, g))) with
  | none => s
  | some (t, g) =>
    let s := s.modTeam tid (fun t => t.modGroup gi (fun g =>
      let g := { g with flight := popDone o.path (g.flight.map (fun (x : Op) => if x.id == o.id then { x with fin := true } else x)),
                        hang := if o.kind.resetsHang then 0 else g.hang }
      match o.kind with
      | .block first n size => g.modWindow o.id (fun w => { w.addPend (blockPend g first n o.got size) with done := true })
      | _ => g.modWindow o.id (fun w => { w with done := true })))
    match o.poisoned with
    | none => s
    | some (lid, va) =>
      if (g.holders o.id).any (fun f => (g.lids f.mask).any t.trapped) then
        s.modTeam tid (fun t => t.modGroup gi (fun g => g.modWindow o.id (fun w => { w with ue := some (lid, va) })))
      else s.lateUe tid gi o.id lid va

/-- The MEM_UE that the windows of a group keep, by window: the first of each fragment (R53, R341). -/
def Group.kept (g : Group) : List (Nat × Nat × Nat) :=
  g.frags.filterMap (fun f => (f.wins ++ f.jr.flatMap (·.wins)).findSome? (fun w => w.ue.map (fun e => (w.id, e))))

/-- Raise the kept MEM_UE of a group's windows whose holders no trap holds any more (R53, R341). -/
def State.raiseKept (s : State) (tid gi : Nat) : State :=
  ((((s.team? tid).bind (fun t => t.body.groups[gi]?)).map Group.kept).getD []).foldl (fun s k =>
    match (s.team? tid).bind (fun t => (t.body.groups[gi]?).map (fun g => (t, g))) with
    | none => s
    | some (t, g) =>
      if (g.holders k.1).any (fun f => (g.lids f.mask).any t.trapped) then s else s.lateUe tid gi k.1 k.2.1 k.2.2) s

/-- Two parts of one lane touch overlapping bytes of one space: by virtual address or scratch offset, or in memory (R262, R264). -/
def Part.meets (p q : Part) : Bool :=
  p.lid == q.lid && p.scratch == q.scratch
  && (decide (p.va < q.va + q.size) && decide (q.va < p.va + p.size)
      || (!p.scratch && (List.range p.size).any (fun k => (List.range q.size).any (fun j => p.byteAt k == q.byteAt j))))

/-- The order in which the lanes of one instruction are performed: ascending lid under DET, else an order left open (R242, R279; log 9, DESIGN CHOICE).
A 16-byte store takes its two halves apart. -/
def orderParts (det : Bool) (draw : Nat) (l : List Part) : List Part :=
  if det then sortBy (fun p => p.lid * 64 + p.ix) l
  else sortBy (fun p => Config.laneKey draw (p.lid * 2 + p.ix % 2)) l

/-- Perform the selected parts of an access in flight, and finish it when none is left (R245). -/
def State.performOp (s : State) (tid gi id : Nat) (sel : Part → Bool) (keepL1 : Bool) : State :=
  match (s.team? tid).bind (fun t => t.body.groups[gi]?) with
  | none => s
  | some g =>
    match g.flight.find? (fun o => o.id == id) with
    | none => s
    | some o =>
      if o.fin then s else
      let now := orderParts (mrDet g.mr) s.freeCount (o.parts.filter sel)
      let s := now.foldl (fun s p => s.performPart tid gi o keepL1 p) { s with freeCount := s.freeCount + 1 }
      let s := s.modTeam tid (fun t => t.modGroup gi (fun g => g.modOp id (fun o => { o with parts := o.parts.filter (fun p => !sel p) })))
      match (s.team? tid).bind (fun t => (t.body.groups[gi]?).bind (fun g => g.flight.find? (fun o => o.id == id))) with
      | some o' => if o'.parts.isEmpty then s.finishAccess tid gi o' else s
      | none => s

/-- Whether an access must wait for every earlier one of its group: release stores, ATOM and REDM (R262 case 4). -/
def Op.releases (o : Op) : Bool :=
  match o.kind with
  | .store r _ => r
  | .atomic .. => true
  | _ => false

/-- Drain a group's combining entries before an access of its own that releases (R259, R276). -/
def State.drainFor (s : State) (tid gi id : Nat) : State :=
  match ((s.team? tid).bind (fun t => t.body.groups[gi]?)).bind (fun g => g.flight.find? (fun o => o.id == id)) with
  | some o => if o.releases then s.drainWc (WcEntry.ofGroup tid gi) else s
  | none => s

/-- Perform accesses of a group in issue order (R262, R275; log 4, DEDUCED). -/
def State.flushIds (s : State) (tid gi : Nat) (ids : List Nat) : State :=
  ids.foldl (fun s id => (s.drainFor tid gi id).performOp tid gi id (fun _ => true) false) s

/-- Perform every access in flight of a group, and drain its combining entries (R187, R259, R275). -/
def State.flushGroup (s : State) (tid gi : Nat) : State :=
  match (s.team? tid).bind (fun t => t.body.groups[gi]?) with
  | none => s
  | some g => (s.flushIds tid gi (g.flight.map (·.id))).drainWc (WcEntry.ofGroup tid gi)

/-- Perform every access in flight of a team (R227, R229). -/
def State.flushTeam (s : State) (tid : Nat) : State :=
  match s.team? tid with
  | none => s
  | some t => ((List.range t.body.groups.length).foldl (fun s gi => s.flushGroup tid gi) s).drainWc (WcEntry.ofTeam tid)

/-- Later loads of the group use no L1 fill made before now (R265). -/
def Team.freshL1 (t : Team) (gi stamp : Nat) : Team := t.modGroup gi (fun g => { g with l1Stamp := stamp + 1 })

end Sys2Proof.Machine
end

