-- ==== Sys2Proof/Machine/Placement.lean ====
section
/-!
DEFINITION. Slicing a team into groups (R84-R87, R91), what a team costs on a core and the grant (R89, R90, R120), binding groups to
pipes (R208), and re-slicing (R100-R103, R203).
-/
namespace Sys2Proof.Machine

/-- The clusters of a partition (R27, R407). -/
def Partition.hasCluster (p : Partition) (k : Nat) : Bool := (p.clu.getD (k / 32) 0).getLsbD (k % 32)

/-- The cores of a partition's clusters. -/
def Partition.hasCore (p : Partition) (c : Nat) : Bool := p.hasCluster (c / 2)

/-- The core that a team stands on, or whose image holds its context (R374). -/
def Place.at? : Place → Option Nat
  | .core n | .shadow n => some n
  | _ => none

/-- The partition on whose clusters a team stands; a team that stands on none belongs to its grid's. A task that R391 moves may stand in another
partition of its tenant: votes, TLBINV and the clearing of EN follow where it stands, all else its grid's (R27, R28; log 59, DESIGN CHOICE). -/
def State.partOf (s : State) (t : Team) : Nat :=
  (t.place.at?.bind (fun c => s.parts.findIdx? (fun p => p.en && p.hasCore c))).getD t.part

/-- Change a partition. -/
def State.modPart (s : State) (p : Nat) (f : Partition → Partition) : State := { s with parts := listModify s.parts p f }

/-! ### Cost and grant -/

/-- Lanes of a role (R84). -/
def Header.lanesOf (h : Header) (r : Role) : Nat := r.groups * h.wreq

/-- Groups of a role at a grant (R85). -/
def Header.groupsOf (h : Header) (w : Nat) (r : Role) : Nat := (h.lanesOf r + w - 1) / w

/-- Register bytes of a team at a grant (R120). -/
def Header.bytesAt (h : Header) (w : Nat) : Nat :=
  (h.roles.map (fun r => h.groupsOf w r * w * 4 * (8 * r.vbudget + 20 + (if r.reserve then 72 else 0)))).sum

/-- Groups of a team at a grant (R120). -/
def Header.groupsAt (h : Header) (w : Nat) : Nat := (h.roles.map (h.groupsOf w)).sum

/-- The teams on a core. -/
def State.teamsOn (s : State) (core : Nat) : List Team := s.teams.filter (fun t => t.core? == some core)

/-- The team fits at grant W beside the core's other teams (R120). -/
def State.fits (s : State) (core tid : Nat) (h : Header) (pb1 w : Nat) : Bool :=
  let others := (s.teamsOn core).filter (fun t => t.id != tid)
  decide (h.bytesAt w + (others.map (fun t => t.hdr.bytesAt t.body.grant)).sum ≤ pb1 * 1024)
  && decide (h.groupsAt w + (others.map (fun t => t.body.groups.length)).sum ≤ 48)

/-- FMAX of a core (R25). -/
def State.fmax (s : State) (core : Nat) : Nat := if s.fuses.fmax64.contains core then 64 else 96

/-- The tenant's width ceiling (R89, R404). -/
def State.wceil (s : State) (ten : Nat) : Nat := ((s.tenants[ten]?).map (·.wceil)).getD 96

/-- The grant on a core, none where the team is not placed there (R89); a trailing core bounds it as the leading one does (R387). -/
def State.decideGrant (s : State) (core tid ten : Nat) (h : Header) (pb1 request : Nat) : Option Nat :=
  if h.compat16 then (if s.fits core tid h pb1 16 then some 16 else none)
  else
    let trail := if h.level = 2 then s.fmax (core + 2) else 96
    let cap := min request (min (min (s.fmax core) trail) (s.wceil ten))
    [96, 64, 32].find? (fun w => decide (w ≤ cap) && s.fits core tid h pb1 w)

/-! ### Slicing -/

/-- The slices of a team at a grant: role, first lid, lanes, in the order of the team-wide index (R84, R85). -/
def Header.slices (h : Header) (w : Nat) : List (Nat × Nat × Nat) :=
  (h.roles.zipIdx.foldl (fun (acc : Nat × List (Nat × Nat × Nat)) r =>
    let lanes := h.lanesOf r.1
    (acc.1 + lanes,
     acc.2 ++ (List.range (h.groupsOf w r.1)).map (fun j => (r.2, acc.1 + j * w, min w (lanes - j * w))))) (0, [])).2

/-- Resident groups of a pipe of a core (R208). -/
def State.onPipe (s : State) (core tid pipe : Nat) : Nat :=
  (((s.teamsOn core).filter (fun t => t.id != tid)).map (fun t => (t.body.groups.filter (fun g => g.pipe == pipe)).length)).sum

/-- The pipes of a team's groups in ascending index: alternating, in COMPAT16 by split pairs within each role (R92, R208). -/
def bindPipes (compat : Bool) (start : Nat) : Option Nat → Bool → List (Nat × Nat × Nat) → List Nat
  | _, _, [] => []
  | role, second, (k, _, _) :: rest =>
    -- `start` is the pipe the next unit goes to; `second`: the unit's first member of the same role has been bound
    if compat && second && role == some k then (1 - start) :: bindPipes compat start none false rest
    else start :: bindPipes compat (1 - start) (some k) true rest

/-- The pipe a team's first group goes to (R208). -/
def State.firstPipe (s : State) (core tid : Nat) : Nat := if s.onPipe core tid 1 < s.onPipe core tid 0 then 1 else 0

/-! ### Re-slicing -/

/-- The registers of a triple, re-sliced: bit of each lane from the old group that held it (R101). -/
def resliceTriple (olds : List Group) (first count n : Nat) : Mask :=
  maskOfList ((List.range count).filter (fun i =>
    match olds.find? (fun o => decide (o.first ≤ first + i) && decide (first + i < o.first + o.count)) with
    | some o => (o.triple n).getLsbD (first + i - o.first)
    | none => false))

/-- Keep the part of a window that belongs to some lids, the bits of a pending triple and the words of a B block for those of the new group
(R101, R103, R314). Which lane raised which pending sticky flag is not recorded, so each piece keeps the whole set (R161; log 26, DESIGN CHOICE). -/
def Window.restrict (w : Window) (lids : List Nat) (inGroup : Nat → Bool) : Window :=
  { w with pend := w.pend.filter (fun p => if w.whole then inGroup p.lid else lids.contains p.lid),
           triple := w.triple.map (fun x => (x.1, x.2.1.filter inGroup, x.2.2.filter inGroup)) }

/-- Join two windows of equal state and path (R102). -/
def Window.join (w v : Window) : Window :=
  { w with pend := w.pend ++ v.pend, flags := w.flags ||| v.flags, done := w.done && v.done, whole := w.whole || v.whole,
           triple := match w.triple, v.triple with
             | some x, some y => some (x.1, x.2.1 ++ y.2.1, x.2.2 ++ y.2.2)
             | none, y => y
             | x, none => x }

/-- What of a window two lanes must share to share a fragment: its remaining count, its younger-issue count under lookahead 15, its
destination (R102). -/
def Window.key (w : Window) : Nat × Option Nat × List Target := (w.remaining, if w.lk15 then some w.younger else none, w.dst)

/-- A window belongs to a lane of its fragment. -/
def Window.holds (w : Window) (lid : Nat) : Bool := w.only.all (fun l => l.contains lid)

/-- Two lanes' windows are equal, one for one, whatever the order in which they were opened (R102). -/
def sameWins (a b : List Window) : Bool := (a.map Window.key).isPerm (b.map Window.key)

/-- The windows of two fragments that become one, of these lids each: windows of equal state and path join, and any other goes on belonging
to its own lanes, whose path a WAITC asks for (R102, R246). Each window joins one other at most. -/
def joinWins (la lb : List Nat) : List Window → List Window → List Window
  | [], b => b.map (fun v => { v with only := some (v.only.getD lb) })
  | w :: a, b =>
    let same := fun (v : Window) => w.key == v.key && w.path == v.path
    (match b.find? same with
     | some v => { w.join v with only := if w.only.isNone && v.only.isNone then none else some (w.only.getD la ++ v.only.getD lb) }
     | none => { w with only := some (w.only.getD la) }) :: joinWins la lb a (b.eraseP same)

/-- What of a fragment's jury-rig levels two lanes must share to share a fragment, but for the windows banked there (R102). -/
def JrLevel.key (l : JrLevel) : List Word × DWord × DWord × Bool × DWord × Wait := (l.w, l.jrpc, l.jrnext, l.stream, l.pc, l.wait)

/-- Two pieces of fragments may form one fragment (R102, R203). -/
def Frag.alike (a b : Frag) : Bool :=
  a.pc == b.pc && a.chain == b.chain && a.park == b.park && a.wait == b.wait && sameWins a.wins b.wins
  && a.jr.map JrLevel.key == b.jr.map JrLevel.key && (a.jr.zip b.jr).all (fun p => sameWins p.1.wins p.2.wins)

/-- The lids of a mask in a group whose lowest lid is `first`. -/
def lidsFrom (first : Nat) (m : Mask) : List Nat := (maskList m).map (first + ·)

/-- Join two alike pieces in a group whose lowest lid is `first` (R102). -/
def Frag.fuse (first : Nat) (a b : Frag) : Frag :=
  let join := joinWins (lidsFrom first a.mask) (lidsFrom first b.mask)
  { a with mask := a.mask ||| b.mask, wins := join a.wins b.wins, ue := a.ue || b.ue,
           jr := List.zipWith (fun (x y : JrLevel) => { x with counted := x.counted && y.counted, wins := join x.wins y.wins }) a.jr b.jr }

/-- What a join chain holds, top first: JADDR, key and call flag of each entry (R184). -/
def chainKey (c : List JEntry) : List (DWord × Nat × Bool) := c.map (fun e => (e.jaddr, e.key, e.callEnt))

/-- The entries of some groups, each as the chain from it down: equal chains are one entry in a new group (R102, R203). -/
def entryKeys (olds : List Group) : List (List (DWord × Nat × Bool)) :=
  (olds.flatMap (fun o => o.frags.flatMap (fun f => (List.range f.chain.length).map (fun k => chainKey (f.chain.drop k))))).eraseDups

/-- A chain whose entries are named by their places among some keys (R203). -/
def nameChain (keys : List (List (DWord × Nat × Bool))) : List JEntry → List JEntry
  | [] => []
  | e :: rest => { e with id := keys.idxOf (chainKey (e :: rest)) } :: nameChain keys rest

/-- The lids of a new group. -/
def inSlice (first count l : Nat) : Bool := decide (first ≤ l) && decide (l < first + count)

/-- The windows of a fragment, banked ones included, that belong to a lane. -/
def Frag.windowsOf (f : Frag) (lid : Nat) : List Bool := (f.wins ++ f.jr.flatMap (·.wins)).map (fun w => w.holds lid)

/-- The pieces of an old group's fragment in a new group: one of the lanes that share their windows, mostly all of them. Its entries are named
by what its chain holds, its windows apart from those of other old groups, and the first piece has the bits of a pending triple, and the words
of a B block, that no lane of a piece has (R102, R203, R314). `k` is the old group's index among n. R101 has no row for the one untested comparator of a RETRY (R341): it is
dropped (log 26, DESIGN CHOICE). -/
def Frag.pieces (f : Frag) (o : Group) (keys : List (List (DWord × Nat × Bool))) (k n first count : Nat) : List Frag :=
  let lids := (o.lids f.mask).filter (inSlice first count)
  let classes := (lids.map f.windowsOf).eraseDups
  classes.zipIdx.map (fun c =>
    let own := lids.filter (fun l => f.windowsOf l == c.1)
    let bits := fun (l : Nat) => inSlice first count l && (own.contains l || (c.2 == 0 && !lids.contains l))
    let wins := fun (l : List Window) => (l.filter (fun w => own.any w.holds)).map (fun w =>
      { (w.restrict own bits) with id := w.id * n + k, only := none })
    { f with mask := maskOfList (own.map (· - first)), chain := nameChain keys f.chain, slot := none, count := 0,
             wins := wins f.wins, jr := f.jr.map (fun l => { l with id := l.id * n + k, wins := wins l.wins }), skipCmp := none })

/-- Give a new group the bits of the pending triples that no fragment of its own carries: the window stands in another new group, so those
bits are delivered at the re-slice (R101, R103; log 26, DESIGN CHOICE). -/
def Group.orphanTriples (g : Group) (olds : List Group) : Group :=
  olds.foldl (fun g o => o.frags.foldl (fun g f =>
    (f.wins ++ f.jr.flatMap (·.wins)).foldl (fun g w =>
      if (o.lids f.mask).any (fun l => w.holds l && inSlice g.first g.count l) then g
      else match w.triple with
        | some (n, lids, cov) => g.mergeTriple n lids cov
        | none => g) g) g) g

/-- Give the lanes of a new group the words of the pending B blocks that no fragment of it carries: the window stands in another new group, so
those words are delivered at the re-slice (R101, R314; log 26, DESIGN CHOICE). -/
def Group.orphanBlocks (g : Group) (olds : List Group) (lanes : List Lane) : List Lane :=
  olds.foldl (fun ls o => o.frags.foldl (fun ls f =>
    (f.wins ++ f.jr.flatMap (·.wins)).foldl (fun ls w =>
      if !w.whole || (o.lids f.mask).any (fun l => w.holds l && inSlice g.first g.count l) then ls
      else (w.pend.filter (fun p => inSlice g.first g.count p.lid)).foldl (fun ls p => listModify ls p.lid (fun ln => ln.setReg p.reg p.val)) ls) ls) ls) lanes

/-- The trap that holds a lid, if one does. -/
def Team.trapOf (t : Team) (lid : Nat) : Option Nat := (t.traps.find? (fun tr => !tr.stream && tr.lids.contains lid)).map (·.id)

/-- Gather pieces into fragments: alike pieces under the same trap (R102, R203). -/
def gather (first : Nat) (same : Frag → Frag → Bool) : List Frag → List Frag → List Frag
  | acc, [] => acc
  | acc, f :: rest =>
    match acc.findIdx? (fun a => same a f) with
    | some i => gather first same (listModify acc i (fun a => a.fuse first f)) rest
    | none => gather first same (acc ++ [f]) rest

/-- The fragments of a new group, aged by lowest lid, parked ones last; the two oldest take the slots (R102). -/
def Team.resliceFrags (t : Team) (olds : List Group) (first count : Nat) : List Frag :=
  let n := olds.length
  let keys := entryKeys olds
  let pieces := olds.zipIdx.flatMap (fun o => o.1.frags.flatMap (fun f => f.pieces o.1 keys o.2 n first count))
  let low := fun (f : Frag) => first + ((maskList f.mask).head?).getD 0
  let fs := sortBy low (gather first (fun a b => a.alike b && t.trapOf (low a) == t.trapOf (low b)) [] pieces)
  let live := fs.filter (fun f => f.park == .live)
  live.zipIdx.map (fun p => { p.1 with slot := if p.2 < 2 then some p.2 else none }) ++ fs.filter (fun f => f.park != .live)

/-- The larger of two optional bounds' least (R371). -/
def minGrace (l : List (Option Nat)) : Option Nat := minBy id (l.filterMap id)

/-- A new group over the old ones. It runs on: groups that wait at the barrier of R97 have stopped for a pre-emption, the new one has the
least grace left to any of them (R101, R102, R203, R230, R371, R380). -/
def Team.resliceGroup (t : Team) (olds : List Group) (slice : Nat × Nat × Nat) (pipe : Nat) : Group :=
  let role := slice.1
  let first := slice.2.1
  let count := slice.2.2
  let held := olds.filter (fun o => decide (o.first < first + count) && decide (first < o.first + o.count))
  let src := (olds.find? (fun o => decide (o.first ≤ first) && decide (first < o.first + o.count))).getD
    { role := role, first := first, count := count, pipe := pipe }
  let g : Group :=
    { role := role, first := first, count := count, pipe := pipe,
      s := src.s.keep (fun n => decide (n < 8) || decide (32 ≤ n)), mr := src.mr, seg := src.seg,
      flags := held.foldl (fun f o => f ||| o.flags) 0,
      clock := held.foldl (fun c o => if c.toNat < o.clock.toNat then o.clock else c) 0,
      widthReq := src.widthReq, l1Stamp := held.foldl (fun m o => max m o.l1Stamp) 0,
      frags := t.resliceFrags olds first count,
      nextId := (olds.foldl (fun m o => max m o.nextId) 0 + 1) * (olds.length + 1) + (entryKeys olds).length,
      grace := minGrace (held.map (·.grace)) }
  let g := (List.range 8).foldl (fun g k => g.setTriple (8 + 3 * k) (resliceTriple olds first count (8 + 3 * k))) g
  let g := g.orphanTriples olds
  let triple := fun n => decide (8 ≤ n) && decide (n < 32)
  { g with ue := src.ue.filter (fun n => !triple n) ++ dedupNat (held.flatMap (fun o => o.ue.filter triple)) }

/-- Re-slice a team to a grant, whose generation rises (R95, R100-R103, R203, R208). -/
def Team.resliced (t : Team) (w firstPipe : Nat) : Team :=
  let slices := t.hdr.slices w
  let pipes := bindPipes t.hdr.compat16 firstPipe none false slices
  let gs := (slices.zip pipes).map (fun p => t.resliceGroup t.body.groups p.1 p.2)
  let home := fun lid => (gs.findIdx? (fun g => decide (g.first ≤ lid) && decide (lid < g.first + g.count))).getD 0
  { t with body := { t.body with lanes := gs.foldl (fun ls g => g.orphanBlocks t.body.groups ls) t.body.lanes, groups := gs, grant := w,
                                 gen := (t.body.gen + 1) % 2 ^ 16 },
           traps := t.traps.map (fun tr => if tr.stream then tr else { tr with g := home tr.lid }) }

/-- The core's age list after a team's groups were made anew: the new ones are youngest, in ascending index (R212). -/
def Core.renewAge (c : Core) (tid n : Nat) : Core :=
  { c with age := c.age.filter (fun a => a.1 != tid) ++ (List.range n).map (fun g => (tid, g)),
           passed := c.passed.filter (fun a => a.1 != tid) }

/-- Re-slice a team where it stands (R97, R100). -/
def State.reslice (s : State) (tid w : Nat) : State :=
  match s.team? tid with
  | none => s
  | some t =>
    match t.core? with
    | none => s
    | some c =>
      let t' := t.resliced w (s.firstPipe c tid)
      (s.modTeam tid (fun _ => t')).modCore c (fun k => k.renewAge tid t'.body.groups.length)

end Sys2Proof.Machine
end

