-- ==== Sys2Proof/Machine/Fragments.lean ====
section
/-!
DEFINITION. Fragments: their age order and PC slots (R197, R199, R200), splits (R190, R194), arrivals and the completion of join entries
(R185-R187); and the numbered barriers and the task barrier (R222-R229), with the width requests a completion applies (R97).
-/
namespace Sys2Proof.Machine

/-! ### Age and slots -/

/-- A live fragment. -/
def Frag.isLive (f : Frag) : Bool := f.park == .live

/-- Waits at a barrier, EWAIT or WAITC (R199, R200). -/
def Frag.waiting (f : Frag) : Bool :=
  match f.wait with
  | .barrier .. | .task | .ewait .. | .waitc .. => true
  | _ => false

/-- Live and not waiting (R199). -/
def Frag.eligible (f : Frag) : Bool := f.isLive && !f.waiting

/-- The oldest eligible spilled fragment (R200). -/
def Group.spilled (g : Group) : Option Frag := g.frags.find? (fun f => f.eligible && f.slot.isNone)

/-- Change the fragment of a mask; no two fragments share a lane (R183). -/
def Group.onMask (g : Group) (m : Mask) (f : Frag → Frag) : Group := { g with frags := g.frags.map (fun x => if x.mask == m then f x else x) }

/-- Live fragments in their order, then parked ones. -/
def arrangeFrags (l : List Frag) : List Frag := l.filter (·.isLive) ++ l.filter (fun f => !f.isLive)

/-- Place fragments as the group's youngest, in the order given (R186, R195, R196). -/
def Group.placeYoungest (g : Group) (new : List Frag) : Group := { g with frags := arrangeFrags (g.frags ++ new) }

/-- The fragment of a mask becomes the group's youngest (R200). -/
def Group.toYoungest (g : Group) (m : Mask) : Group :=
  { g with frags := arrangeFrags (g.frags.filter (fun x => x.mask != m) ++ g.frags.filter (fun x => x.mask == m)) }

/-- Exchange a slot's fragment for a spilled one: the outgoing one becomes the youngest (R200). -/
def Group.exchange (g : Group) (k : Nat) (o x : Frag) : Group :=
  ((g.onMask x.mask (fun f => { f with slot := some k, count := 0 })).onMask o.mask (fun f => { f with slot := none, count := 0, ue := false })).toYoungest o.mask

/-- Fill a free slot, or rotate a waiting fragment out of it, while an eligible fragment is spilled (R200). -/
def Group.fillSlot (g : Group) (k : Nat) : Group :=
  match g.spilled with
  | none => g
  | some x =>
    match g.frags.find? (fun f => f.slot == some k) with
    | none => g.onMask x.mask (fun f => { f with slot := some k, count := 0 })
    | some o => if o.waiting then g.exchange k o x else g

/-- A slot without a fragment. -/
def Group.slotOpen (g : Group) (k : Nat) : Bool := g.frags.all (fun f => f.slot != some k)

/-- Parked fragments hold no slot; then the slots that are free are filled, and after them fragments that wait rotate out (R185, R200). Where
both slots' fragments wait and one spilled fragment becomes eligible, the rules do not say which of the two rotates out: slot 0's does (log
27, DESIGN CHOICE). -/
def Group.fixSlots (g : Group) : Group :=
  let g := { g with frags := arrangeFrags (g.frags.map (fun (f : Frag) => if f.isLive then f else { f with slot := none, count := 0 })) }
  let order := if !g.slotOpen 0 && g.slotOpen 1 then [1, 0] else [0, 1]
  order.foldl Group.fillSlot g

/-- Rotate the fragment of a mask, where it holds a slot and an eligible fragment is spilled; else it only becomes youngest, its count
restarting (R195, R200). -/
def Group.rotate (g : Group) (m : Mask) : Group :=
  match g.frags.find? (fun f => f.mask == m), g.spilled with
  | some o, some x =>
    match o.slot with
    | some k => g.exchange k o x
    | none => g.toYoungest m
  | _, _ => (g.onMask m (fun f => { f with count := 0 })).toYoungest m

/-- The banked windows of one of the parts a fragment splits into, with the parts before it: each keeps its own lanes' results, and the
first the bits of a triple, and the words of a B block, that none of the parts holds; a window none of whose lanes is in the part is not its
(R54, R101, R314, R355; log 26, DEDUCED). -/
def Frag.splitWins (g : Group) (parts : List Frag) (k : Nat) (f : Frag) : Frag :=
  let lids := g.lids f.mask
  let others := (parts.zipIdx.filter (fun p => p.2 != k)).flatMap (fun p => g.lids p.1.mask)
  let own := fun (l : Nat) => lids.contains l || (k == 0 && !others.contains l)
  let cut := fun (w : Window) =>
    { w with triple := w.triple.map (fun x => (x.1, x.2.1.filter own, x.2.2.filter own)), pend := w.pend.filter (fun p => !w.whole || own p.lid) }
  { f with jr := f.jr.map (fun l => { l with wins := (l.wins.filter (fun w => lids.any w.holds)).map cut }) }

/-- Put fragments in the place of the one at an index, the first keeping its slot, the others directly after it. Where the fragment splits, a
part takes the slot and the slot's issue count starts again; where one goes on, alone or with lanes that have left it, the count goes on
(R190, R194, R200). -/
def Group.spread (g : Group) (k : Nat) (parts : List Frag) : Group :=
  match g.frags[k]? with
  | none => g
  | some f =>
    let ps := parts.zipIdx.map (fun p =>
      { (p.1.splitWins g parts p.2) with slot := if p.2 = 0 then f.slot else none, count := if parts.length = 1 then p.1.count else 0 })
    { g with frags := arrangeFrags (g.frags.take k ++ ps ++ g.frags.drop (k + 1)) }

/-! ### The fragment stack (R197, R198) -/

/-- A record of the fragment stack: its fields from bit 0 up (R198). -/
def fragRecord (addr : DWord) (mask : Mask) (key link depth : Nat) (kind callEnt : Bool) (park : Nat) (win : Bool) (jrd : Nat) : BitVec 256 :=
  BitVec.ofNat 256 (addr.toNat + 2 ^ 64 * mask.toNat + 2 ^ 160 * (key % 2 ^ 16) + 2 ^ 176 * (link % 2 ^ 16) + 2 ^ 192 * (depth % 2 ^ 8)
    + 2 ^ 200 * kind.toNat + 2 ^ 201 * callEnt.toNat + 2 ^ 202 * (park % 4) + 2 ^ 204 * win.toNat + 2 ^ 205 * (jrd % 4))

/-- The join entries of a group, each once, with the chain below it (R184, R198). -/
def Group.entries (g : Group) : List (JEntry × List JEntry) :=
  (g.frags.flatMap (fun f => (List.range f.chain.length).filterMap (fun k => (f.chain[k]?).map (fun e => (e, f.chain.drop (k + 1)))))).foldl
    (fun acc e => if acc.any (fun x => x.1.id == e.1.id) then acc else acc ++ [e]) []

/-- LINK: the index of the top entry of a chain among the group's records, entries first, or 0xFFFF (R198; log 25, DESIGN CHOICE). -/
def Group.link (g : Group) (c : List JEntry) : Nat :=
  match c with
  | [] => 0xFFFF
  | e :: _ => g.entries.findIdx (fun x => x.1.id == e.id)

/-- The value of the PARK field (R198). -/
def Park.code : Park → Nat
  | .live => 0
  | .exitArrived => 1
  | .contArrived _ => 2

/-- The record of a fragment: its PC, or the target of a continue arrival (R198). -/
def Frag.record (g : Group) (f : Frag) : BitVec 256 :=
  fragRecord (match f.park with
    | .contArrived t => t
    | _ => f.pc) f.mask 0 (g.link f.chain) f.chain.length false false f.park.code (!f.wins.isEmpty) f.jr.length

/-- The record of a join entry over a chain (R198). -/
def JEntry.record (g : Group) (e : JEntry) (below : List JEntry) : BitVec 256 :=
  fragRecord e.jaddr 0 e.key (g.link below) (below.length + 1) true e.callEnt 0 false 0

/-- The fragment stack of a group: its join entries, then its fragments outside the slots (R197, R198). -/
def Group.records (g : Group) : List (BitVec 256) :=
  g.entries.map (fun e => e.1.record g e.2) ++ (g.frags.filter (fun f => f.slot.isNone)).map (fun f => f.record g)

/-- A group's share of the FRAG region, in records (R197). -/
def Header.fragShare (h : Header) : Nat := (h.pb3 - h.pb2) * 1024 / 1536

/-- A record that holds nothing: every field at its reset value, LINK all ones (R198). -/
def unusedRecord : BitVec 256 := fragRecord 0 0 0 0xFFFF 0 false false 0 false 0

/-- Bytes of the FRAG region without a record in use. -/
def unusedFrag (bytes : Nat) : List Byte := (List.replicate (bytes / 32) (bytesOfNat 32 unusedRecord.toNat)).flatten ++ List.replicate (bytes % 32) 0

/-- A group's share of FRAG, each record in its 32 bytes, the rest of it unused (R197, R198). -/
def Team.fragBytes (t : Team) (g : Group) : List Byte :=
  let l := (g.records.take t.hdr.fragShare).flatMap (fun r => bytesOfNat 32 r.toNat)
  l ++ unusedFrag (32 * t.hdr.fragShare - l.length)

/-! ### Join entries -/

/-- Every lane that holds an entry is parked with it on top (R186). -/
def Group.joinReady (g : Group) (id : Nat) : Bool :=
  g.frags.all (fun f => !(f.chain.any (fun e => e.id == id)) || (!f.isLive && (f.chain.head?.map (·.id)) == some id))

/-- An entry that completes now, if there is one (R186). -/
def Group.nextJoin (g : Group) : Option JEntry :=
  g.frags.findSome? (fun f =>
    if f.isLive then none
    else match f.chain with
      | e :: _ => if g.joinReady e.id then some e else none
      | [] => none)

/-- The jury-rig levels of two fragments that fuse, of these lids each: level by level the windows join, and the emulated instruction has
counted where it has for one of them. Where the depths or the levels differ the rules do not say whose stand: the first fragment's do, with
the windows of both (R186, R355; log 27, DESIGN CHOICE). -/
def joinLevels (la lb : List Nat) (a b : List JrLevel) : List JrLevel :=
  if a.length = b.length then
    List.zipWith (fun (x y : JrLevel) =>
      { x with counted := x.counted || (x.id == y.id && y.counted), wins := joinWins la lb x.wins y.wins }) a b
  else
    match a with
    | [] => []
    | x :: rest => { x with wins := joinWins la lb x.wins (b.flatMap (·.wins)) } :: rest

/-- Two parked fragments become one of their lanes, at the place of the first; windows banked in levels that do not stand are open (R186; log
27, DESIGN CHOICE). -/
def Frag.meet (first : Nat) (a b : Frag) : Frag :=
  let la := lidsFrom first a.mask
  let lb := lidsFrom first b.mask
  { a with mask := a.mask ||| b.mask, jr := joinLevels la lb a.jr b.jr, ue := a.ue || b.ue,
           wins := if a.jr.isEmpty then joinWins la lb a.wins (b.wins ++ b.jr.flatMap (·.wins)) else a.wins }

/-- The fused fragment of some parked ones of a group: their lanes at a pc with a chain (R186). -/
def fuseAt (first : Nat) (l : List Frag) (pc : DWord) (drop : Bool) : Option Frag :=
  match l with
  | [] => none
  | f :: rest =>
    let x := rest.foldl (Frag.meet first) { f with wins := [] }
    some { mask := x.mask, pc := pc, chain := if drop then f.chain.drop 1 else f.chain, wins := x.wins, jr := x.jr, ue := x.ue }

/-- The CONT target of a parked fragment. -/
def Frag.contTarget (f : Frag) : Option DWord :=
  match f.park with
  | .contArrived t => some t
  | _ => none

/-- Complete an entry: continue-arrived lanes fuse per target and keep it, else all holders fuse at JADDR and it is popped (R186). -/
def Group.completeJoin (g : Group) (e : JEntry) : Group :=
  let holders := g.frags.filter (fun f => (f.chain.head?.map (·.id)) == some e.id)
  let conts := holders.filter (fun f => f.contTarget.isSome)
  let gone := if conts.isEmpty then holders else conts
  let new := if conts.isEmpty then (fuseAt g.first holders e.jaddr true).toList
    else ((conts.filterMap Frag.contTarget).foldl (fun acc t => if acc.contains t then acc else acc ++ [t]) []).filterMap
      (fun t => fuseAt g.first (conts.filter (fun f => f.contTarget == some t)) t false)
  { g with frags := g.frags.filter (fun f => !(gone.any (fun x => x.mask == f.mask))) }.placeYoungest
    (sortBy (fun f => ((maskList f.mask).head?).getD 0) new)

/-- Change a group of a team in the state. -/
def State.modGroup (s : State) (tid gi : Nat) (f : Group → Group) : State := s.modTeam tid (fun t => t.modGroup gi f)

/-- A group of a team in the state. -/
def State.group? (s : State) (tid gi : Nat) : Option Group := (s.team? tid).bind (fun t => t.body.groups[gi]?)

/-- Complete entries until none is ready: each completion orders the group's accesses as FENCE.grp does (R186, R187). -/
def State.settleJoins (s : State) (tid gi : Nat) : Nat → State
  | 0 => s
  | n + 1 =>
    match (s.group? tid gi).bind Group.nextJoin with
    | none => s
    | some e => ((s.flushGroup tid gi).modGroup tid gi (fun g => g.completeJoin e)).settleJoins tid gi n

/-! ### Stopping for a pre-emption (R371) -/

/-- Every fragment of a group waits or is parked, by a join or by a trap. -/
def Team.atRest (t : Team) (g : Group) : Bool := t.parked g || g.frags.all (fun f => !f.isLive || f.waiting)

/-- Stop the victim groups of a team whose fragments all wait or are parked (R371). -/
def State.stopIdle (s : State) (tid : Nat) : State :=
  s.modTeam tid (fun t =>
    t.modBody (fun b => { b with groups := b.groups.map (fun g => if g.grace.isSome && t.atRest g then { g with stopped := true } else g) }))

/-! ### Barriers -/

/-- The lids of the roles of a mask that are live or trapped (R222). -/
def Team.need (t : Team) (roles : Nat) : List Nat :=
  t.body.groups.flatMap (fun g =>
    if roles.testBit g.role then g.lids ((g.frags.filter (·.isLive)).foldl (fun m f => m ||| f.mask) 0) else [])

/-- The stream has executed MEND, or there is none (R327). -/
def Team.streamEnded (t : Team) : Bool :=
  match t.body.stream with
  | some st => st.st == .ended
  | none => true

/-- The completion condition of a barrier (R225). -/
def Team.barrierMet (t : Team) (b : Barrier) : Bool :=
  (t.need b.roles).all b.arr.contains && (!b.stream || b.streamArr || t.streamEnded)

/-- All roles of the team as a mask. -/
def Header.allRoles (h : Header) : Nat := 2 ^ h.roles.length - 1

/-- C_n has passed a phase (R226). -/
def phasePassed (c p : Nat) : Bool :=
  let d := (c + 2 ^ 16 - p % 2 ^ 16) % 2 ^ 16
  decide (1 ≤ d) && decide (d ≤ 32768)

/-- The width a full-team barrier's completion applies: the least request, where every group has one and every live fragment waits
there (R97). -/
def Team.widthDue (t : Team) (n : Nat) (b : Barrier) : Option Nat :=
  if b.roles &&& t.hdr.allRoles == t.hdr.allRoles
      && t.body.groups.all (fun g => g.widthReq.isSome)
      && t.body.groups.all (fun g => g.frags.all (fun f => !f.isLive || t.trapped (f.lowest g)
            || (match f.wait with
                | .barrier m _ => m == n
                | _ => false)))
  then minBy (fun w => w) (t.body.groups.filterMap (·.widthReq)) else none

/-- Advance C_n, empty its arrivals, release its waiters and reset the hang counts of the groups they belong to (R202, R225, R226). -/
def Team.release (t : Team) (n : Nat) : Team :=
  match t.body.barriers[n]? with
  | none => t
  | some b =>
    let c := (b.c + 1) % 2 ^ 16
    let free := fun (w : Wait) => match w with
      | .barrier m p => if m == n && phasePassed c p then Wait.none else w
      | .stall m _ => if m == n then Wait.none else w
      | w => w
    let touched := fun (g : Group) => g.frags.any (fun f => f.wait != free f.wait) || (g.lids g.exist).any b.arr.contains
    t.modBody (fun bd =>
      { bd with
        barriers := listModify bd.barriers n (fun b => { b with c := c, arr := [], streamArr := false, task := false }),
        groups := bd.groups.map (fun g =>
          { g with hang := if touched g then 0 else g.hang,
                   frags := g.frags.map (fun f => { f with wait := free f.wait, jr := f.jr.map (fun l => { l with wait := free l.wait }) }) }),
        stream := bd.stream.map (fun st => match st.st with
          | .stallBarrier m _ => if m == n then { st with st := .running } else st
          | .waitBarrier m => if m == n then { st with st := .running } else st
          | _ => st) })

/-- Refill the slots of every group of a team (R200). -/
def State.fixAll (s : State) (tid : Nat) : State :=
  s.modTeam tid (fun t => t.modBody (fun b => { b with groups := b.groups.map Group.fixSlots }))

/-- The completion of a barrier takes effect: accesses before it are ordered before its releases (R225-R227). -/
def State.finishBarrier (s : State) (tid n : Nat) : State :=
  (((s.flushTeam tid).modTeam tid (fun t => t.release n)).fixAll tid).stopIdle tid

/-- Apply a width request at a completion, or release (R97). A new grant waits for the drain (RESLICE). Where no width of R89 qualifies for the
new request the rules say only that the team is not placed: it keeps its grant, and the barrier releases (log 53, DESIGN CHOICE). -/
def State.releaseBarrier (s : State) (tid n : Nat) : State :=
  match s.team? tid with
  | none => s
  | some t =>
    match (t.body.barriers[n]?).bind (t.widthDue n), t.core? with
    | some w, some core =>
      let s := s.modTeam tid (fun t => t.modBody (fun b =>
        { b with request := w, groups := b.groups.map (fun g => { g with widthReq := none }) }))
      (match s.decideGrant core tid t.tenant t.hdr (((s.cores[core]?).map (·.pb1)).getD 0) w with
       | some g => if g = t.body.grant then s.finishBarrier tid n else s.modTeam tid (fun t => { t with reslice := some (g, n) })
       | none => s.finishBarrier tid n)
    | _, _ => s.finishBarrier tid n

/-- Test a barrier: it completes where its condition holds; after a BAR.task the task boundary comes first (R225, R229). -/
def State.testBarrier (s : State) (tid n : Nat) : State :=
  match s.team? tid with
  | none => s
  | some t =>
    match t.body.barriers[n]? with
    | none => s
    | some b =>
      if !t.barrierMet b || t.boundary == some (.bar n) || (t.reslice.map (·.2)) == some n then s
      else if b.task then (if t.boundary.isSome then s else s.modTeam tid (fun t => { t with boundary := some (.bar n) }))
      else s.releaseBarrier tid n

/-- Test the task barrier of TASKEND, whose party is every lane (R229). It completes only with an arrival. -/
def State.testTaskBarrier (s : State) (tid : Nat) : State :=
  match s.team? tid with
  | none => s
  | some t =>
    if !t.body.taskArr.isEmpty && t.boundary.isNone && (t.need t.hdr.allRoles).all t.body.taskArr.contains then
      s.modTeam tid (fun t => { t with boundary := some .taskend })
    else s

/-- Test every barrier that some condition selects, and the task barrier (R225). -/
def State.testBarriers (s : State) (tid : Nat) (sel : Barrier → Bool) : State :=
  ((List.range 16).foldl (fun s n =>
    match (s.team? tid).bind (fun t => t.body.barriers[n]?) with
    | some b => if sel b then s.testBarrier tid n else s
    | none => s) s).testTaskBarrier tid

/-- What follows a change of state of a group's lanes: entries complete, slots are refilled, the barriers of the group's role are
tested, and victim groups at rest stop (R186, R200, R225, R371). -/
def State.settle (s : State) (tid gi : Nat) : State :=
  match s.group? tid gi with
  | none => s
  | some g =>
    let s := (s.settleJoins tid gi ((g.frags.map (fun f => f.chain.length)).sum + g.frags.length + 1)).modGroup tid gi Group.fixSlots
    ((s.testBarriers tid (fun b => b.roles.testBit g.role)).modGroup tid gi Group.fixSlots).stopIdle tid

end Sys2Proof.Machine
end

