-- ==== Sys2Proof/Machine/Access.lean ====
section
/-!
DEFINITION. An access instruction from its addresses to its place in flight: address formation (R240), the order of checks (R241,
R274), data comparators (R361), version lines (R271), the in-flight counters and lookahead windows (R244-R246), and Telltale's
injection (R446).
-/
namespace Sys2Proof.Machine

/-- What an access instruction asks for. -/
structure Access where
  seg : Nat
  size : Nat
  /-- D in bytes (R240) -/
  disp : Int
  ld : Bool
  wr : Bool
  path : Nat
  kind : OpKind
  hint : Nat := 0
  /-- store data or atomic operand of a lane, and a CAS's swap value -/
  data : Nat → Nat × Nat := fun _ => (0, 0)

/-- The kind of an access for the walk and the report (R340, R347). -/
def accessKind (ld wr : Bool) : AccessKind := if ld && wr then .atomic else if wr then .store else .load

/-- A segment register of the issuing group (R238, R239). -/
def Iss.segOf (q : Iss) (k : Nat) : Seg := (q.g.seg[k]?).getD { base := 0, limit := 0 }

/-- The offset a lane forms (R240). -/
def Iss.offset (q : Iss) (disp : Int) (i : Nat) : Int := Int.ofNat (q.a64 i).toNat + disp

/-- The SEG check of an offset: limit and alignment (R240). -/
def segFails (limit n : Nat) (off : Int) : Bool := decide (off < 0) || decide (Int.ofNat limit < off + Int.ofNat n) || decide (off % Int.ofNat n ≠ 0)

/-- The virtual address, or pool offset less the region's base, of a lane's offset (R240). -/
def Iss.formed (q : Iss) (k : Nat) (off : Int) (i : Nat) : Nat :=
  let sg := q.segOf k
  if k = 1 then off.toNat else if k = 3 then sg.base.toNat + q.lid i * sg.limit + off.toNat else sg.base.toNat + off.toNat

/-- The SEG trap of the lowest failing lane (R240, R337). -/
def Iss.segTrap (q : Iss) (k n : Nat) (disp : Int) : Option Trap :=
  (q.lanes.find? (fun i => segFails (q.segOf k).limit n (q.offset disp i))).map (fun i =>
    { q.trapAt clsSeg i with addr := BitVec.ofInt 64 (q.offset disp i) })

/-- Translate the bytes from an address, which may go on into the next page. -/
def State.translateSpan (s : State) (core : Option Nat) (ten ctx va n : Nat) (a : Acc) : State × Except (Nat × XErr) Loc :=
  match s.translate core ten ctx va a with
  | (s, .error e) => (s, .error (va, e))
  | (s, .ok (pa, mt)) =>
    let cut := 4096 - va % 4096
    if n ≤ cut then (s, .ok { pa := pa, cut := n, pa2 := 0, mt := mt, mt2 := mt })
    else
      match s.translate core ten ctx (va + cut) a with
      | (s, .error e) => (s, .error (va + cut, e))
      | (s, .ok (pa2, mt2)) => (s, .ok { pa := pa, cut := cut, pa2 := pa2, mt := mt, mt2 := mt2 })

/-- The DEVICE pages under n bytes from an address that has just been translated (R259). -/
def State.devicePages (s : State) (core : Option Nat) (ctx va n : Nat) (l : Loc) : List (Nat × Nat) :=
  let page := fun (va : Nat) => let k := s.pageSize core ctx va; (va / 2 ^ k, k)
  (if l.mt = .device then [page va] else []) ++ (if l.cut < n && l.mt2 == .device then [page (va + l.cut)] else [])

/-- The part of an access in memory at an address that has just been translated: its lid, its place, its size, its data. -/
def State.partAt (s : State) (t : Team) (lid ix va n data data2 : Nat) (l : Loc) : Part :=
  { lid := lid, ix := ix, scratch := false, va := va, pa := l.pa, mt := l.mt, device := s.devicePages t.core? t.ctx va n l, cut := l.cut,
    pa2 := l.pa2, mt2 := l.mt2, size := n, data := data, data2 := data2 }

/-- The trap that the leading core took in the step that a trailing core follows, if of a class (R388). -/
def Lead.trapped (l : Lead) (cls : Nat) : Option Trap := l.fault.filter (fun tr => tr.cls == cls)

/-- The part of a trailing core's access to which no request of the leading core answers (R388; log 17, DESIGN CHOICE). -/
def blindPart (lid ix va n data data2 : Nat) : Part :=
  { lid := lid, ix := ix, scratch := false, va := va, pa := 0, mt := .uncached, cut := n, pa2 := 0, size := n, data := data, data2 := data2, blind := true }

/-- What the request of a trailing core brings, which it does not make: its part lies where the leading core's does, and fails where that
failed; where the leading core made no such request nothing comes (R388). A lane's request answers to the same lane's, that of a group as a
whole to the group's. -/
def Lead.answers (l : Lead) (one : Bool) (lid ix va n data data2 : Nat) : Except (Nat × XErr) Part :=
  match l.parts.find? (fun p => (one || p.lid == lid) && p.ix == ix && p.size == n), l.trapped clsXlate with
  | some p, _ => .ok { p with lid := lid, va := va, data := data, data2 := data2 }
  | none, some tr =>
    if one || tr.lid == lid then .error (tr.addr.toNat, XErr.ofWord tr.xlate)
    else .ok (blindPart lid ix va n data data2)
  | none, none => .ok (blindPart lid ix va n data data2)

/-- The leading core's part is held for a trailing core that has a state of its own (R388). -/
def State.keepTook (s : State) (t : Team) (p : Part) : State :=
  if t.trail.isSome then s.modTeam t.id (fun t => { t with took := t.took ++ [p] }) else s

/-- The part of a team's access in memory, translated; a trailing core translates nothing (R388). -/
def State.place (s : State) (t : Team) (one : Bool) (lid ix va n data data2 : Nat) (a : Acc) : State × Except (Nat × XErr) Part :=
  match t.lead with
  | some l => (s, l.answers one lid ix va n data data2)
  | none =>
    match s.translateSpan t.core? t.tenant t.ctx va n a with
    | (s, .error e) => (s, .error e)
    | (s, .ok loc) =>
      let p := s.partAt t lid ix va n data data2 loc
      (s.keepTook t p, .ok p)

/-- A trap that an instruction meets after it has placed accesses: a trailing core is to know where they lie (R388). -/
def State.tookBy (s : State) (tid : Nat) (tr : Trap) : Trap := { tr with took := ((s.team? tid).map (·.took)).getD [] }

/-- The pieces of an access that are single-copy atomic: 8-byte halves of a .q (R242). -/
def pieces (n : Nat) : List (Nat × Nat) := if n = 16 then [(0, 8), (1, 8)] else [(0, n)]

/-- The parts of one lane's access, or the failing address and translation (R240, R346). -/
def State.laneParts (s : State) (t : Team) (lid va n : Nat) (scratch : Bool) (a : Acc) (x : Nat × Nat) :
    List (Nat × Nat) → State × Except (Nat × XErr) (List Part)
  | [] => (s, .ok [])
  | (ix, m) :: rest =>
    let d := x.1 / 2 ^ (64 * ix) % 2 ^ (8 * m)
    if scratch then
      match s.laneParts t lid va n scratch a x rest with
      | (s, .ok l) => (s, .ok ({ lid := lid, ix := ix, scratch := true, va := va + 8 * ix, pa := va + 8 * ix, mt := .uncached, cut := m, pa2 := 0,
                                 size := m, data := d, data2 := x.2 } :: l))
      | r => r
    else
      match s.place t false lid ix (va + 8 * ix) m d x.2 a with
      | (s, .error e) => (s, .error e)
      | (s, .ok p) =>
        match s.laneParts t lid va n scratch a x rest with
        | (s, .ok l) => (s, .ok (p :: l))
        | r => r

/-- The XLATE trap of a lane (R340, R349, R350). -/
def Iss.xlateTrap (q : Iss) (i va : Nat) (e : XErr) (k : AccessKind) : Trap :=
  { q.trapAt clsXlate i with addr := BitVec.ofNat 64 va, xlate := e.word k, served := e.served }

/-- The parts of every lane, in ascending lanes; the first failing lane traps (R241). -/
def Iss.allParts (q : Iss) (x : Access) (s : State) : List Nat → State × Except Trap (List Part)
  | [] => (s, .ok [])
  | i :: rest =>
    let k := accessKind x.ld x.wr
    match s.laneParts q.t (q.lid i) (q.formed x.seg (q.offset x.disp i) i) x.size (x.seg == 1) ⟨k, x.wr, x.size⟩ (x.data i) (pieces x.size) with
    | (s, .error (va, e)) => (s, .error (s.tookBy q.c.team (q.xlateTrap i va e k)))
    | (s, .ok l) =>
      match q.allParts x s rest with
      | (s, .ok l') => (s, .ok (l ++ l'))
      | r => r

/-- The data comparator that an address of the lowest lid matches, the first of them, with that lid (R337, R361). -/
def Iss.dataMatch (q : Iss) (ld wr : Bool) (vas : List (Nat × Nat)) : Option (Nat × Nat) :=
  minBy (fun h => h.2) (((q.s.comparators q.t).zipIdx.drop 8).filterMap (fun p =>
    if cmpEn p.1 && cmpCtx p.1 == q.t.ctx && q.f.skipCmp != some p.2
        && ((ld && (cmpDacc p.1).testBit 0) || (wr && (cmpDacc p.1).testBit 1)) then
      (vas.find? (fun v => cmpLidOk p.1 v.1 && v.2 / 2 ^ cmpIgn p.1 == cmpAddr p.1 / 2 ^ cmpIgn p.1)).map (fun v => (p.2, v.1))
    else none))

/-- The DEBUG trap of a data comparator (R361). -/
def Iss.dataTrap (q : Iss) (ld wr : Bool) (vas : List (Nat × Nat)) : Option Trap :=
  (q.dataMatch ld wr vas).map (fun m => { mkTrap q.t q.g q.f q.c clsDebug m.2 with sub := 5, detail := m.1, cmp := some m.1 })

/-- The lines a part writes. -/
def Part.lines (p : Part) : List Nat := dedupNat [p.byteAt 0 / 256, p.byteAt (p.size - 1) / 256]

/-- The write of a trailing core whose version line the leading core could not take, with the report's address (R388). -/
def Lead.versionFull (l : Lead) (w : List (Part × Nat)) : Option (Part × Nat) :=
  (l.trapped clsVersion).bind (fun tr => (w.find? (fun x => x.1.lid == tr.lid)).map (fun x => (x.1, tr.addr.toNat)))

/-- Take the version lines that writes need, in order; the first that cannot be taken gives its part and the report's address. Every lane of
an ATOM or REDM takes its line at issue, a CAS whose compare then fails too: R271 speaks of a write, and no rule of that case (R271, R279,
R340; log 32, DESIGN CHOICE). -/
def State.takeLines (s : State) (tid : Nat) : List (Part × Nat) → State × Option (Part × Nat)
  | [] => (s, none)
  | (p, line) :: rest =>
    match s.team? tid with
    | none => (s, none)
    | some t =>
      if !t.versioned || t.versions.any (fun v => v.line == line) then s.takeLines tid rest
      else
        let bar := s.versionBar t (line * 256)
        if bar.1 || bar.2 then
          (s, some (p, (s.bankOf (line * 256)).getD 0 + 2 ^ 8 * setOfLine line + (if bar.2 then 2 ^ 62 else 0) + (if bar.1 then 2 ^ 63 else 0)))
        else (s.takeVersion tid (line * 256)).takeLines tid rest

/-- The version lines of an instruction's writes: a trailing core takes none of its own (R271, R388). -/
def State.takeFor (s : State) (t : Team) (w : List (Part × Nat)) : State × Option (Part × Nat) :=
  match t.lead with
  | some l => (s, l.versionFull w)
  | none => s.takeLines t.id w

/-- The lines that a list of parts writes in memory. -/
def partLines (l : List Part) : List (Part × Nat) := (l.filter (fun p => !p.scratch)).flatMap (fun p => p.lines.map (fun n => (p, n)))

/-- Count an operation in the lookahead-15 windows of its path, wherever they stand (R246). -/
def Group.countYounger (g : Group) (path : Nat) : Group :=
  let on := fun (l : List Window) => l.map (fun w => if w.lk15 && w.path == some path then { w with younger := w.younger + 1 } else w)
  { g with frags := g.frags.map (fun r => { r with wins := on r.wins, jr := r.jr.map (fun lv => { lv with wins := on lv.wins }) }) }

/-- The window of a long-latency word of a counter path (R49, R50). -/
def Iss.pathWindow (q : Iss) (path : Nat) (k : BitVec 4) (zeros : List PWrite) (done : Bool) : Window :=
  { id := q.g.nextId, addr := q.c.addr, path := some path, remaining := if k = 15 then 0 else k.toNat, lk15 := k == 15, younger := 0, issued := 0,
    dst := q.fm.targets, pend := zeros, triple := none, done := done, flags := 0 }

/-- Put an access in flight, its counter raised where some lane takes part, and open its window. With no lane in EXEC it completes here, and a
store or an atomic resets the hang count (R49, R202, R244, R245). -/
def Iss.enter (q : Iss) (s : State) (path : Nat) (kind : OpKind) (parts : List Part) (hint : Nat) (k : BitVec 4) (zeros : List PWrite)
    (empty : Bool) : State :=
  let o : Op := { id := q.g.nextId, path := path, addr := q.c.addr, kind := kind, parts := parts, got := [], hint := hint, mr := q.g.mr, poisoned := none }
  s.modGroup q.c.team q.c.g (fun g =>
    let g := if empty then { g with hang := if kind.resetsHang then 0 else g.hang } else { (g.countYounger path) with flight := g.flight ++ [o] }
    { (g.openWindow q.c.f (q.pathWindow path k zeros empty)) with nextId := g.nextId + 1 })

/-- A full counter holds an instruction back (R245). -/
def Group.full (g : Group) (path : Nat) : Bool := decide (63 ≤ g.counter path)

/-! ### The events of Telltale, and its injection (R389, R446) -/

/-- The lanes of an access as Telltale has them: a .q's halves together, a CAS's swap value above its compare value (R389, R446; log 17,
DESIGN CHOICE). -/
def partLanes (parts : List Part) (cas : Bool) : List TelLane :=
  (parts.filter (fun p => p.ix == 0)).map (fun p =>
    let hi := parts.find? (fun x => x.lid == p.lid && x.ix == 1)
    { lid := p.lid, mask := 2 ^ (if hi.isSome then 16 else p.size) - 1, addr := p.va,
      data := p.data + (if cas then 2 ^ (8 * p.size) * p.data2 else 0) + 2 ^ 64 * ((hi.map (·.data)).getD 0) })

/-- The operation of an access, as Telltale compares it (R389). -/
def OpKind.telOp : OpKind → Nat
  | .atomic op e _ _ => 1 + op + 16 * e
  | _ => 0

/-- An event of a team reaches Telltale, where a pair runs it (R389). -/
def State.telNote (s : State) (t : Team) (e : TelEvent) : State :=
  if t.pairSlot.isSome then s.modTeam t.id (fun t => { t with tel := t.tel ++ [e] }) else s

/-- The mismatch of two events, one of which may be absent: the first lane that differs (R397). -/
def eventMismatch (lead trail : Option TelEvent) : Mismatch :=
  let e := (lead <|> trail).getD { kind := 1, op := 0, group := 0, pc := 0, lanes := [] }
  let l := (lead.map (·.lanes)).getD []
  let t := (trail.map (·.lanes)).getD []
  let i := ((List.range (max l.length t.length)).find? (fun i => l[i]? != t[i]?)).getD 0
  let none' : TelLane := { lid := 0, mask := 0, addr := 0, data := 0 }
  let x := (l[i]?).getD none'
  let y := (t[i]?).getD none'
  { kind := e.kind, lid := ((l[i]? <|> t[i]?).getD none').lid, elem := 0, group := e.group, pc := e.pc, leadMask := x.mask, trailMask := y.mask,
    leadAddr := x.addr, trailAddr := y.addr, leadData := x.data, trailData := y.data }

/-- An injection is armed for the events of a team's group (R445, R446). -/
def State.injectArmed (s : State) (t : Team) (e : TelEvent) : Bool :=
  let ctl := s.hm.injCtl
  t.hdr.level = 2 && ctl.getLsbD 0 && t.core? == some (bitsOf ctl 14 8) && bitsOf ctl 21 16 == e.group

/-- The lane whose trailing data an armed injection alters at an event: none before its turn, and none where the lane takes no part (R446). -/
def State.injectLane (s : State) (e : TelEvent) : Option TelLane :=
  if bitsOf s.hm.injSel 31 16 ≤ s.hm.injCount then e.lanes.find? (fun p => p.lid == bitsOf s.hm.injSel 15 0) else none

/-- An event with bit `k` of a lane's data inverted (R446). -/
def TelEvent.invert (e : TelEvent) (lid k : Nat) : TelEvent :=
  { e with lanes := e.lanes.map (fun p => if p.lid == lid then { p with data := p.data ^^^ 2 ^ k } else p) }

/-- A store event (R389, R446). At an armed injection's turn the trailing core's data is altered before Telltale compares: in its own event,
where it holds a state of its own, else in what equals the leading core's. -/
def State.telltaleStore (s : State) (t : Team) (gi : Nat) (pc : DWord) (op : OpKind) (parts : List Part) : State :=
  let cas := match op with
    | .atomic o _ _ _ => o == 7
    | _ => false
  let e : TelEvent := { kind := 1, op := op.telOp, group := gi, pc := pc.toNat, lanes := partLanes parts cas }
  if !s.injectArmed t e then s.telNote t e
  else
    match s.injectLane e with
    | none => { s.telNote t e with hm := { s.hm with injCount := s.hm.injCount + 1 } }
    | some p =>
      let e' := e.invert p.lid (bitsOf s.hm.injCtl 28 24)
      let s' := if t.lead.isSome then s.telNote t e'
        else if t.trail.isSome then s.telNote t e
        else (s.telNote t e).modTeam t.id (fun t => { t with mismatch := some (t.mismatch.getD (eventMismatch (some e) (some e'))) })
      { s' with hm := { s.hm with injCtl := s.hm.injCtl &&& ~~~1, injCount := 0 } }

/-! ### The whole access -/

/-- Checks 2 and 3 of R241 with the data comparators and the version lines after them, in the order of R337: a trap, or the state and the
parts. -/
def Iss.checked (q : Iss) (x : Access) : Except Trap (State × List Part) :=
  match q.segTrap x.seg x.size x.disp with
  | some t => .error t
  | none =>
    match q.allParts x q.s q.lanes with
    | (_, .error t) => .error t
    | (s, .ok parts) =>
      match q.dataTrap x.ld x.wr ((parts.filter (fun p => !p.scratch && p.ix == 0)).map (fun p => (p.lid, p.va))) with
      | some t => .error (s.tookBy q.c.team t)
      | none =>
        if x.wr then
          match s.takeFor q.t (partLines parts) with
          | (s, some (p, addr)) => .error (s.tookBy q.c.team { q.trapAt clsVersion (q.g.ix p.lid) with addr := BitVec.ofNat 64 addr })
          | (s, none) => .ok (s.telltaleStore q.t q.c.g q.c.addr x.kind parts, parts)
        else .ok (s, parts)

/-- An access instruction: held by a full counter, trapped, or in flight (R241, R245). -/
def Iss.access (q : Iss) (x : Access) (k : BitVec 4) (zeros : List PWrite) : Eff :=
  match q.checked x with
  | .error t => .trap t
  | .ok (s, parts) =>
    if q.ex ≠ 0 && q.g.full x.path then .hold .none
    else .ok (q.enter s x.path x.kind parts x.hint k zeros (q.ex == 0))

/-! ### Scopes (R56, R261, R267, R272, R274, R281) -/

/-- The DET_SCOPE and SCOPE_DENIED checks of a scope code, `atomic` for ATOM and REDM (R274). -/
def Iss.scopeTrap (q : Iss) (sc : Nat) (atomic : Bool) : Option Trap :=
  let hv := ((q.s.tenants[q.t.tenant]?).map (·.hvScope)).getD 0
  if mrDet q.g.mr && decide (1 < sc) then some (q.trap clsDet)
  else if (sc = 5 && !hv.testBit (if atomic then 1 else 0)) || (atomic && q.t.hdr.level ≠ 0 && decide (1 < sc)) then some (q.trap clsScope)
  else none

/-- Perform every earlier access of the group, the accesses of the issue itself set apart (R262, R275; log 4, DEDUCED). -/
def State.flushOlder (s : State) (tid gi id : Nat) : State :=
  match s.group? tid gi with
  | none => s
  | some g => (s.flushIds tid gi ((g.flight.map (·.id)).filter (· != id))).drainWc (WcEntry.ofGroup tid gi)

/-- Perform the earlier accesses of the group, where this one may not be performed before them: it releases, or some earlier part meets
one of its own in a lane, or is a DEVICE access to the same page (R259, R262; log 3, DESIGN CHOICE). -/
def State.flushBefore (s : State) (tid gi id : Nat) : State :=
  match s.group? tid gi with
  | none => s
  | some g =>
    match g.flight.find? (fun o => o.id == id) with
    | none => s
    | some o =>
      let older := g.flight.takeWhile (fun x => x.id != id)
      let page := fun (p : Part) => p.device.any (fun d => o.parts.any (fun r => r.device.contains d))
      let s := if o.releases || older.any (fun x => x.parts.any (fun p => o.parts.any p.meets || page p)) then s.flushIds tid gi (older.map (·.id)) else s
      if o.releases then s.drainWc (WcEntry.ofGroup tid gi) else s

/-- Perform an access in flight now, with what must come before it (R262, R276, R279). -/
def State.performNow (s : State) (tid gi id : Nat) : State := (s.flushBefore tid gi id).performOp tid gi id (fun _ => true) false

/-- The agent whose group is to see no older L1 fill (R265). -/
def State.renewL1 (s : State) (tid gi : Nat) : State := s.modTeam tid (fun t => t.freshL1 gi s.stamp)

end Sys2Proof.Machine
end

