-- ==== Sys2Proof/Machine/MatrixGroup.lean ====
section
/-!
DEFINITION. Matrix operand formats and tile images (R308, R309), B blocks in V registers (R313), and the group instructions of the matrix
arrays: LDMB, MSTART, MACC.RD and MACC.WR (R312-R315, R331).
-/
namespace Sys2Proof.Machine

/-! ### B blocks (R313) -/

/-- Byte b of the block's image in the group's registers. -/
def Team.blockByte (t : Team) (g : Group) (first b : Nat) : Byte :=
  BitVec.ofNat 8 (((t.lane (g.first + b % (4 * g.count) / 4)).v.get (first + b / (4 * g.count))).toNat / 2 ^ (8 * (b % 4)))

/-! ### LDMB (R314) -/

/-- The 8-byte parts of the image at an address. -/
def Iss.imageParts (q : Iss) (lid va : Nat) (scratch : Bool) : State → List Nat → State × Except (Nat × XErr) (List Part)
  | s, [] => (s, .ok [])
  | s, j :: rest =>
    if scratch then
      match q.imageParts lid va scratch s rest with
      | (s, .ok l) => (s, .ok ({ lid := lid, ix := 8 * j, scratch := true, va := va + 8 * j, pa := va + 8 * j, mt := .uncached, cut := 8, pa2 := 0,
                                 size := 8, data := 0, data2 := 0 } :: l))
      | r => r
    else
      match s.place q.t true lid (8 * j) (va + 8 * j) 8 0 0 ⟨.load, false, 8⟩ with
      | (s, .error e) => (s, .error e)
      | (s, .ok p) =>
        match q.imageParts lid va scratch s rest with
        | (s, .ok l) => (s, .ok (p :: l))
        | r => r

/-- An image of S bytes fails SEG: limit, or the alignment of 32 (R240, R314). -/
def imageSegFails (limit n : Nat) (off : Int) : Bool := decide (Int.ofNat limit < off + Int.ofNat n) || decide (off % 32 ≠ 0)

/-- The registers an LDMB writes (R52, R314). -/
def Iss.blockTarget (q : Iss) (fmt : Nat) : List Target := [.v (blockFirst (q.fm.at .d)) (blockRegs fmt q.g.count)]

/-- LDMB (R314). -/
def execLdmb (k : BitVec 4) (t a : Code) (sp : BitVec 1) (fmt : BitVec 5) (s : State) :=
  let c := fmt.toNat
  issueWith (.ldmb k t a sp fmt) (fun q => q.blockTarget c) Iss.account (fun q =>
    let first := blockFirst (q.fm.at .d)
    let n := blockRegs c q.g.count
    let ad := blockFirst q.opA
    let size := mfImage 32 c
    let path := sp.toNat
    if q.t.hdr.budget q.g.role < first + n then .trap (q.trap clsIllegal)
    else if decide (1 < n) && spansMeet (first, n) (ad, 2) && (first, n) != (ad, 2) then .trap (q.trap clsOverlap)
    else
      let put := fun (s : State) (parts : List Part) (empty : Bool) =>
        (q.enter s path (.block first n size) parts 0 k [] empty).modGroup q.c.team q.c.g (fun g =>
          g.modWindow q.g.nextId (fun w => { w with dst := q.blockTarget c, whole := true }))
      match q.lanes.head? with
      | none => .ok (put q.s [] true)
      | some m =>
        let off : Int := Int.ofNat (q.a64 m).toNat
        if imageSegFails (q.segOf path).limit size off then .trap { q.trapAt clsSeg m with addr := BitVec.ofInt 64 off }
        else
          let va := q.formed path off m
          match q.imageParts (q.lid m) va (sp == 1) q.s (List.range (size / 8)) with
          | (s, .error (v, e)) => .trap (s.tookBy q.c.team (q.xlateTrap m v e .load))
          | (s, .ok parts) =>
            match (if sp = 1 then none else q.dataTrap true false [(q.lid m, va)]) with
            | some t => .trap (s.tookBy q.c.team t)
            | none => if q.g.full path then .hold .none else .ok (put s parts false)) s

/-! ### MSTART (R315) -/

/-- Change the stream of a team. -/
def Team.modStream (t : Team) (f : Stream → Stream) : Team := t.modBody (fun b => { b with stream := b.stream.map f })

/-- A window that holds no result: closing instructions wait for it (R315). -/
def Iss.plainWindow (q : Iss) (k : BitVec 4) : Window :=
  { id := q.g.nextId, addr := q.c.addr, path := none, remaining := k.toNat, lk15 := false, younger := 0, issued := 0, dst := [], pend := [],
    triple := none, done := true, flags := 0 }

/-- MEM_UE of the lowest lane whose part of a block holds an uncorrectable error: MSTART reads it in every existing lane (R236, R313). -/
def Iss.blockError (q : Iss) (first n : Nat) : Option Trap :=
  ((maskList q.g.exist).find? (fun i => (List.range n).any (fun k => (q.t.lane (q.lid i)).bad (.v (first + k))))).map (fun i => q.trapAt clsMemUe i)

/-- MSTART (R315, R326). -/
def execMstart (l : Option Word) (k : BitVec 4) (u : BitVec 1) (a b : Code) (s : State) :=
  issue (.mstart l k u a b) (fun q =>
    let ctl := q.uni .b
    let fmt := bitsOf ctl 4 0
    let first := blockFirst q.opA
    if q.t.body.stream.isNone || fmt = 0 || ctl &&& ~~~0x31F != 0 || q.t.hdr.budget q.g.role < first + blockRegs fmt q.g.count then
      .trap (q.trap clsIllegal)
    else match q.blockError first (blockRegs fmt q.g.count) with
    | some t => .trap t
    | none =>
      let img : Cells 8 := Cells.setRange [] 0 ((List.range (mfImage 32 fmt)).map (q.t.blockByte q.g first))
      let s := q.modTeam (fun t => t.modStream (fun st =>
        { st with b := listModify st.b (4 * u.toNat + bitsOf ctl 9 8) (fun _ => { bytes := img, tag := some fmt }) }))
      .ok (s.modGroup q.c.team q.c.g (fun g => { (g.openWindow q.c.f (q.plainWindow k)) with nextId := g.nextId + 1 }))) s

/-! ### MACC (R331) -/

/-- The place of an index in the accumulator store: quarter, slot and word (R311, R331). -/
def accIndex (x : Word) : Nat := x.toNat % 2 ^ 15

/-- The lanes of one MACC.WR in the order their words are written: ascending lids under DET, else an order left open (R331; log 9, DESIGN CHOICE). -/
def Iss.accOrder (q : Iss) : List Nat :=
  if mrDet q.g.mr then q.lanes else sortBy (fun i => Config.laneKey q.s.freeCount (q.lid i * 2)) q.lanes

/-- MACC.RD (R331). -/
def execMaccRd (l : Option Word) (d a : Code) (s : State) :=
  issue (.maccRd l d a) (fun q =>
    match q.t.body.stream with
    | none => .trap (q.trap clsIllegal)
    | some st => .ok (q.result (fun i => st.acc.get (accIndex (q.a i))))) s

/-- MACC.WR (R331). -/
def execMaccWr (l : Option Word) (a b : Code) (s : State) :=
  issue (.maccWr l a b) (fun q =>
    match q.t.body.stream with
    | none => .trap (q.trap clsIllegal)
    | some _ =>
      let s := q.modTeam (fun t => t.modStream (fun st =>
        { st with acc := q.accOrder.foldl (fun c i => c.set (accIndex (q.a i)) (q.b i)) st.acc }))
      .ok { s with freeCount := s.freeCount + 1 }) s

end Sys2Proof.Machine
end

