-- ==== Sys2Proof/Machine/StreamWords.lean ====
section
/-!
DEFINITION. The matrix stream: its words, the accumulator store, the MMA tree, MDRAIN, barriers and loops (R305-R334), and the trap of a
stream word (R307, R358).
-/
namespace Sys2Proof.Machine

/-! ### The issuer -/

/-- The stream that starts a word, with what the word reads. -/
structure SIss where
  c : Cur
  s : State
  t : Team
  st : Stream

/-- The stream that the state names. -/
def State.streamIssuer (s : State) : Option SIss :=
  match s.cur with
  | none => none
  | some c =>
    if !c.stream then none else
    match s.team? c.team with
    | none => none
    | some t => t.body.stream.map (fun st => { c := c, s := s, t := t, st := st })

/-- What a stream word comes to. -/
inductive SEff where
  /-- it completes, on a state whose stream still stands at the word -/
  | ok (s : State)
  /-- its effect sets the sequencer's next address itself -/
  | jump (s : State)
  /-- it waits, with no effect -/
  | hold (st : StreamSt)
  | trap (t : Trap)

/-- A trap of the stream's word (R307, R340, R358). -/
def SIss.trap (q : SIss) (cls : Nat) : Trap :=
  { id := 0, cls := cls, stream := true, g := 0xFF, pc := q.c.addr, lid := streamLid,
    words := if cls = clsIllegal || cls = clsJuryrig then [q.c.mainW, q.c.litW, 0] else [], task := q.t.body.task, lids := [], len := 8 }

/-- Change the issuing stream. -/
def SIss.modStream (q : SIss) (f : Stream → Stream) : State := q.s.modTeam q.c.team (fun t => t.modStream f)

/-- The sequencer goes on after a word (R328). -/
def Stream.advance (st : Stream) (a : DWord) : Stream :=
  let r := loopNext (a + 8) st.loops
  { st with addr := r.1, loops := r.2 }

/-- Take a trap of the stream: the sequencer stops at the word (R307, R358). -/
def State.stopStream (s : State) (tid : Nat) (tr : Trap) : State :=
  (s.modTeam tid (fun t => t.modStream (fun st => { st with st := .trapped }))).takeTrap tid tr

/-- Charge the clusters of a team's stream; the cycle of a charge is a heavy one for pipe 1 of that core (R216, R332). -/
def State.chargeStream (s : State) (t : Team) (w : Nat) : State :=
  match t.core? with
  | some n =>
    (s.chargeClusters t n w).modCore n (fun k => { k with heavy := k.heavy || w != 0 })
  | none => s

/-- Run a stream word of a charge (R307, R332). -/
def streamWord (charge : Nat) (eff : SIss → SEff) (s : State) : Host.Outcome State Fault Refusal :=
  match s.streamIssuer with
  | none => .refused .noIssuer
  | some q =>
    let s0 : State := { s with cur := none }
    let q := { q with s := (s0.chargeStream q.t charge).modTeam q.c.team (fun t => { t with issued := true }) }
    match eff q with
    | .ok s1 => .next (s1.modTeam q.c.team (fun t => t.modStream (fun st => st.advance q.c.addr)))
    | .jump s1 => .next s1
    | .hold w => .next (s0.modTeam q.c.team (fun t => t.modStream (fun st => { st with st := w })))
    | .trap t => .next (s0.stopStream q.c.team t)

/-! ### The accumulator store (R311) -/

/-- A tile's ATYPE and SLOT name it legally (R311). -/
def tileOk (at' : BitVec 2) (slot : BitVec 3) : Bool := at' != 3 && !(at' == 0 && slot.getLsbD 0)

/-- The format of an accumulator type (R311). -/
def accFmt (at' : BitVec 2) : Fmt := if at' = 0 then fp32 else if at' = 1 then bf16 else fp16

/-- The slot of an accumulator word. -/
def slotOf (k : Nat) : Nat := k / 1024 % 8

/-- The words of a tile: its slot, and the next one for FP32 (R311). -/
def inTile (at' : BitVec 2) (slot : BitVec 3) (k : Nat) : Bool :=
  slotOf k == slot.toNat || (at' == 0 && slotOf k == slot.toNat + 1)

/-- The place of element (r, c): the word, and whether its upper half (R311). -/
def elemPlace (at' : BitVec 2) (slot : BitVec 3) (r c : Nat) : Nat × Bool :=
  let e := r % 16 * 128 + c
  if at' = 0 then ((r / 16 * 8 + slot.toNat + e / 1024) * 1024 + e % 1024, false)
  else ((r / 16 * 8 + slot.toNat) * 1024 + e / 2, e % 2 = 1)

/-- The bits of element (r, c) of a tile (R311). -/
def accElem (acc : Cells 32) (at' : BitVec 2) (slot : BitVec 3) (r c : Nat) : Nat :=
  let p := elemPlace at' slot r c
  let w := (acc.get p.1).toNat
  if at' = 0 then w else if p.2 then w / 2 ^ 16 else w % 2 ^ 16

/-- Write the bits of element (r, c) of a tile (R311). -/
def setElem (acc : Cells 32) (at' : BitVec 2) (slot : BitVec 3) (r c x : Nat) : Cells 32 :=
  let p := elemPlace at' slot r c
  let w := (acc.get p.1).toNat
  acc.set p.1 (BitVec.ofNat 32 (if at' = 0 then x else if p.2 then w % 2 ^ 16 + x * 2 ^ 16 else w / 2 ^ 16 * 2 ^ 16 + x))

/-- +0 in every element of a tile (R319). -/
def clearTile (acc : Cells 32) (at' : BitVec 2) (slot : BitVec 3) : Cells 32 := acc.keep (fun k => !inTile at' slot k)

/-- A function of the bits of every element of a tile that keeps zero, applied to the words that are listed. -/
def mapTile (acc : Cells 32) (at' : BitVec 2) (slot : BitVec 3) (f : Nat → Nat) : Cells 32 :=
  acc.filterMap (fun p =>
    if inTile at' slot p.1 then
      let w := p.2.toNat
      let v : Word := BitVec.ofNat 32 (if at' = 0 then f w else f (w % 2 ^ 16) + f (w / 2 ^ 16) * 2 ^ 16)
      if v = 0 then none else some (p.1, v)
    else some p)

/-! ### Operand elements (R309, R310) -/

/-- The value of an element code of a format, without its scale (R147, R149). -/
def mfElem (c x : Nat) : FVal :=
  let int := fun (v : Int) (e : Int) => FVal.fin (decide (v < 0)) v.natAbs e
  let k := if 12 ≤ c && c ≤ 23 then (c - 12) % 6 else 6
  if k < 5 then (match codeFmt (k + 3) with
    | some f => f.decode x
    | none => .nan false)
  else if k = 5 then int (sextNat 8 x) (-6)
  else if 1 ≤ c && c ≤ 7 then (match codeFmt c with
    | some f => f.decode x
    | none => .nan false)
  else if c = 8 || c = 24 then int (sextNat 8 x) 0
  else if c = 9 then int (Int.ofNat x) 0
  else if c = 10 || c = 25 then int (sextNat 4 x) 0
  else if c = 11 then int (Int.ofNat x) 0
  else if c = 26 then e4m3.decode x
  else if c = 27 then e2m1.decode x
  else if c = 28 then fp16.decode x
  else if c = 29 then bf16.decode x
  else if c = 30 then (if x = 1 then .fin false 1 0 else if x = 3 then .fin true 1 0 else .fin false 0 0)
  else .fin (x == 1) 1 0

/-- An exact product (R320): 0 × ∞ and any NaN give NaN. -/
def exactMul (x y : FVal) : FVal :=
  match x, y with
  | .nan _, _ => .nan false
  | _, .nan _ => .nan false
  | .fin n1 m1 e1, .fin n2 m2 e2 => .fin (n1 != n2) (m1 * m2) (e1 + e2)
  | x, y => if x.isZero || y.isZero then .nan false else .inf (x.neg != y.neg)

/-- The value of an E8M0 code (R148). -/
def e8m0 (s : Nat) : FVal := if s = 255 then .nan false else .fin false 1 (Int.ofNat s - 127)

/-- The scale of element k of line j of an image of n lines (R152, R309). -/
def lineScale (img : Cells 8) (c n j k : Nat) : Option FVal :=
  let a := n * mfL c + mfSigma c * j
  if 12 ≤ c && c ≤ 17 then some (e8m0 (img.get (a + k / 32)).toNat)
  else if 18 ≤ c && c ≤ 23 then some (e8m0 (img.get (a + k / 16)).toNat)
  else if 24 ≤ c && c ≤ 27 then some (fp32.decode (img.readNat a 4))
  else if c = 28 || c = 29 then some (e8m0 (img.get a).toNat)
  else none

/-- An element's value under its line's scale; an infinity stays infinite whatever its scale (R310). -/
def scaled (s : Option FVal) (v : FVal) : FVal :=
  match s, v with
  | _, .inf n => .inf n
  | some s, v => exactMul s v
  | none, v => v

/-- The values of line j of an image (R309, R310). -/
def lineValues (img : Cells 8) (c n j : Nat) : List FVal :=
  let w := 8 * mfL c / mfK c
  let x := img.readNat (mfL c * j) (mfL c)
  (List.range (mfK c)).map (fun k =>
    scaled (lineScale img c n j k) (mfElem c (x / 2 ^ (w * k) % 2 ^ w)))

/-! ### The MMA tree (R320) -/

/-- Rounding to a 24-bit significand under RNE with an unbounded exponent (R320). -/
def round24 (neg : Bool) (m : Nat) (e : Int) : FVal :=
  let u := Int.ofNat (log2Nat m) + e - 23
  if u ≤ e then .fin neg m e else .fin neg (roundUnits 0 0 neg m e u).1 u

/-- sum(x, y) (R320): an exact zero sum is +0. -/
def mmaSum (x y : FVal) : FVal :=
  match x, y with
  | .nan _, _ => .nan false
  | _, .nan _ => .nan false
  | .inf a, .inf b => if a = b then .inf a else .nan false
  | .inf a, _ => .inf a
  | _, .inf b => .inf b
  | .fin n1 m1 e1, .fin n2 m2 e2 =>
    let r := dyAdd 0 n1 m1 e1 n2 m2 e2
    if r.2.1 = 0 then .fin false 0 0 else round24 r.1 r.2.1 r.2.2

/-- One level of the tree: neighbours are added. -/
def mmaLevel : List FVal → List FVal
  | x :: y :: rest => mmaSum x y :: mmaLevel rest
  | l => l

/-- The tree over 2^n products (R320). -/
def mmaDot : Nat → List FVal → FVal
  | 0, l => l.headD (.fin false 0 0)
  | n + 1, l => mmaDot n (mmaLevel l)

/-- acc(r, c) after an MMA whose tree gave T (R320). -/
def mmaElem (f : Fmt) (ovw : Bool) (old : Nat) (t : FVal) : Nat :=
  if ovw then (fconvert f 0 0 false false t).1
  else (({ f := f, mode := 0, rv := 0, ftz := false } : RCtx).add (f.decode old) t).1

/-- The buffers an MMA names hold its formats (R320). -/
def SIss.mmaReady (q : SIss) (af bf : Nat) (ab bb : Nat) : Bool :=
  ((q.st.a[ab]?).bind (·.tag)) == some af
  && (List.range 4).all (fun i => ((q.st.b[4 * bb + i]?).bind (·.tag)) == some bf)

/-- The accumulator store after an MMA (R320). -/
def SIss.mmaAcc (q : SIss) (af bf : Nat) (at' : BitVec 2) (slot : BitVec 3) (ab bb : Nat) (ovw : Bool) : Cells 32 :=
  let rows := (List.range 64).map (lineValues (((q.st.a[ab]?).map (·.bytes)).getD []) af 64)
  let cols := (List.range 128).map (fun c => lineValues (((q.st.b[4 * bb + c / 32]?).map (·.bytes)).getD []) bf 32 (c % 32))
  let old := q.st.acc
  (rows.zipIdx).foldl (fun acc r => (cols.zipIdx).foldl (fun acc c =>
    setElem acc at' slot r.2 c.2
      (mmaElem (accFmt at') ovw (accElem old at' slot r.2 c.2) (mmaDot (log2Nat (mfK af)) (List.zipWith exactMul r.1 c.1)))) acc) old

/-- MMA (R320, R332). -/
def execMma (afmt bfmt : BitVec 5) (atype : BitVec 2) (slot : BitVec 3) (abuf bbuf ovw : BitVec 1) (s : State) :=
  streamWord 4096 (fun q =>
    let af := afmt.toNat
    let bf := bfmt.toNat
    if af = 0 || bf = 0 || mfK af ≠ mfK bf || !tileOk atype slot || !q.mmaReady af bf abuf.toNat bbuf.toNat then .trap (q.trap clsIllegal)
    else .ok (q.modStream (fun st => { st with acc := q.mmaAcc af bf atype slot abuf.toNat bbuf.toNat (ovw == 1) }))) s

/-- MZERO (R319). -/
def execMzero (atype : BitVec 2) (slot : BitVec 3) (s : State) :=
  streamWord 0 (fun q =>
    if !tileOk atype slot then .trap (q.trap clsIllegal)
    else .ok (q.modStream (fun st => { st with acc := clearTile st.acc atype slot }))) s

/-- MSCALE: every element times 2^SCL under RNE, SCL signed (R319). -/
def execMscale (scl : BitVec 8) (atype : BitVec 2) (slot : BitVec 3) (s : State) :=
  streamWord 0 (fun q =>
    if !tileOk atype slot then .trap (q.trap clsIllegal)
    else
      let f := accFmt atype
      let c : RCtx := { f := f, mode := 0, rv := 0, ftz := false }
      .ok (q.modStream (fun st => { st with acc := mapTile st.acc atype slot (fun x => (c.scale (f.decode x) scl.toInt).1) }))) s

/-! ### The scratchpad (R307, R317, R318, R330) -/

/-- The size of the team's scratchpad on its core (R233, R307). -/
def SIss.pool (q : SIss) : Nat :=
  match q.t.core?.bind (fun c => q.s.cores[c]?) with
  | some c => (c.pb2 - c.pb1) * 1024
  | none => 0

/-- A scratchpad range fails SEG (R307). -/
def SIss.rangeFails (q : SIss) (align : Nat) (a : Int) (n : Nat) : Bool :=
  decide (a < 0) || decide (Int.ofNat q.pool < a + Int.ofNat n) || decide (a % Int.ofNat align ≠ 0)

/-- The SEG trap of a scratchpad address (R307, R340). -/
def SIss.segTrap (q : SIss) (a : Int) : Trap := { q.trap clsSeg with addr := BitVec.ofInt 64 a }

/-- The first scratch word with an uncorrectable error in a range (R236). -/
def SIss.scratchUE (q : SIss) (a n : Nat) : Option Nat :=
  q.t.body.scratchUE.find? (fun w => decide (4 * w < a + n) && decide (a < 4 * w + 4))

/-- The MEM_UE trap of a scratchpad word (R307). -/
def SIss.ueTrap (q : SIss) (a : Nat) : Trap := { q.trap clsMemUe with addr := BitVec.ofNat 64 a }

/-- The loop index that LSEL names (R317). -/
def SIss.index (q : SIss) (lsel : BitVec 2) : Nat :=
  if lsel = 1 then ((q.st.loops[0]?).map (·.index)).getD 0
  else if lsel = 2 then ((q.st.loops[1]?).map (·.index)).getD 0 else 0

/-- An offset in 32-byte units with its signed stride, exactly (R316, R317). -/
def SIss.offset (q : SIss) (off stride : BitVec 16) (lsel : BitVec 2) : Int :=
  32 * (Int.ofNat off.toNat + stride.toInt * Int.ofNat (q.index lsel))

/-- The bytes of a range of a store, at offsets from zero. -/
def cutBytes (c : Cells 8) (a n : Nat) : Cells 8 :=
  c.filterMap (fun p => if a ≤ p.1 && p.1 < a + n then some (p.1 - a, p.2) else none)

/-- MLDA (R318, R332). -/
def execMlda (fmt : BitVec 5) (abuf : BitVec 1) (lsel : BitVec 2) (stride off : BitVec 16) (s : State) :=
  streamWord 512 (fun q =>
    let n := mfImage 64 fmt.toNat
    let a := q.offset off stride lsel
    if fmt = 0 || lsel = 3 then .trap (q.trap clsIllegal)
    else if q.rangeFails 32 a n then .trap (q.segTrap a)
    else
      match q.scratchUE a.toNat n with
      | some w => .trap (q.ueTrap (4 * w))
      | none =>
        let img := cutBytes q.t.body.scratch a.toNat n
        .ok (q.modStream (fun st => { st with a := listModify st.a abuf.toNat (fun _ => { bytes := img, tag := some fmt.toNat }) }))) s

/-- The place of accumulator word k in a slot's 16 KiB image: quarter and word (R330). -/
def slotByte (k : Nat) : Nat := k / 8192 * 4096 + k % 1024 * 4

/-- The accumulator word of a byte of a slot's image (R330). -/
def slotWord (slot b : Nat) : Nat := (b / 4096 * 8 + slot) * 1024 + b % 4096 / 4

/-- A drain event of Telltale, of the stream (R389). -/
def SIss.telDrain (q : SIss) (l : List TelLane) : TelEvent := { kind := 3, op := 0, group := 0xFF, pc := q.c.addr.toNat, lanes := l }

/-- MACC.RD of the stream: slot into scratchpad (R330). -/
def execMaccRdStream (slot : BitVec 3) (off : BitVec 16) (s : State) :=
  streamWord 512 (fun q =>
    let a := 32 * off.toNat
    if q.rangeFails 32 (Int.ofNat a) 16384 then .trap (q.segTrap (Int.ofNat a))
    else
      .ok (q.s.modTeam q.c.team (fun t => t.modBody (fun b =>
        let rest := b.scratch.keep (fun k => !(decide (a ≤ k) && decide (k < a + 16384)))
        let mine := q.st.acc.filter (fun p => slotOf p.1 == slot.toNat)
        { b with scratch := mine.foldl (fun c p => c.writeNat (a + slotByte p.1) 4 p.2.toNat) rest,
                 scratchUE := clearScratchUE b.scratchUE a 16384 })))) s

/-- MACC.WR of the stream: scratchpad into slot (R330). -/
def execMaccWrStream (slot : BitVec 3) (off : BitVec 16) (s : State) :=
  streamWord 512 (fun q =>
    let a := 32 * off.toNat
    if q.rangeFails 32 (Int.ofNat a) 16384 then .trap (q.segTrap (Int.ofNat a))
    else
      match q.scratchUE a 16384 with
      | some w => .trap (q.ueTrap (4 * w))
      | none =>
        let bytes := cutBytes q.t.body.scratch a 16384
        .ok ((q.modStream (fun st =>
          let rest := st.acc.keep (fun k => slotOf k != slot.toNat)
          { st with acc := bytes.foldl (fun c p =>
              let k := slotWord slot.toNat p.1
              c.set k (c.get k ||| BitVec.ofNat 32 (p.2.toNat * 2 ^ (8 * (p.1 % 4))))) rest })).telNote q.t
            (q.telDrain (bytes.map (fun p => { lid := 0, mask := 1, addr := 16384 * slot.toNat + p.1, data := p.2.toNat }))))) s

/-! ### Barriers, loops and the end (R325-R329) -/

/-- MARRB (R224, R325). -/
def execMarrb (n : BitVec 4) (s : State) :=
  streamWord 0 (fun q =>
    match q.t.body.barriers[n.toNat]? with
    | none => .trap (q.trap clsIllegal)
    | some b =>
      if !b.stream then .trap (q.trap clsIllegal)
      else if b.streamArr then .hold (.stallBarrier n.toNat b.c)
      else
        let s := q.s.modTeam q.c.team (fun t => (t.modBody (fun bd =>
          { bd with barriers := listModify bd.barriers n.toNat (fun b => { b with streamArr := true }) })).modStream (fun st => st.advance q.c.addr))
        .jump (s.testBarrier q.c.team n.toNat)) s

/-- MWAITB (R325). -/
def execMwaitb (n : BitVec 4) (s : State) :=
  streamWord 0 (fun q =>
    let k := (q.st.t[n.toNat]?).getD 0
    match q.t.body.barriers[n.toNat]? with
    | some b =>
      if phasePassed b.c k then .ok (q.modStream (fun st => { st with t := listModify st.t n.toNat (· + 1) }))
      else .hold (.waitBarrier n.toNat)
    | none => .hold (.waitBarrier n.toNat)) s

/-- MLOOP (R328). -/
def execMloop (count : BitVec 16) (body : BitVec 10) (s : State) :=
  streamWord 0 (fun q =>
    let start := q.c.addr + 8
    let stop := start + BitVec.ofNat 64 (8 * body.toNat)
    if count = 0 || body = 0 || decide (2 ≤ q.st.loops.length) || q.st.loops.any (fun l => decide (l.stop.toNat < stop.toNat)) then
      .trap (q.trap clsIllegal)
    else .jump (q.modStream (fun st => { st with addr := start, loops := { start := start, stop := stop, index := 0, count := count.toNat } :: st.loops }))) s

/-- The group index under which the stream's combining entries stand. -/
def streamGroup : Nat := 0xFF

/-- MEND: the stream's writes are performed and it stops for good; barriers it was needed at may complete (R327, R329). -/
def execMend (s : State) :=
  streamWord 0 (fun q =>
    let s := (q.modStream (fun st => { st with st := .ended })).drainWc (WcEntry.ofGroup q.c.team streamGroup)
    .jump ((s.testBarriers q.c.team (·.stream)).fixAll q.c.team)) s

/-! ### MDRAIN (R322-R324) -/

/-- A drain descriptor (R322). -/
structure DrainDesc where
  dbase : Nat
  pitch : Nat
  dst : Bool
  maxsp : Bool
  sbase : Nat
  maxaddr : Nat
  deriving DecidableEq, Repr

/-- Bits of an output element and elements of a scale block, 0 for a plain format (R323). -/
def drainBits (of : Nat) : Nat :=
  if of = 0 then 32 else if of < 3 then 16 else if (of - 12) % 6 < 2 || (of - 12) % 6 = 5 then 8 else if (of - 12) % 6 < 4 then 6 else 4
def drainBlk (of : Nat) : Nat := if of < 12 then 0 else if of < 18 then 32 else 16

/-- The fields of MDRAIN are legal (R311, R316, R323, R324). -/
def drainOk (f : DrainFields) : Bool :=
  let of := f.ofmt.toNat
  (of < 3 || (12 ≤ of && of ≤ 23)) && f.rnd.toNat < 6 && tileOk f.atype f.slot && f.lsel != 3
  && f.mscope.toNat < 6 && (f.maxen == 1 || f.mscope == 0)

/-- The descriptor at a scratchpad offset, none where it breaks R322. -/
def SIss.desc (q : SIss) (f : DrainFields) (a : Nat) : Option DrainDesc :=
  let rd := q.t.body.scratch.readNat
  let fl := rd (a + 12) 4
  let d : DrainDesc := { dbase := rd a 8, pitch := rd (a + 8) 4, dst := natBits fl 0 0 = 1, maxsp := natBits fl 1 1 = 1,
                         sbase := rd (a + 16) 8, maxaddr := rd (a + 24) 8 }
  if natBits fl 31 2 = 0 && d.dbase % 32 == 0 && d.pitch % 32 == 0 && decide (16 * drainBits f.ofmt.toNat ≤ d.pitch)
      && d.sbase % 32 == 0 && d.maxaddr % 4 == 0 && !(d.maxsp && decide (1 < f.mscope.toNat)) then some d else none

/-- The stretches a drain writes: in GLOBAL, address, bytes (R323). -/
def drainSpans (f : DrainFields) (d : DrainDesc) : List (Bool × Nat × Nat) :=
  let blk := drainBlk f.ofmt.toNat
  (List.range 64).map (fun r => (d.dst, d.dbase + r * d.pitch, 16 * drainBits f.ofmt.toNat))
  ++ (if blk = 0 then [] else [(d.dst, d.sbase, 64 * (128 / blk))])

/-- The first SEG failure of a drain: outside the scratchpad, or, under the launch's SG0, outside its limit or off the alignment of the
writes: 8 bytes for the outputs, 4 for the merge (R240, R307, R322, R323). -/
def SIss.drainSeg (q : SIss) (spans : List (Bool × Nat × Nat)) : Option Trap :=
  let sg := q.t.seg0
  spans.findSome? (fun x =>
    if x.1 then
      let off : Int := Int.ofNat x.2.1 - Int.ofNat sg.base.toNat
      if off < 0 || Int.ofNat sg.limit < off + Int.ofNat x.2.2 || off % Int.ofNat (min 8 x.2.2) ≠ 0 then some (q.segTrap off) else none
    else if q.rangeFails 4 (Int.ofNat x.2.1) x.2.2 then some (q.segTrap (Int.ofNat x.2.1)) else none)

/-- The parts in GLOBAL at numbered addresses, of a unit's bytes each; the first that does not translate ends it. -/
def SIss.globalParts (q : SIss) (unit : Nat) (k : AccessKind) : State → List (Nat × Nat) → State × Except (Nat × XErr) (List Part)
  | s, [] => (s, .ok [])
  | s, (va, ix) :: rest =>
    match s.place q.t false streamLid ix va unit 0 0 ⟨k, true, unit⟩ with
    | (s, .error e) => (s, .error e)
    | (s, .ok p) =>
      match q.globalParts unit k s rest with
      | (s, .ok l) => (s, .ok (p :: l))
      | r => r

/-- The parts at numbered addresses, of a unit's bytes each; an address is a multiple of its unit. -/
def SIss.spanParts (q : SIss) (global : Bool) (unit : Nat) (k : AccessKind) (s : State) (l : List (Nat × Nat)) :
    State × Except (Nat × XErr) (List Part) :=
  if global then q.globalParts unit k s l
  else (s, .ok (l.map (fun x => { lid := streamLid, ix := x.2, scratch := true, va := x.1, pa := x.1, mt := .uncached, cut := unit, pa2 := 0,
                                  size := unit, data := 0, data2 := 0 })))

/-- The parts of every output stretch, in order. -/
def SIss.drainParts (q : SIss) (s : State) (f : DrainFields) (d : DrainDesc) : State × Except (Nat × XErr) (List Part) :=
  q.spanParts d.dst 8 .store s ((drainSpans f d).flatMap (fun x => (List.range (x.2.2 / 8)).map (fun j => x.2.1 + 8 * j))).zipIdx

/-- The scope checks of the merge (R267, R272, R324): DET, then SCOPE_DENIED. -/
def SIss.mergeTrap (q : SIss) (f : DrainFields) : Option Trap :=
  let sc := f.mscope.toNat
  let hv := ((q.s.tenants[q.t.tenant]?).map (·.hvScope)).getD 0
  if f.maxen = 0 then none
  else if q.t.hdr.det && decide (1 < sc) then some (q.trap clsDet)
  else if (sc = 5 && !hv.testBit 1) || (q.t.hdr.level ≠ 0 && decide (1 < sc)) then some (q.trap clsScope)
  else none

/-- The elements of a row as values of ATYPE (R323). -/
def SIss.rowValues (q : SIss) (f : DrainFields) (r : Nat) : List FVal :=
  (List.range 128).map (fun c => (accFmt f.atype).decode (accElem q.st.acc f.atype f.slot r c))

/-- The magnitude of a value. -/
def FVal.mag : FVal → FVal
  | .fin _ m e => .fin false m e
  | .inf _ => .inf false
  | v => v

/-- The largest magnitude of some values: a NaN wins (R179, R324). -/
def largest (l : List FVal) : FVal :=
  l.foldl (fun m x => if m.isNan || x.isNan then .nan false else if fle m x.mag then x.mag else m) (.fin false 0 0)

/-- x × 2^n exactly. -/
def FVal.shift (x : FVal) (n : Int) : FVal :=
  match x with
  | .fin s m e => .fin s m (e + n)
  | v => v

/-- The random value of element (r, c) (R323). -/
def SIss.drainRv (q : SIss) (f : DrainFields) (r c : Nat) : Nat :=
  bitsOf ((mix q.t.seed (siteOf q.c.addr) q.t.body.srCtr (r * 128 + c) f.srsel.toNat).getD 0 0) 15 0

/-- The scale codes of a row (R323). -/
def drainCodes (of : Nat) (row : List FVal) : List Nat :=
  let blk := drainBlk of
  if blk = 0 then []
  else (List.range (128 / blk)).map (fun j => (mxscCode of (largest ((row.drop (blk * j)).take blk))).1)

/-- One output element: plain, or of an MX block under its scale code (R323). -/
def drainElem (of rnd rv : Nat) (code : Option Nat) (x : FVal) : Nat :=
  match code with
  | none => (fconvert ((codeFmt of).getD fp32) rnd rv false false x).1
  | some c =>
    if c = 0xFF then 0
    else if (of - 12) % 6 = 5 then (fToInt 8 true rnd rv true (x.shift (133 - Int.ofNat c))).1
    else (fconvert ((codeFmt ((of - 12) % 6 + 3)).getD fp32) rnd rv true false (x.shift (127 - Int.ofNat c))).1

/-- The bytes of output row r, as a number, and its scale codes (R323). -/
def SIss.drainRow (q : SIss) (f : DrainFields) (r : Nat) : Nat × List Nat :=
  let of := f.ofmt.toNat
  let row := q.rowValues f r
  let codes := drainCodes of row
  let w := drainBits of
  (ofElems w (row.zipIdx.map (fun x =>
    drainElem of f.rnd.toNat (q.drainRv f r x.2) (if drainBlk of = 0 then none else codes[x.2 / drainBlk of]?) x.1)), codes)

/-- The data of the parts of a drain, in their order: 8 bytes of each row, then of the scale array (R323). -/
def SIss.drainData (q : SIss) (f : DrainFields) : List Nat :=
  let rows := (List.range 64).map (q.drainRow f)
  let n := 2 * drainBits f.ofmt.toNat
  let sc := ofElems 8 (rows.flatMap (·.2))
  let m := if drainBlk f.ofmt.toNat = 0 then 0 else 8 * (128 / drainBlk f.ofmt.toNat)
  rows.flatMap (fun r => (List.range n).map (fun j => r.1 / 2 ^ (64 * j) % 2 ^ 64))
  ++ (List.range m).map (fun j => sc / 2 ^ (64 * j) % 2 ^ 64)

/-- Merge M into the word at MAXADDR as REDM.FMAXA on f32 does (R278, R324). -/
def State.mergeMax (s : State) (tid : Nat) (p : Part) (m : Nat) : State :=
  let r := s.readPart tid s.stamp false { p with mt := if p.mt = .cached then .uncached else p.mt } 0
  let s := match (r.1.team? tid).bind Team.core? with
    | some c => if p.scratch then r.1 else r.1.modCore c (fun k => k.l1Drop p.pa)
    | none => r.1
  s.writePart tid streamGroup p (atomicNew 9 2 4 false r.2 m) 0

/-- The parts of the merge: its one word. -/
def SIss.mergeParts (q : SIss) (f : DrainFields) (d : DrainDesc) (s : State) : State × Except (Nat × XErr) (List Part) :=
  if f.maxen = 0 then (s, .ok []) else q.spanParts (!d.maxsp) 4 .atomic s [(d.maxaddr, 0)]

/-- The effect of an MDRAIN that has passed its checks: every output write, then the merge, then CLR (R323, R324, R334). -/
def SIss.drainEffect (q : SIss) (f : DrainFields) (s : State) (outs merge : List Part) : State :=
  let s := (outs.zip (q.drainData f)).foldl (fun s p => s.writePart q.c.team streamGroup p.1 p.2 0) s
  let m := toFp32 (largest ((List.range 64).flatMap (q.rowValues f)))
  let s := s.telNote q.t (q.telDrain ((outs.zip (q.drainData f)).map (fun p => { lid := 0, mask := 2 ^ p.1.size - 1, addr := p.1.va, data := p.2 })
    ++ merge.map (fun p => { lid := 0, mask := 2 ^ p.size - 1, addr := p.va, data := m })))
  let s := merge.foldl (fun s p =>
    (s.drainWc (WcEntry.ofGroup q.c.team streamGroup)).mergeMax q.c.team p m) s
  if f.clr = 1 then s.modTeam q.c.team (fun t => t.modStream (fun st => { st with acc := clearTile st.acc f.atype f.slot })) else s

/-- MDRAIN's checks after its descriptor, in the order of R307. -/
def SIss.drainRest (q : SIss) (f : DrainFields) (d : DrainDesc) : SEff :=
  let merge := if f.maxen = 1 then [(!d.maxsp, d.maxaddr, 4)] else []
  match q.drainSeg (drainSpans f d ++ merge) with
  | some t => .trap t
  | none =>
    let trap := fun (s : State) (t : Trap) => SEff.trap (s.tookBy q.c.team t)
    let xl := fun (s : State) (va : Nat) (e : XErr) (k : AccessKind) =>
      trap s { q.trap clsXlate with addr := BitVec.ofNat 64 va, xlate := e.word k, served := e.served }
    match q.drainParts q.s f d with
    | (s, .error (va, e)) => xl s va e .store
    | (s, .ok outs) =>
      match q.mergeParts f d s with
      | (s, .error (va, e)) => xl s va e .atomic
      | (s, .ok mp) =>
        match mp.find? (s.partPoisoned q.t) with
        | some p => trap s (q.ueTrap p.va)
        | none =>
          match q.mergeTrap f with
          | some t => trap s t
          | none =>
            match s.takeFor q.t (partLines (outs ++ mp)) with
            | (s, some (_, a)) => trap s { q.trap clsVersion with addr := BitVec.ofNat 64 a }
            | (s, none) => .ok (q.drainEffect f s outs mp)

/-- MDRAIN (R307, R322-R324, R332). -/
def execMdrain (f : DrainFields) (s : State) :=
  streamWord 1024 (fun q =>
    let a := q.offset f.doff f.dstride f.lsel
    if !drainOk f then .trap (q.trap clsIllegal)
    else if q.rangeFails 32 a 32 then .trap (q.segTrap a)
    else
      match q.scratchUE a.toNat 32 with
      | some w => .trap (q.ueTrap (4 * w))
      | none =>
        match q.desc f a.toNat with
        | none => .trap (q.trap clsIllegal)
        | some d => q.drainRest f d) s

end Sys2Proof.Machine
end

