-- ==== Sys2Proof/Machine/Cards.lean ====
section
/-!
DEFINITION. Chains and cards: the chain control block in memory (R282-R284), the card and its checks (R285-R287), and the position of a
chain (R284, R298).
-/
namespace Sys2Proof.Machine

/-! ### Blocks that may cross a page -/

/-- The place of a byte of a block, and the type of its page. -/
def Loc.byte (l : Loc) (k : Nat) : Nat := if k < l.cut then l.pa + k else l.pa2 + (k - l.cut)
def Loc.typeAt (l : Loc) (k : Nat) : MemType := if k < l.cut then l.mt else l.mt2

/-- The committed value of n bytes of a block from an offset. -/
def State.locRead (s : State) (l : Loc) (off n : Nat) : Nat :=
  if off + n ≤ l.cut || l.cut ≤ off then s.physRead (l.byte off) n
  else natOfBytes ((List.range n).map (fun k => s.physByte (l.byte (off + k))))

/-- The scheduler writes n bytes of a block of a tenant from an offset, as their pages' types have it (R259, R402; logs 14, 49). -/
def State.locWrite (s : State) (ten : Nat) (l : Loc) (off n x : Nat) : State :=
  if off + n ≤ l.cut || l.cut ≤ off then (s.reach (.vf ten) true (l.byte off) n (l.typeAt off)).physWrite (l.byte off) n x
  else (List.range n).foldl (fun s k =>
    (s.reach (.vf ten) true (l.byte (off + k)) 1 (l.typeAt (off + k))).physWrite (l.byte (off + k)) 1 (x / 2 ^ (8 * k))) s

/-- The place of a block of n bytes that the scheduler reads, as a load finds it (R282, R290). -/
def State.locate (s : State) (core : Option Nat) (ten ctx va n : Nat) : State × Except (Nat × XErr) Loc :=
  match s.translateSpan core ten ctx va n ⟨.load, false, 8⟩ with
  | (s, .error e) => (s, .error e)
  | (s, .ok l) =>
    let s := s.reach (.vf ten) false l.pa (min l.cut n) l.mt
    (if l.cut < n then s.reach (.vf ten) false l.pa2 (n - l.cut) l.mt2 else s, .ok l)

/-! ### The chain control block (R283) -/

/-- "No failure" (R283). -/
def noFailure : Nat := 2 ^ 64 - 1

/-- Fields of the CCB at a place. -/
def State.ccbClass (s : State) (l : Loc) : Nat := s.locRead l 0 1
def State.ccbMask (s : State) (l : Loc) : Nat := s.locRead l 1 1
def State.ccbLog2 (s : State) (l : Loc) : Nat := s.locRead l 2 1
def State.ccbRing (s : State) (l : Loc) : Nat := s.locRead l 8 8
def State.ccbTail (s : State) (l : Loc) : Nat := s.locRead l 16 8
def State.ccbSeq (s : State) (l : Loc) : Nat := s.locRead l 24 8
def State.ccbErrCode (s : State) (l : Loc) : Nat := s.locRead l 40 1

/-- A byte of ERRPOS: what was last written there, and else its reset, all ones (R5, R283; log 29, DEDUCED). -/
def State.errPosByte (s : State) (pa : Nat) : Byte := if s.physByte pa = 0 && s.zeroed.get pa == 0 then 0xFF else s.physByte pa

/-- ERRPOS of the CCB at a place (R283). -/
def State.ccbErrPos (s : State) (l : Loc) : Nat := natOfBytes ((List.range 8).map (fun k => s.errPosByte (l.byte (32 + k))))

/-- The engines of a class (R21, R283). -/
def engineCount (cls : Nat) : Nat := if cls = 1 then 8 else if cls = 2 then 4 else if cls = 3 then 2 else 0

/-- Collective engine q serves a tenant (R420). -/
def State.portFor (s : State) (q ten : Nat) : Bool :=
  match s.quay[q]? with
  | some p => p.en && p.owner == ten
  | none => false

/-- The engines a chain's cards may run on; none for a disabled chain (R283, R420). -/
def State.chainEngines (s : State) (l : Loc) (ten : Nat) : List Nat :=
  let cls := s.ccbClass l
  let es := (List.range (engineCount cls)).filter (fun e => (s.ccbMask l).testBit e)
  if 10 < s.ccbLog2 l then []
  else if cls = 3 && es.any (fun q => !s.portFor q ten) then []
  else es

/-! ### Cards (R285-R287) -/

/-- Word k of a card. -/
def cardWord (w : List Word) (k : Nat) : Nat := (w.getD k 0).toNat

/-- OP, SCOPE and the arguments of a card (R285). -/
def cardOp (w : List Word) : Nat := natBits (cardWord w 0) 7 0
def cardScope (w : List Word) : Nat := natBits (cardWord w 0) 10 8
def cardArg0 (w : List Word) : Nat := cardWord w 2 + 2 ^ 32 * cardWord w 3
def cardArg1 (w : List Word) : Nat := cardWord w 4 + 2 ^ 32 * cardWord w 5

/-- A region: base, length and flags RD + 2 × WR (R285, R286). -/
structure Region where
  base : Nat
  len : Nat
  flags : Nat
  deriving DecidableEq, Repr

/-- Region j of a card (R285). -/
def cardRegion (w : List Word) (j : Nat) : Region :=
  { base := cardWord w (8 + 4 * j) + 2 ^ 32 * cardWord w (9 + 4 * j), len := cardWord w (10 + 4 * j), flags := cardWord w (11 + 4 * j) }

/-- The existing regions of a card: its footprint (R286). -/
def cardRegions (w : List Word) : List Region := ((List.range 4).map (cardRegion w)).filter (fun r => r.len ≠ 0)

/-- An absent region is all zero; an existing one reads or writes and stays below 2^52 (R286, R287). -/
def Region.ok (r : Region) : Bool :=
  if r.len = 0 then r.flags == 0 && r.base == 0 else decide (1 ≤ r.flags) && decide (r.flags ≤ 3) && decide (r.base + r.len ≤ 2 ^ 52)

/-- The class of an operation; none for any other OP (R287). -/
def cardClass (w : List Word) : Option Nat :=
  let op := cardOp w
  if 1 ≤ op && op ≤ 3 then some 1 else if op = 0x10 || op = 0x11 then some 2 else if 0x20 ≤ op && op ≤ 0x22 then some 3 else none

/-- Two regions share a byte. -/
def Region.meets (a b : Region) : Bool := decide (a.base < b.base + b.len) && decide (b.base < a.base + a.len)

/-- The flags of the regions an operation has, region 0 first (R287). -/
def opRegions (op : Nat) : List Nat :=
  if op = 0x01 || op = 0x03 then [1, 2] else if op = 0x02 || op = 0x21 then [2]
  else if op = 0x10 || op = 0x11 then [1, 1, 2] else if op = 0x20 then [1] else if op = 0x22 then [3] else []

/-- The rules of the operations on lengths and arguments (R287). Of a COPY2D with rows of no bytes the rows' places must lie inside the regions
all the same (log 21, DESIGN CHOICE). -/
def opArgsOk (w : List Word) : Bool :=
  let op := cardOp w
  let r0 := cardRegion w 0
  let r1 := cardRegion w 1
  let r2 := cardRegion w 2
  let a0 := cardArg0 w
  let a1 := cardArg1 w
  let e := a0
  if op = 0x01 then a0 == 0 && a1 == 0 && r0.len == r1.len && !r0.meets r1
  else if op = 0x02 then decide (a0 < 2 ^ 32) && a1 == 0 && r0.base % 4 == 0 && r0.len % 4 == 0
  else if op = 0x03 then
    let b := natBits a0 31 0
    let n := natBits a0 63 32
    let p := natBits a1 31 0
    let p' := natBits a1 63 32
    decide (b ≤ p) && decide (b ≤ p') && (n == 0 || (decide ((n - 1) * p + b ≤ r0.len) && decide ((n - 1) * p' + b ≤ r1.len)))
  else if op = 0x10 then
    (List.range 11).any (fun k => e == 4 * 2 ^ k) && a1 == 0 && r0.len % 4 == 0 && r2.len == r0.len / 4 * e
  else if op = 0x11 then
    (List.range 11).any (fun k => e == 4 * 2 ^ k) && a1 == 0 && r0.len % 4 == 0 && r1.len == r0.len / 4 * e
  else if op = 0x22 then decide (a0 < 2 ^ 32) && decide (a1 < 2)
  else decide (a0 < 2 ^ 32) && a1 == 0

/-- A well-formed card (R285-R287). -/
def cardOk (w : List Word) : Bool :=
  let fl := opRegions (cardOp w)
  cardWord w 0 < 2 ^ 11 && decide (cardScope w < 6)
  && [1, 6, 7, 24, 25, 26, 27, 28, 29, 30, 31].all (fun k => cardWord w k == 0)
  && (cardClass w).isSome
  && (List.range 4).all (fun j => (cardRegion w j).ok && (cardRegion w j).flags == fl.getD j 0)
  && opArgsOk w

/-! ### Positions (R284) -/

/-- Cards of a chain that have not completed. -/
def State.outstanding (s : State) (o : CardOwner) : List Card := s.cards.filter (fun c => c.owner == o)

/-- The lowest position not completed, when `tail` cards were accepted (R284). -/
def State.seqOf (s : State) (o : CardOwner) (tail : Nat) : Nat := (minBy (fun p => p) ((s.outstanding o).map (·.pos))).getD tail

/-- EWAIT's condition on the completion number (R297). -/
def seqReached (seq v : Nat) : Bool := decide ((seq + 2 ^ 32 - v % 2 ^ 32) % 2 ^ 32 < 2 ^ 31)

/-! ### Reading a chain (R282, R290) -/

/-- The place of a part. -/
def Part.loc (p : Part) : Loc := { pa := p.pa, cut := p.cut, pa2 := p.pa2, mt := p.mt, mt2 := p.mt2 }

/-- The place of chain k's CCB: its 64 bytes are checked against SG5 and translated as a load that names the issuing fragment's lowest lane,
whatever EXEC holds; R240 and R282 state such checks for a card's slot only (R290; log 29, DESIGN CHOICE). On a trailing core it is the leading
one's, or none where that read no CCB (R388). -/
def Iss.ccb (q : Iss) (k : Nat) : Except (Option Trap) (State × Loc) :=
  let off : Int := Int.ofNat (64 * k)
  let va := (q.segOf 5).base.toNat + 64 * k
  let lid := q.f.lowest q.g
  let fails := fun (va : Nat) (e : XErr) => { q.trap clsXlate with addr := BitVec.ofNat 64 va, xlate := e.word .load, served := e.served }
  if segFails (q.segOf 5).limit 64 off then .error (some { q.trap clsSeg with addr := BitVec.ofInt 64 off })
  else
    match q.t.lead with
    | some l =>
      (match l.answers true lid 0 va 64 0 0 with
       | .error (va, e) => .error (some (fails va e))
       | .ok p => if p.blind then .error none else .ok (q.s, p.loc))
    | none =>
      match q.s.locate q.t.core? q.t.tenant q.t.ctx va 64 with
      | (_, .error (va, e)) => .error (some (fails va e))
      | (s, .ok l) => .ok (s.keepTook q.t (s.partAt q.t lid 0 va 64 0 0 l), l)

/-- Why a slot cannot be read: its offset is outside CARD space, or an address does not translate. -/
inductive SlotErr where
  | seg (off : Nat)
  | xlate (va : Nat) (e : XErr)
  deriving DecidableEq, Repr

/-- The trap of such a slot, at the place of an ETAIL. -/
def SlotErr.trap (x : SlotErr) (site : Trap) : Trap :=
  match x with
  | .seg off => { site with cls := clsSeg, words := [], addr := BitVec.ofNat 64 off }
  | .xlate va e => { site with cls := clsXlate, words := [], addr := BitVec.ofNat 64 va, xlate := e.word .load, served := e.served }

/-- A trap of the leading core's ETAIL as it reaches a trailing one, at the site of its own (R388). -/
def Trap.echo (tr site : Trap) : Trap :=
  { site with cls := tr.cls, words := if tr.cls = clsIllegal then site.words else [], detail := tr.detail, addr := tr.addr, xlate := tr.xlate,
              served := tr.served }

/-- The words of the card in the slot of a position of a chain (R282, R290). -/
def State.readSlot (s : State) (core : Option Nat) (ten ctx : Nat) (seg : Seg) (ccb : Loc) (pos : Nat) : State × Except SlotErr (List Word) :=
  let off := s.ccbRing ccb + 128 * (pos % 2 ^ s.ccbLog2 ccb)
  if segFails seg.limit 128 (Int.ofNat off) then (s, .error (.seg off))
  else
    match s.locate core ten ctx (seg.base.toNat + off) 128 with
    | (s, .error (va, e)) => (s, .error (.xlate va e))
    | (s, .ok l) => (s, .ok ((List.range 32).map (fun k => BitVec.ofNat 32 (s.locRead l (4 * k) 4))))

/-- Read the slots of some positions. -/
def State.readSlots (core : Option Nat) (ten ctx : Nat) (seg : Seg) (ccb : Loc) : State → List Nat → State × List (Nat × Except SlotErr (List Word))
  | s, [] => (s, [])
  | s, p :: rest =>
    let r := s.readSlot core ten ctx seg ccb p
    let r' := State.readSlots core ten ctx seg ccb r.1 rest
    (r'.1, (p, r.2) :: r'.2)

/-- The cards of the slots that could be read. -/
def cardsRead (l : List (Nat × Except SlotErr (List Word))) : List (Nat × List Word) :=
  l.filterMap (fun x => match x.2 with
    | .ok w => some (x.1, w)
    | .error _ => none)

/-- The reason why the first slot that cannot be read cannot be. -/
def slotError (l : List (Nat × Except SlotErr (List Word))) : Option SlotErr :=
  l.findSome? (fun x => match x.2 with
    | .ok _ => none
    | .error e => some e)

/-- Step 2's checks of cards, class by class over all of them: the class of the trap and the lowest position that fails (R290). -/
def cardsFault (cls : Nat) (det sysord : Bool) (cards : List (Nat × List Word)) : Option (Nat × Nat) :=
  let bad := fun (p : List Word → Bool) => (cards.find? (fun c => p c.2)).map (·.1)
  match bad (fun w => !cardOk w || cardClass w != some cls) with
  | some p => some (clsIllegal, p)
  | none =>
    match bad (fun w => det && decide (1 < cardScope w)) with
    | some p => some (clsDet, p)
    | none => (bad (fun w => cardScope w == 5 && !sysord)).map (fun p => (clsScope, p))

/-- HV_SCOPE.SYSORD of a tenant (R267). -/
def State.sysord (s : State) (ten : Nat) : Bool := (((s.tenants[ten]?).map (fun (t : Tenant) => t.hvScope)).getD 0).testBit 0

/-- What step 2 of an ETAIL of n cards comes to, m cards of the ring being kept by earlier ones: the first trap in the order of R337, naming
the chain and the position of a check that fails (R290, R292; log 29, DESIGN CHOICE), or the cards. -/
def State.etailRead (s : State) (core : Option Nat) (ten ctx : Nat) (seg : Seg) (ccb : Loc) (chain start m n : Nat) (det : Bool) (site : Trap) :
    State × Except Trap (List (List Word)) :=
  let fault := fun (cls pos : Nat) => { site with cls := cls, words := if cls = clsIllegal then site.words else [], detail := chain, addr := BitVec.ofNat 64 pos }
  if 2 ^ s.ccbLog2 ccb < m + n || (s.chainEngines ccb ten).isEmpty then (s, .error (fault clsIllegal start))
  else
    let r := State.readSlots core ten ctx seg ccb s ((List.range n).map (start + ·))
    match cardsFault (s.ccbClass ccb) det (s.sysord ten) (cardsRead r.2), slotError r.2 with
    | some (cls, p), _ => (r.1, .error (fault cls p))
    | none, some e => (r.1, .error (e.trap site))
    | none, none => (r.1, .ok ((cardsRead r.2).map (·.2)))

end Sys2Proof.Machine
end

