-- ==== Sys2Proof/Machine/EngineOps.lean ====
section
/-!
DEFINITION. The engine and graph instructions of a group (R288-R292, R296, R297, R302, R303).
-/
namespace Sys2Proof.Machine

/-! ### ECARD (R289) -/

/-- Word i of the half: a of the lane at LANEIX i, where it is in EXEC (R289). -/
def Iss.cardHalf (q : Iss) (i : Nat) : Nat := if q.ex.getLsbD i then (q.a i).toNat else 0

/-- The parts of an ECARD's 64 bytes from an address, in 8-byte pieces. -/
def Iss.cardParts (q : Iss) (lid va : Nat) : State → List Nat → State × Except (Nat × XErr) (List Part)
  | s, [] => (s, .ok [])
  | s, j :: rest =>
    match s.place q.t true lid j (va + 8 * j) 8 (q.cardHalf (2 * j) + 2 ^ 32 * q.cardHalf (2 * j + 1)) 0 ⟨.store, true, 8⟩ with
    | (s, .error e) => (s, .error e)
    | (s, .ok p) =>
      match q.cardParts lid va s rest with
      | (s, .ok l) => (s, .ok (p :: l))
      | r => r

/-- A card or graph event of Telltale (R389). -/
def Iss.telCard (q : Iss) (l : List TelLane) : TelEvent := { kind := 2, op := q.fm.major, group := q.c.g, pc := q.c.addr.toNat, lanes := l }

/-- The event of a number and a value: a chain and a count, a graph and its argument, a condition word and its value (R389). -/
def Iss.telPair (q : Iss) (addr data : Nat) : TelLane := { lid := q.f.lowest q.g, mask := 0, addr := addr, data := data }

/-- The words of an ECARD's parts, as Telltale has them (R389). -/
def cardLanes (parts : List Part) : List TelLane := parts.map (fun p => { lid := p.lid, mask := 0xFF, addr := p.va, data := p.data })

/-- An ECARD that has passed its checks is told to Telltale and goes in flight, if its counter has room (R245, R289, R389). -/
def Iss.append (q : Iss) (s : State) (k : BitVec 4) (parts : List Part) : Eff :=
  if q.g.full 4 then .hold .none else .ok (q.enter (s.telNote q.t (q.telCard (cardLanes parts))) 4 .card parts 0 k [] false)

/-- The parts of an ECARD on a trailing core whose leading core read no CCB: they stand at their offset in the slot (R388). -/
def Iss.blindCard (q : Iss) (m slot h : Nat) : List Part :=
  (List.range 8).map (fun j =>
    blindPart (q.lid m) j (128 * slot + 64 * h + 8 * j) 8 (q.cardHalf (2 * j) + 2 ^ 32 * q.cardHalf (2 * j + 1)) 0)

/-- ECARD (R289). -/
def execEcard (l : Option Word) (k : BitVec 4) (h : BitVec 1) (c : BitVec 4) (a b : Code) (s : State) :=
  issue (.ecard l k h c a b) (fun q =>
    match q.lanes.head? with
    | none => .ok (q.enter q.s 4 .card [] 0 k [] true)
    | some m =>
      let slot := (q.uni .b).toNat
      match q.ccb c.toNat with
      | .error (some t) => .trap t
      | .error none => q.append q.s k (q.blindCard m slot h.toNat)
      | .ok (s, ccb) =>
        let off := s.ccbRing ccb + 128 * slot + 64 * h.toNat
        if 2 ^ s.ccbLog2 ccb ≤ slot || segFails (q.segOf 5).limit 64 (Int.ofNat off) then
          .trap (s.tookBy q.c.team { q.trapAt clsSeg m with addr := BitVec.ofNat 64 off })
        else
          let va := (q.segOf 5).base.toNat + off
          match q.cardParts (q.lid m) va s (List.range 8) with
          | (s, .error (v, e)) => .trap (s.tookBy q.c.team (q.xlateTrap m v e .store))
          | (s, .ok parts) =>
            match q.dataTrap false true (q.lanes.map (fun i => (q.lid i, va))) with
            | some t => .trap (s.tookBy q.c.team t)
            | none => q.append s k parts) s

/-! ### ETAIL (R290, R292) -/

/-- Cards the task's earlier deferred ETAILs keep for a chain (R292). -/
def Team.deferredCards (t : Team) (ccb : Loc) : Nat :=
  (t.deferred.map (fun d => match d with
    | .etail _ b cs => if b = ccb then cs.length else 0
    | _ => 0)).sum

/-- ETAIL issues only when counters 2, 3 and 4 of its group are zero (R290). -/
def Group.drained (g : Group) : Bool := g.counter 2 == 0 && g.counter 3 == 0 && g.counter 4 == 0

/-- What step 2 of the ETAIL of n cards comes to. The scheduler's answer to the leading core is the trailing one's too (R290, R388). -/
def Iss.cardsFor (q : Iss) (s : State) (ccb : Loc) (chain start m n : Nat) : State × Except Trap (List (List Word)) :=
  let site := q.trap clsIllegal
  match q.t.lead with
  | some l => (s, match l.fault with
      | some tr => .error (tr.echo site)
      | none => .ok [])
  | none => s.etailRead q.t.core? q.t.tenant q.t.ctx (q.segOf 5) ccb chain start m n (mrDet q.g.mr) site

/-- ETAIL (R290, R292). -/
def execEtail (l : Option Word) (c : BitVec 4) (a : Code) (s : State) :=
  issue (.etail l c a) (fun q =>
    let n := (q.uni .a).toNat
    let told := fun (s : State) => (s.flushGroup q.c.team q.c.g).telNote q.t (q.telCard [q.telPair c.toNat n])
    if !q.g.drained then .hold .none
    else if n = 0 then .ok q.s
    else
      match q.ccb c.toNat with
      | .error (some t) => .trap t
      | .error none => .ok (told q.s)
      | .ok (s, ccb) =>
        let m := if q.t.levelNow = 0 then 0 else q.t.deferredCards ccb
        let start := s.ccbTail ccb + m
        match q.cardsFor s ccb c.toNat start m n with
        | (s, .error t) => .trap (s.tookBy q.c.team t)
        | (s, .ok cards) =>
          let s := told s
          if q.t.levelNow ≠ 0 then
            .ok (s.modTeam q.c.team (fun t => { t with deferred := t.deferred ++ [.etail c.toNat ccb cards] }))
          else
            let p : Publication :=
              { id := s.nextId, owner := .chain c.toNat ccb, tenant := q.t.tenant, part := q.t.part, ctx := q.t.ctx, cards := cards,
                start := start, seg := q.segOf 5, det := mrDet q.g.mr, site := some (q.trap clsIllegal) }
            .ok ({ s with pubs := s.pubs ++ [p], nextId := s.nextId + 1 }.modGroup q.c.team q.c.g (fun g =>
              g.modFrag q.c.f (fun f => { f with wait := .etail p.id q.c.addr })))) s

/-! ### ESEQ and EWAIT (R296, R297) -/

/-- The value ESEQ writes (R296). -/
def State.eseqValue (s : State) (ccb : Loc) (sel : Nat) : DWord :=
  if sel = 0 then BitVec.ofNat 64 (s.ccbSeq ccb)
  else if sel = 1 then BitVec.ofNat 64 (s.ccbTail ccb)
  else BitVec.ofNat 64 (s.ccbErrPos ccb % 2 ^ 32 + 2 ^ 32 * s.ccbErrCode ccb + (if s.ccbErrPos ccb = noFailure then 0 else 2 ^ 63))

/-- ESEQ, ESEQ.tail and ESEQ.st (R296). -/
def execEseq (d : Code) (sel : BitVec 2) (c : BitVec 4) (s : State) :=
  issue (.eseq d sel c) (fun q =>
    match q.ccb c.toNat with
    | .error (some t) => .trap t
    | .error none => .hold .none
    | .ok (s, ccb) => .ok ({ q with s := s }.result64 (fun _ => s.eseqValue ccb sel.toNat))) s

/-- EWAIT (R265, R297). -/
def execEwait (l : Option Word) (a : Code) (c : BitVec 4) (s : State) :=
  issue (.ewait l a c) (fun q =>
    let v := (q.uni .a).toNat
    match q.ccb c.toNat with
    | .error (some t) => .trap t
    | .error none => .hold .none
    | .ok (s, ccb) =>
      let d := (v + 2 ^ 32 - s.ccbTail ccb % 2 ^ 32) % 2 ^ 32
      if q.t.levelNow ≠ 0 && decide (1 ≤ d) && decide (d < 2 ^ 31) then .trap (s.tookBy q.c.team (q.trap clsIllegal))
      else if seqReached (s.ccbSeq ccb) v then
        .ok ((s.renewL1 q.c.team q.c.g).modGroup q.c.team q.c.g (fun g => { g with hang := 0 }))
      else
        .ok (((s.modGroup q.c.team q.c.g (fun g => g.modFrag q.c.f (fun f => { f with wait := .ewait ccb v }))).modGroup q.c.team q.c.g
          Group.fixSlots).stopIdle q.c.team)) s

/-! ### GRAPH and GCOND (R302, R303) -/

/-- The queue of starts has no room (R302). -/
def Partition.startsFull (p : Partition) : Bool := decide (16 ≤ p.starts.length)

/-- A graph is resident: the walker's answer to the leading core is the trailing one's too (R302, R388). -/
def Iss.graphKnown (q : Iss) (p : Partition) (g : Nat) : Bool :=
  match q.t.lead with
  | some l => (l.trapped clsIllegal).isNone
  | none => p.graphs.any (fun r => r.num == g)

/-- GRAPH (R292, R302). -/
def execGraph (l : Option Word) (a b : Code) (s : State) :=
  issue (.graph l a b) (fun q =>
    let g := q.uni .a
    let arg := q.uni .b
    let p := (q.s.parts[q.t.part]?).getD {}
    if !q.graphKnown p g.toNat then .trap (q.trap clsIllegal)
    else if mrDet q.g.mr then .trap (q.trap clsDet)
    else
      let s := (q.s.flushGroup q.c.team q.c.g).telNote q.t (q.telCard [q.telPair g.toNat arg.toNat])
      if q.t.levelNow ≠ 0 then .ok (s.modTeam q.c.team (fun t => { t with deferred := t.deferred ++ [.graph g arg] }))
      else if p.startsFull then .hold .none
      else .ok (s.modPart q.t.part (fun p => { p with starts := p.starts ++ [(g, arg)] }))) s

/-- GCOND (R292, R303). -/
def execGcond (l : Option Word) (a b : Code) (s : State) :=
  issue (.gcond l a b) (fun q =>
    let i := q.uni .a
    let v := q.uni .b
    if 256 ≤ i.toNat then .trap (q.trap clsIllegal)
    else if mrDet q.g.mr then .trap (q.trap clsDet)
    else
      let s := (q.s.flushGroup q.c.team q.c.g).telNote q.t (q.telCard [q.telPair i.toNat v.toNat])
      if q.t.levelNow ≠ 0 then .ok (s.modTeam q.c.team (fun t => { t with deferred := t.deferred ++ [.gcond i v] }))
      else .ok (s.modPart q.t.part (fun p => { p with cond := p.cond.set i.toNat v }))) s

end Sys2Proof.Machine
end

