-- ==== Sys2Proof/Machine/MemoryOps.lean ====
section
/-!
DEFINITION. Loads, stores, LDV and STV, cache control, WAITC, SEGRD, FENCE, the acquire and release forms and the atomics (R247-R253,
R273-R281).
-/
namespace Sys2Proof.Machine

/-! ### Loads and stores (R248) -/

/-- The path of a load through a segment (R244). -/
def loadPath (seg : Nat) : Nat := if seg = 1 then 1 else 0

/-- Registers of an access of some bytes. -/
def regsOf (n : Nat) : Nat := if n ≤ 4 then 1 else n / 4

/-- Whether a load of 1 or 2 bytes extends the sign (R248). -/
def Iss.signed (q : Iss) : Bool := q.etype = 0 || q.etype = 5 || q.etype = 7

/-- The data of a store's t operand in a lane, lowest register first (R248). -/
def Iss.dataOf (q : Iss) (n i : Nat) : Nat :=
  (List.range (regsOf n)).foldl (fun x j => x + (q.rd (q.opD.next j) i).toNat * 2 ^ (32 * j)) 0

/-- The access of a load (R248). -/
def Iss.loadAccess (q : Iss) (seg n : Nat) (disp : Int) (hint : Nat) : Access :=
  { seg := seg, size := n, disp := disp, ld := true, wr := false, path := loadPath seg, kind := .load q.opD (regsOf n) q.signed, hint := hint }

/-- The access of a store (R248). -/
def Iss.storeAccess (q : Iss) (seg n : Nat) (disp : Int) (hint : Nat) (rel : Bool) (sc : Nat) : Access :=
  { seg := seg, size := n, disp := disp, ld := false, wr := true, path := 2, kind := .store rel sc, hint := hint, data := fun i => (q.dataOf n i, 0) }

/-- LD (R248). -/
def Iss.load (q : Iss) (seg n : Nat) (disp : Code) (k : BitVec 4) : Eff :=
  q.access (q.loadAccess seg n (disp.toInt * n) 0) k (q.pendingZeros (regsOf n))

/-- ST (R248). -/
def Iss.store (q : Iss) (seg n : Nat) (disp : Code) (k : BitVec 4) : Eff := q.access (q.storeAccess seg n (disp.toInt * n) 0 false 0) k []

/-- LD.G.b (R248). -/
def execLdGB (p : Option Pfx) (k : BitVec 4) (t a disp : Code) (s : State) := issue (.ldGB p k t a disp) (fun q => q.load 0 1 disp k) s
/-- LD.G.h (R248). -/
def execLdGH (p : Option Pfx) (k : BitVec 4) (t a disp : Code) (s : State) := issue (.ldGH p k t a disp) (fun q => q.load 0 2 disp k) s
/-- LD.G.w (R248). -/
def execLdGW (p : Option Pfx) (k : BitVec 4) (t a disp : Code) (s : State) := issue (.ldGW p k t a disp) (fun q => q.load 0 4 disp k) s
/-- LD.G.d (R248). -/
def execLdGD (p : Option Pfx) (k : BitVec 4) (t a disp : Code) (s : State) := issue (.ldGD p k t a disp) (fun q => q.load 0 8 disp k) s
/-- LD.G.q (R248). -/
def execLdGQ (p : Option Pfx) (k : BitVec 4) (t a disp : Code) (s : State) := issue (.ldGQ p k t a disp) (fun q => q.load 0 16 disp k) s
/-- LD.S.b (R248). -/
def execLdSB (p : Option Pfx) (k : BitVec 4) (t a disp : Code) (s : State) := issue (.ldSB p k t a disp) (fun q => q.load 1 1 disp k) s
/-- LD.S.h (R248). -/
def execLdSH (p : Option Pfx) (k : BitVec 4) (t a disp : Code) (s : State) := issue (.ldSH p k t a disp) (fun q => q.load 1 2 disp k) s
/-- LD.S.w (R248). -/
def execLdSW (p : Option Pfx) (k : BitVec 4) (t a disp : Code) (s : State) := issue (.ldSW p k t a disp) (fun q => q.load 1 4 disp k) s
/-- LD.S.d (R248). -/
def execLdSD (p : Option Pfx) (k : BitVec 4) (t a disp : Code) (s : State) := issue (.ldSD p k t a disp) (fun q => q.load 1 8 disp k) s
/-- LD.S.q (R248). -/
def execLdSQ (p : Option Pfx) (k : BitVec 4) (t a disp : Code) (s : State) := issue (.ldSQ p k t a disp) (fun q => q.load 1 16 disp k) s
/-- LD.C.b (R248). -/
def execLdCB (p : Option Pfx) (k : BitVec 4) (t a disp : Code) (s : State) := issue (.ldCB p k t a disp) (fun q => q.load 2 1 disp k) s
/-- LD.C.h (R248). -/
def execLdCH (p : Option Pfx) (k : BitVec 4) (t a disp : Code) (s : State) := issue (.ldCH p k t a disp) (fun q => q.load 2 2 disp k) s
/-- LD.C.w (R248). -/
def execLdCW (p : Option Pfx) (k : BitVec 4) (t a disp : Code) (s : State) := issue (.ldCW p k t a disp) (fun q => q.load 2 4 disp k) s
/-- LD.C.d (R248). -/
def execLdCD (p : Option Pfx) (k : BitVec 4) (t a disp : Code) (s : State) := issue (.ldCD p k t a disp) (fun q => q.load 2 8 disp k) s
/-- LD.C.q (R248). -/
def execLdCQ (p : Option Pfx) (k : BitVec 4) (t a disp : Code) (s : State) := issue (.ldCQ p k t a disp) (fun q => q.load 2 16 disp k) s
/-- LD.L.b (R248). -/
def execLdLB (p : Option Pfx) (k : BitVec 4) (t a disp : Code) (s : State) := issue (.ldLB p k t a disp) (fun q => q.load 3 1 disp k) s
/-- LD.L.h (R248). -/
def execLdLH (p : Option Pfx) (k : BitVec 4) (t a disp : Code) (s : State) := issue (.ldLH p k t a disp) (fun q => q.load 3 2 disp k) s
/-- LD.L.w (R248). -/
def execLdLW (p : Option Pfx) (k : BitVec 4) (t a disp : Code) (s : State) := issue (.ldLW p k t a disp) (fun q => q.load 3 4 disp k) s
/-- LD.L.d (R248). -/
def execLdLD (p : Option Pfx) (k : BitVec 4) (t a disp : Code) (s : State) := issue (.ldLD p k t a disp) (fun q => q.load 3 8 disp k) s
/-- LD.L.q (R248). -/
def execLdLQ (p : Option Pfx) (k : BitVec 4) (t a disp : Code) (s : State) := issue (.ldLQ p k t a disp) (fun q => q.load 3 16 disp k) s
/-- ST.G.b (R248). -/
def execStGB (p : Option Pfx) (k : BitVec 4) (t a disp : Code) (s : State) := issue (.stGB p k t a disp) (fun q => q.store 0 1 disp k) s
/-- ST.G.h (R248). -/
def execStGH (p : Option Pfx) (k : BitVec 4) (t a disp : Code) (s : State) := issue (.stGH p k t a disp) (fun q => q.store 0 2 disp k) s
/-- ST.G.w (R248). -/
def execStGW (p : Option Pfx) (k : BitVec 4) (t a disp : Code) (s : State) := issue (.stGW p k t a disp) (fun q => q.store 0 4 disp k) s
/-- ST.G.d (R248). -/
def execStGD (p : Option Pfx) (k : BitVec 4) (t a disp : Code) (s : State) := issue (.stGD p k t a disp) (fun q => q.store 0 8 disp k) s
/-- ST.G.q (R248). -/
def execStGQ (p : Option Pfx) (k : BitVec 4) (t a disp : Code) (s : State) := issue (.stGQ p k t a disp) (fun q => q.store 0 16 disp k) s
/-- ST.S.b (R248). -/
def execStSB (p : Option Pfx) (k : BitVec 4) (t a disp : Code) (s : State) := issue (.stSB p k t a disp) (fun q => q.store 1 1 disp k) s
/-- ST.S.h (R248). -/
def execStSH (p : Option Pfx) (k : BitVec 4) (t a disp : Code) (s : State) := issue (.stSH p k t a disp) (fun q => q.store 1 2 disp k) s
/-- ST.S.w (R248). -/
def execStSW (p : Option Pfx) (k : BitVec 4) (t a disp : Code) (s : State) := issue (.stSW p k t a disp) (fun q => q.store 1 4 disp k) s
/-- ST.S.d (R248). -/
def execStSD (p : Option Pfx) (k : BitVec 4) (t a disp : Code) (s : State) := issue (.stSD p k t a disp) (fun q => q.store 1 8 disp k) s
/-- ST.S.q (R248). -/
def execStSQ (p : Option Pfx) (k : BitVec 4) (t a disp : Code) (s : State) := issue (.stSQ p k t a disp) (fun q => q.store 1 16 disp k) s
/-- ST.L.b (R248). -/
def execStLB (p : Option Pfx) (k : BitVec 4) (t a disp : Code) (s : State) := issue (.stLB p k t a disp) (fun q => q.store 3 1 disp k) s
/-- ST.L.h (R248). -/
def execStLH (p : Option Pfx) (k : BitVec 4) (t a disp : Code) (s : State) := issue (.stLH p k t a disp) (fun q => q.store 3 2 disp k) s
/-- ST.L.w (R248). -/
def execStLW (p : Option Pfx) (k : BitVec 4) (t a disp : Code) (s : State) := issue (.stLW p k t a disp) (fun q => q.store 3 4 disp k) s
/-- ST.L.d (R248). -/
def execStLD (p : Option Pfx) (k : BitVec 4) (t a disp : Code) (s : State) := issue (.stLD p k t a disp) (fun q => q.store 3 8 disp k) s
/-- ST.L.q (R248). -/
def execStLQ (p : Option Pfx) (k : BitVec 4) (t a disp : Code) (s : State) := issue (.stLQ p k t a disp) (fun q => q.store 3 16 disp k) s

/-- LDV (R250). -/
def execLdv (p : Option Pfx) (k : BitVec 4) (t a : Code) (g : BitVec 3) (w h : BitVec 2) (s : State) :=
  issue (.ldv p k t a g w h) (fun q =>
    q.access (q.loadAccess g.toNat (vWidthBytes w) 0 h.toNat) k (q.pendingZeros (vWidthRegs w))) s
/-- STV (R250). -/
def execStv (p : Option Pfx) (k : BitVec 4) (t a : Code) (g : BitVec 3) (w h : BitVec 2) (s : State) :=
  issue (.stv p k t a g w h) (fun q => q.access (q.storeAccess g.toNat (vWidthBytes w) 0 h.toNat false 0) k []) s

/-! ### Cache control (R251) -/

/-- The parts of the lanes whose line translates; the others are dropped (R251). No rule says which permission cache control asks for: a
readable page is enough for all three (R347; log 54, DESIGN CHOICE). -/
def Iss.lineParts (q : Iss) (disp : Int) (s : State) : List Nat → State × List Part
  | [] => (s, [])
  | i :: rest =>
    let off := q.offset disp i
    if segFails (q.segOf 0).limit 1 off then q.lineParts disp s rest
    else
      match s.translate q.t.core? q.t.tenant q.t.ctx (q.formed 0 off i) ⟨.load, false, 1⟩ with
      | (s, .error _) => q.lineParts disp s rest
      | (s, .ok (pa, mt)) =>
        let r := q.lineParts disp s rest
        (r.1, if mt = .cached then
            { lid := q.lid i, ix := 0, scratch := false, va := q.formed 0 off i, pa := pa, mt := mt, cut := 1, pa2 := 0, size := 1, data := 0, data2 := 0 } :: r.2
          else r.2)

/-- PRF, CWB and CINV: no lane traps; lanes that are left act when they finish (R251). Being neither loads nor writes, their addresses meet no data
comparator (R361; log 54, DESIGN CHOICE), and a trailing core asks for no line (R388). -/
def Iss.cache (q : Iss) (f path : Nat) (disp : Code) (k : BitVec 4) : Eff :=
  if q.ex ≠ 0 && q.g.full path then .hold .none
  else
    let r := if q.t.lead.isSome then (q.s, []) else q.lineParts (disp.toInt * 256) q.s q.lanes
    .ok (q.enter r.1 path (.cache f) r.2 0 k [] (q.ex == 0))

/-- PRF (R251). -/
def execPrf (k : BitVec 4) (a disp : Code) (s : State) := issue (.prf k a disp) (fun q => q.cache 0 0 disp k) s
/-- CWB (R251). -/
def execCwb (k : BitVec 4) (a disp : Code) (s : State) := issue (.cwb k a disp) (fun q => q.cache 1 2 disp k) s
/-- CINV (R251). -/
def execCinv (k : BitVec 4) (a disp : Code) (s : State) := issue (.cinv k a disp) (fun q => q.cache 2 2 disp k) s

/-! ### WAITC and SEGRD (R252, R253) -/

/-- What the end of a WAITC does: it makes visible the fragment's windows on the path whose younger count reaches the threshold, and
resets the hang count (R202, R246, R252). -/
def Team.waitcDone (t : Team) (gi fi path u : Nat) : Team :=
  (t.deliverWhere gi fi (fun w => w.lk15 && w.path == some path && decide (u ≤ w.younger))).modGroup gi (fun g => { g with hang := 0 })

/-- WAITC (R252). -/
def execWaitc (l : Option Word) (a : Code) (path : BitVec 3) (s : State) :=
  issueOk (.waitc l a path) (fun q =>
    let u := (q.uni .a).toNat
    if q.g.counter path.toNat ≤ u then q.modTeam (fun t => t.waitcDone q.c.g q.c.f path.toNat u)
    else ((q.modFrag (fun f => { f with wait := .waitc path.toNat u })).modGroup q.c.team q.c.g Group.fixSlots).stopIdle q.c.team) s

/-- SEGRD and SEGRD.lim (R239, R253). -/
def execSegrd (d : Code) (lim : BitVec 1) (g : BitVec 3) (s : State) :=
  issueOk (.segrd d lim g) (fun q =>
    let sg := q.segOf g.toNat
    q.result64 (fun _ => if lim = 1 then BitVec.ofNat 64 sg.limit else sg.base)) s

/-! ### FENCE (R275) -/

/-- FENCE (R265, R275; log 4, DEDUCED). -/
def execFence (sc : BitVec 3) (s : State) :=
  issue (.fence sc) (fun q =>
    match q.scopeTrap sc.toNat false with
    | some t => .trap t
    | none =>
      let s := q.s.flushGroup q.c.team q.c.g
      .ok (if 2 ≤ sc.toNat then s.renewL1 q.c.team q.c.g else s)) s

/-! ### Acquire and release (R276) -/

/-- The acquire loads: the value is fixed at issue (R262, R276; log 4, DEDUCED). -/
def Iss.acquire (q : Iss) (seg n : Nat) (sc : BitVec 3) (disp : BitVec 4) (k : BitVec 4) : Eff :=
  match q.scopeTrap sc.toNat false with
  | some t => .trap t
  | none =>
    match q.access (q.loadAccess seg n (disp.toInt * n) 0) k (q.pendingZeros (regsOf n)) with
    | .ok s =>
      if q.ex = 0 then .ok s
      else
        let s := if 2 ≤ sc.toNat then s.renewL1 q.c.team q.c.g else s
        .ok (s.performNow q.c.team q.c.g q.g.nextId)
    | r => r

/-- The release stores (R276). -/
def Iss.releaseSt (q : Iss) (seg n : Nat) (sc : BitVec 3) (disp : BitVec 4) (k : BitVec 4) : Eff :=
  match q.scopeTrap sc.toNat false with
  | some t => .trap t
  | none => q.access (q.storeAccess seg n (disp.toInt * n) 0 true sc.toNat) k []

/-- LD.G.acq.w (R276). -/
def execLdGAcqW (p : Option Pfx) (k : BitVec 4) (t a : Code) (sc : BitVec 3) (disp : BitVec 4) (s : State) :=
  issue (.ldGAcqW p k t a sc disp) (fun q => q.acquire 0 4 sc disp k) s
/-- LD.G.acq.d (R276). -/
def execLdGAcqD (p : Option Pfx) (k : BitVec 4) (t a : Code) (sc : BitVec 3) (disp : BitVec 4) (s : State) :=
  issue (.ldGAcqD p k t a sc disp) (fun q => q.acquire 0 8 sc disp k) s
/-- LD.S.acq.w (R276). -/
def execLdSAcqW (p : Option Pfx) (k : BitVec 4) (t a : Code) (sc : BitVec 3) (disp : BitVec 4) (s : State) :=
  issue (.ldSAcqW p k t a sc disp) (fun q => q.acquire 1 4 sc disp k) s
/-- LD.S.acq.d (R276). -/
def execLdSAcqD (p : Option Pfx) (k : BitVec 4) (t a : Code) (sc : BitVec 3) (disp : BitVec 4) (s : State) :=
  issue (.ldSAcqD p k t a sc disp) (fun q => q.acquire 1 8 sc disp k) s
/-- ST.G.rel.w (R276). -/
def execStGRelW (p : Option Pfx) (k : BitVec 4) (t a : Code) (sc : BitVec 3) (disp : BitVec 4) (s : State) :=
  issue (.stGRelW p k t a sc disp) (fun q => q.releaseSt 0 4 sc disp k) s
/-- ST.G.rel.d (R276). -/
def execStGRelD (p : Option Pfx) (k : BitVec 4) (t a : Code) (sc : BitVec 3) (disp : BitVec 4) (s : State) :=
  issue (.stGRelD p k t a sc disp) (fun q => q.releaseSt 0 8 sc disp k) s
/-- ST.S.rel.w (R276). -/
def execStSRelW (p : Option Pfx) (k : BitVec 4) (t a : Code) (sc : BitVec 3) (disp : BitVec 4) (s : State) :=
  issue (.stSRelW p k t a sc disp) (fun q => q.releaseSt 1 4 sc disp k) s
/-- ST.S.rel.d (R276). -/
def execStSRelD (p : Option Pfx) (k : BitVec 4) (t a : Code) (sc : BitVec 3) (disp : BitVec 4) (s : State) :=
  issue (.stSRelD p k t a sc disp) (fun q => q.releaseSt 1 8 sc disp k) s

/-! ### Atomics (R277-R280) -/

/-- The operand of a lane: v, or the compare and swap values of a CAS (R277). -/
def Iss.atomData (q : Iss) (n : Nat) (op : BitVec 4) (i : Nat) : Nat × Nat :=
  let x := q.dataOf (if op = 7 then 2 * n else n) i
  (x % 2 ^ (8 * n), x / 2 ^ (8 * n))

/-- The access of an atomic (R279). -/
def Iss.atomAccess (q : Iss) (seg n : Nat) (sc : BitVec 3) (op : BitVec 4) (ret : Bool) : Access :=
  { seg := seg, size := n, disp := 0, ld := true, wr := true, path := 3,
    kind := .atomic op.toNat q.etype sc.toNat (if ret then some (q.opD, regsOf n) else none), data := q.atomData n op }

/-- ATOM: performed at issue, after every earlier access of the group (R262, R279; log 4, DEDUCED). -/
def Iss.atom (q : Iss) (seg n : Nat) (sc : BitVec 3) (op : BitVec 4) (k : BitVec 4) : Eff :=
  if !atomicTypeOk op.toNat q.etype then .trap (q.trap clsIllegal)
  else
    match q.scopeTrap sc.toNat true with
    | some t => .trap t
    | none =>
      match q.access (q.atomAccess seg n sc op true) k (q.pendingZeros (regsOf n)) with
      | .ok s =>
        if q.ex = 0 then .ok s
        else
          let s := s.performNow q.c.team q.c.g q.g.nextId
          .ok (if 2 ≤ sc.toNat then s.renewL1 q.c.team q.c.g else s)
      | r => r

/-- REDM (R280). -/
def Iss.redm (q : Iss) (n : Nat) (sc : BitVec 3) (op : BitVec 4) (k : BitVec 4) : Eff :=
  if !atomicTypeOk op.toNat q.etype then .trap (q.trap clsIllegal)
  else
    match q.scopeTrap sc.toNat true with
    | some t => .trap t
    | none => q.access (q.atomAccess 0 n sc op false) k []

/-- ATOM on GLOBAL, .w (R277-R279). -/
def execAtomGW (p : Option Pfx) (k : BitVec 4) (t a : Code) (sc : BitVec 3) (op : BitVec 4) (s : State) :=
  issue (.atomGW p k t a sc op) (fun q => q.atom 0 4 sc op k) s
/-- ATOM on GLOBAL, .d (R277-R279). -/
def execAtomGD (p : Option Pfx) (k : BitVec 4) (t a : Code) (sc : BitVec 3) (op : BitVec 4) (s : State) :=
  issue (.atomGD p k t a sc op) (fun q => q.atom 0 8 sc op k) s
/-- ATOM on SCRATCH, .w (R277-R279). -/
def execAtomSW (p : Option Pfx) (k : BitVec 4) (t a : Code) (sc : BitVec 3) (op : BitVec 4) (s : State) :=
  issue (.atomSW p k t a sc op) (fun q => q.atom 1 4 sc op k) s
/-- ATOM on SCRATCH, .d (R277-R279). -/
def execAtomSD (p : Option Pfx) (k : BitVec 4) (t a : Code) (sc : BitVec 3) (op : BitVec 4) (s : State) :=
  issue (.atomSD p k t a sc op) (fun q => q.atom 1 8 sc op k) s
/-- REDM on GLOBAL, .w (R280). -/
def execRedmGW (p : Option Pfx) (k : BitVec 4) (t a : Code) (sc : BitVec 3) (op : BitVec 4) (s : State) :=
  issue (.redmGW p k t a sc op) (fun q => q.redm 4 sc op k) s
/-- REDM on GLOBAL, .d (R280). -/
def execRedmGD (p : Option Pfx) (k : BitVec 4) (t a : Code) (sc : BitVec 3) (op : BitVec 4) (s : State) :=
  issue (.redmGD p k t a sc op) (fun q => q.redm 8 sc op k) s

end Sys2Proof.Machine
end

