-- ==== Sys2Proof/Machine/Waits.lean ====
section
/-!
DEFINITION. The end of WAITC and EWAIT waits (R252, R297).
-/
namespace Sys2Proof.Machine

/-- End the wait of one fragment, where it is over (R202, R252, R265, R297). -/
def State.endWait (s : State) (tid gi fi : Nat) : State :=
  match (s.group? tid gi).bind (fun g => (g.frags[fi]?).map (fun f => (g, f))) with
  | none => s
  | some (g, f) =>
    let free := fun (s : State) => s.modGroup tid gi (fun g => g.modFrag fi (fun f => { f with wait := .none }))
    match f.wait with
    | .waitc path u => if g.counter path ≤ u then (free s).modTeam tid (fun t => t.waitcDone gi fi path u) else s
    | .ewait ccb v =>
      if seqReached (s.ccbSeq ccb) v then ((free s).renewL1 tid gi).modGroup tid gi (fun g => { g with hang := 0 }) else s
    | _ => s

/-- End the waits of a group's fragments that are over, and refill its slots (R200). -/
def State.endWaits (s : State) (tid gi : Nat) : State :=
  match s.group? tid gi with
  | none => s
  | some g => ((List.range g.frags.length).foldl (fun s fi => s.endWait tid gi fi) s).modGroup tid gi Group.fixSlots

/-- End every wait on the device's cores that is over; the waits of a saved team end at its resume (R380). -/
def State.endAllWaits (s : State) : State :=
  (s.teams.filter (fun t => t.core?.isSome)).foldl (fun s t => (List.range t.body.groups.length).foldl (fun s gi => s.endWaits t.id gi) s) s

end Sys2Proof.Machine
end

