-- ==== Sys2Proof/Machine/System.lean ====
section
/-!
DEFINITION. The system instructions: traps to the debugger, the jury-rig handler's own words, the CSRs, SEGLD and TLBINV (R351-R367).
-/
namespace Sys2Proof.Machine

/-! ### DEBUG (R363) -/

/-- A DEBUG trap with its SUB and detail (R363). -/
def Iss.debug (q : Iss) (sub detail : Nat) : Eff := .trap { q.trap clsDebug with sub := sub, detail := detail }

/-- TRAP (R363). -/
def execTrap (n : Code) (s : State) := issue (.trap n) (fun q => q.debug 3 n.toNat) s

/-- Whether a debugger has attached to a context (R363). -/
def State.debuggerOn (s : State) (ctx : Nat) : Bool := s.ctxs.any (fun c => c.num == ctx && c.debugger)

/-- DBGBRK (R363). -/
def execDbgbrk (n : Code) (s : State) :=
  issue (.dbgbrk n) (fun q => if q.s.debuggerOn q.t.ctx then q.debug 1 n.toNat else .ok q.s) s

/-- HALT (R363). -/
def execHalt (s : State) := issue .halt (fun q => q.debug 2 0) s

/-! ### Leaving the handler (R355) -/

/-- Leave the handler, then refill the slots: a suspended wait may be restored, and may be over (R200, R355, R357). -/
def Iss.leave (q : Iss) (em lst : Bool) : State :=
  (((q.modTeam (fun t => t.leaveHandler q.c.g q.c.f em lst)).endWaits q.c.team q.c.g).modGroup q.c.team q.c.g Group.fixSlots).stopIdle q.c.team

/-- ERET (R355). -/
def execEret (s : State) :=
  issue .eret (fun q => if q.f.jr.length = 0 then .trap (q.trap clsIllegal) else .ok (q.leave false false)) s

/-- The lowest lane of X whose register that EMRET.l reads holds an uncorrectable error after step 1 (R236, R355). -/
def Iss.emretBad (q : Iss) : Option Nat :=
  match q.f.jr with
  | [] => none
  | lv :: rest =>
    if lv.stream then none
    else match emretReg (bitsOf (lv.w.getD 4 0) 15 0) with
      | none => none
      | some r => (maskList q.f.mask).find? (fun i =>
          let ln := q.t.lane (q.lid i)
          (if rest.length = 0 then ln.x1 else ln.x2) && (ln.unbank (q.t.hdr.budget q.g.role) (rest.length + 1)).ue.contains r)

/-- EMRET and EMRET.l, which reads slot 0's register (R236, R355). -/
def execEmret (lst : BitVec 1) (s : State) :=
  issue (.emret lst) (fun q =>
    if q.f.jr.length = 0 then .trap (q.trap clsIllegal)
    else match (if lst = 1 then q.emretBad else none) with
      | some i => .trap (q.trapAt clsMemUe i)
      | none => .ok (q.leave true (lst == 1))) s

/-! ### The operand window (R353, R354) -/

/-- What a slot of the operand window names. -/
inductive SlotReg where
  | v (n : Nat)
  | q (n : Nat)
  | l (n : Nat)
  | zero
  | laneix
  | imm
  | s (n : Nat)
  | bad
  deriving DecidableEq, Repr

/-- The register of a slot id at an offset, under a budget: an offset is legal only on a V id (R354). -/
def slotReg (id off budget : Nat) : SlotReg :=
  if id < 0x100 then (if id + off < budget then .v (id + off) else .bad)
  else if off ≠ 0 then .bad
  else if id < 0x110 then .q (id - 0x100)
  else if id < 0x114 then .l (id - 0x110)
  else if id = 0x114 then .zero
  else if id = 0x115 then .laneix
  else if id = 0x116 then .imm
  else if 0x140 ≤ id && id < 0x148 then .s (id - 0x140)
  else .bad

/-- The id of slot k in W4 and W5 (R353). -/
def slotId (w : List Word) (k : Nat) : Nat :=
  bitsOf (w.getD (4 + k / 2) 0) (16 * (k % 2) + 15) (16 * (k % 2))

/-- The bank frame of a depth. -/
def Lane.frame (ln : Lane) (depth : Nat) : Frame := if depth = 1 then ln.frame1 else ln.frame2

/-- Change the bank frame of a depth. -/
def Lane.modFrame (ln : Lane) (depth : Nat) (f : Frame → Frame) : Lane :=
  if depth = 1 then { ln with frame1 := f ln.frame1 } else { ln with frame2 := f ln.frame2 }

/-- X of a depth. -/
def Lane.x (ln : Lane) (depth : Nat) : Bool := if depth = 1 then ln.x1 else ln.x2

/-- The issuing handler's level and the register of a slot. -/
def Iss.slot (q : Iss) (j k : Nat) : Option (JrLevel × SlotReg) :=
  match q.f.jr with
  | [] => none
  | lv :: _ => some (lv, slotReg (slotId lv.w k) j (q.t.hdr.budget q.g.role))

/-- A V register as the program sees it: in the frame, for a reserve register (R354). -/
def Lane.progV (ln : Lane) (budget depth n : Nat) : Word :=
  if budget - 16 ≤ n then (ln.frame depth).v.get n else ln.v.get n

/-- MEM_UE of the lowest lane whose register, as the program sees it, holds an uncorrectable error, or of an S register (R236, R354). -/
def Iss.slotError (q : Iss) (r : SlotReg) : Option Trap :=
  let depth := q.f.jr.length
  let lane := fun i => q.t.lane (q.lid i)
  let at_ := fun (p : Nat → Bool) => (q.lanes.find? p).map (fun i => q.trapAt clsMemUe i)
  match r with
  | .v n =>
    if q.t.hdr.budget q.g.role - 16 ≤ n then at_ (fun i => ((lane i).frame depth).ue.contains (.v n)) else at_ (fun i => (lane i).ue.contains (.v n))
  | .q n => at_ (fun i => ((lane i).frame depth).ue.contains (.q n))
  | .l n => at_ (fun i => ((lane i).frame depth).ue.contains (.l n))
  | .s n => if q.g.ue.contains n then some (q.trap clsMemUe) else none
  | _ => none

/-- WRD (R354). -/
def execWrd (d : Code) (j slot : BitVec 2) (s : State) :=
  issue (.wrd d j slot) (fun q =>
    match q.slot j.toNat slot.toNat with
    | none => .trap (q.trap clsIllegal)
    | some (lv, r) =>
      let depth := q.f.jr.length
      let lane := fun i => q.t.lane (q.lid i)
      match q.slotError r with
      | some t => .trap t
      | none =>
      match r with
      | .v n => .ok (q.result (fun i => (lane i).progV (q.t.hdr.budget q.g.role) depth n))
      | .q n => .ok (q.result (fun i => ((lane i).frame depth).q.get n))
      | .l n => .ok (q.result (fun i => ((lane i).frame depth).l.get n))
      | .s n => .ok (q.result (fun _ => q.g.s.get n))
      | .zero => .ok (q.result (fun _ => 0))
      | .laneix => .ok (q.result (fun i => BitVec.ofNat 32 i))
      | .imm => .ok (q.result (fun _ => lv.w.getD 2 0))
      | .bad => .trap (q.trap clsIllegal)) s

/-- Write a register as the program sees it (R354). -/
def Lane.setProg (ln : Lane) (budget depth : Nat) (r : SlotReg) (x : Word) : Lane :=
  match r with
  | .v n =>
    if budget - 16 ≤ n then ln.modFrame depth (fun f => { f with v := f.v.set n x, ue := f.ue.filter (· != .v n) }) else ln.setReg (.v n) x
  | .q n => ln.modFrame depth (fun f => { f with q := f.q.set n x, ue := f.ue.filter (· != .q n) })
  | .l n => ln.modFrame depth (fun f => { f with l := f.l.set n x, ue := f.ue.filter (· != .l n) })
  | _ => ln

/-- Keep a value in the result hold of a depth (R354). -/
def Lane.setHold (ln : Lane) (depth : Nat) (x : Word) : Lane := if depth = 1 then { ln with hold1 := x } else { ln with hold2 := x }

/-- The program's register that a slot names, as R52 compares it. -/
def SlotReg.target : SlotReg → List Target
  | .v n => [.v n 1]
  | .q n => [.q n]
  | .s n => [.s n 1]
  | _ => []

/-- A WWR meets a banked open window of its fragment (R354). -/
def Iss.bankedHit (q : Iss) (r : SlotReg) : Bool := q.f.banked.any (fun w => w.dst.any (fun d => r.target.any d.meets))

/-- WWR's effect on a register: every lane of EXEC, and zeros outside X under MZ through slot 0 (R354). -/
def Iss.wwrLanes (q : Iss) (lv : JrLevel) (k : Nat) (r : SlotReg) : State :=
  let depth := q.f.jr.length
  let budget := q.t.hdr.budget q.g.role
  q.modTeam (fun t =>
    let t := q.lanes.foldl (fun t i => t.modLane (q.lid i) (fun ln => ln.setProg budget depth r (q.a i))) t
    if (lv.w.getD 7 0).getLsbD 14 && k == 0 then
      (maskList q.f.mask).foldl (fun t i => t.modLane (q.lid i) (fun ln => if ln.x depth then ln else ln.setProg budget depth r 0)) t
    else t)

/-- WWR (R354). -/
def execWwr (l : Option Word) (a : Code) (j slot : BitVec 2) (s : State) :=
  issueWith (.wwr l a j slot)
    (fun q => match q.slot j.toNat slot.toNat with
      | some (_, .v n) => if q.t.hdr.budget q.g.role - 16 ≤ n then [] else [.v n 1]
      | some (_, .s n) => [.s n 1]
      | _ => [])
    Iss.account
    (fun q =>
      let hold := fun (_ : Unit) => q.modTeam (fun t => q.lanes.foldl (fun t i => t.modLane (q.lid i) (fun ln => ln.setHold q.f.jr.length (q.a i))) t)
      match q.slot j.toNat slot.toNat with
      | none => .trap (q.trap clsIllegal)
      | some (lv, r) =>
        if q.bankedHit r then .trap (q.trap clsLkhd)
        else
          match r with
          | .v _ | .q _ => .ok (q.wwrLanes lv slot.toNat r)
          | .l n => if n = 0 && slot = 0 then .ok (hold ()) else .ok (q.wwrLanes lv slot.toNat r)
          | .zero => if slot = 0 then .ok (hold ()) else .ok q.s
          | .s n => (match q.lanes.head? with
            | some m => .ok (q.modGroup (fun g => g.setS n (q.a m)))
            | none => .ok q.s)
          | .laneix | .imm | .bad => .trap (q.trap clsIllegal)) s

/-- WINFO (R353, R362). -/
def execWinfo (d : Code) (ix : BitVec 3) (s : State) :=
  issue (.winfo d ix) (fun q =>
    match q.f.jr with
    | [] => .trap (q.trap clsIllegal)
    | lv :: _ => .ok (q.result (fun _ => lv.w.getD ix.toNat 0))) s

/-! ### CSRs (R26, R234, R365) -/

/-- ID_PART (R26). -/
def State.idPart (s : State) : Word := if s.fuses.partX then 0x01020302 else 0x01010302

/-- PBND0 and PBND1 of a core (R234). -/
def Core.pbnd0 (c : Core) : Word := BitVec.ofNat 32 (c.pb1 + 2 ^ 16 * c.pb2)
def Core.pbnd1 (c : Core) : Word := BitVec.ofNat 32 c.pb3

/-- The value of a CSR (R365). -/
def Iss.csr (q : Iss) (n : Nat) : Word :=
  let core := (q.t.core?.bind (fun c => q.s.cores[c]?)).getD {}
  let lv := q.f.jr.head?
  if n = 0 then core.pbnd0
  else if n = 1 then core.pbnd1
  else if n = 2 then BitVec.ofNat 32 (q.t.ctx % 2 ^ 16 + 2 ^ 16 * (q.t.tenant % 2 ^ 8))
  else if n = 3 then q.s.idPart
  else if n = 8 then (lv.map (fun l => lo32 l.jrpc)).getD 0
  else if n = 9 then (lv.map (fun l => hi32 l.jrpc)).getD 0
  else if n = 10 then (lv.map (fun l => lo32 l.jrnext)).getD 0
  else (lv.map (fun l => hi32 l.jrnext)).getD 0

/-- CSRR (R365). -/
def execCsrr (d n : Code) (s : State) := issueOk (.csrr d n) (fun q => q.result (fun _ => q.csr n.toNat)) s

/-- Change the current handler level. -/
def Iss.modLevel (q : Iss) (f : JrLevel → JrLevel) : State := q.modFrag (fun r => { r with jr := listModify r.jr 0 f })

/-- CSRW: legal in the handler only; a write of a read-only CSR is ignored (R5, R364, R365). -/
def execCsrw (l : Option Word) (a n : Code) (s : State) :=
  issue (.csrw l a n) (fun q =>
    let x := q.uni .a
    if q.f.jr.length = 0 then .trap (q.trap clsIllegal)
    else if n.toNat = 10 then
      (if bitsOf x 1 0 ≠ 0 then .trap (q.trap clsIllegal) else .ok (q.modLevel (fun lv => { lv with jrnext := cat64 (hi32 lv.jrnext) x })))
    else if n.toNat = 11 then
      (if bitsOf x 31 20 ≠ 0 then .trap (q.trap clsIllegal) else .ok (q.modLevel (fun lv => { lv with jrnext := cat64 x (lo32 lv.jrnext) })))
    else .ok q.s) s

/-- SEGLD and TLBINV are legal in the handler and in a system launch (R364). -/
def Iss.privileged (q : Iss) : Bool :=
  q.f.jr.length ≠ 0 || q.s.grids.any (fun g => g.id == q.t.grid && g.sys)

/-- SEGLD (R366). -/
def execSegld (a : Code) (g : BitVec 3) (s : State) :=
  issue (.segld a g) (fun q =>
    let k := g.toNat
    if !q.privileged || k = 1 || k = 4 || k = 5 then .trap (q.trap clsIllegal)
    else
      match q.lanes.head? with
      | none => .ok q.s
      | some i =>
        let w := fun n => q.rd (q.opA.next n) i
        let limit := (cat64 (w 3) (w 2)).toNat % 2 ^ 53
        if bitsOf (w 3) 31 21 ≠ 0 || (k = 3 && limit % 16 ≠ 0) then .trap (q.trapAt clsIllegal i)
        else .ok (q.modGroup (fun gr => { gr with seg := listModify gr.seg k (fun _ => { base := cat64 (w 1) (w 0), limit := limit }) }))) s

/-- Remove TLB entries from every core and cluster of a partition (R367). -/
def State.tlbDrop (s : State) (part : Nat) (p : TlbEntry → Bool) : State :=
  match s.parts[part]? with
  | none => s
  | some pt =>
    { s with cores := s.cores.zipIdx.map (fun c =>
               if pt.hasCluster (c.2 / 2) then { c.1 with tlb := c.1.tlb.filter (fun e => !p e) } else c.1),
             clusters := s.clusters.zipIdx.map (fun c =>
               if pt.hasCluster c.2 then { c.1 with tlb := c.1.tlb.filter (fun e => !p e) } else c.1) }

/-- TLBINV (R367). -/
def execTlbinv (s : State) :=
  issue .tlbinv (fun q =>
    if !q.privileged then .trap (q.trap clsIllegal)
    else .ok ((q.s.flushGroup q.c.team q.c.g).tlbDrop (q.s.partOf q.t) (fun e => e.ctx == q.t.ctx))) s

/-- TLBINV.va (R362, R367). -/
def execTlbinvVa (a : Code) (s : State) :=
  issue (.tlbinvVa a) (fun q =>
    if !q.privileged then .trap (q.trap clsIllegal)
    else
      match q.lanes.head? with
      | none => .ok q.s
      | some i => .ok ((q.s.flushGroup q.c.team q.c.g).tlbDrop (q.s.partOf q.t) (fun e => e.maps q.t.ctx (q.a64 i).toNat))) s

end Sys2Proof.Machine
end

