-- ==== Sys2Proof/Machine/TeamOps.lean ====
section
/-!
DEFINITION. The mode instruction (R47, R48, R219) and the team instructions: mode and identity reads, barriers, tasks, the clock and
safe points (R217-R232).
-/
namespace Sys2Proof.Machine

/-- The image a SETMODE names (R47). -/
def Iss.modeImage (q : Iss) (a : Code) (imm : BitVec 11) : Nat :=
  if a.toNat = 0x74 then imm.toNat else (q.rd (opndOf a) 0).toNat

/-- SETMODE (R47, R48, R219). -/
def execSetmode (l : Option Word) (m a : Code) (imm : BitVec 11) (s : State) :=
  issue (.setmode l m a imm) (fun q =>
    let img := q.modeImage a imm
    if !setmodeImageOk m img then .trap (q.trap clsIllegal)
    else
      let sel := BitVec.ofNat 32 (setmodeSel m)
      .ok (q.modGroup (fun g => { g with mr := (g.mr &&& ~~~sel) ||| (BitVec.ofNat 32 img &&& sel) }))) s

/-- GETMODE (R220). -/
def execGetmode (d : Code) (s : State) := issueOk (.getmode d) (fun q => q.result (fun _ => q.g.mr)) s

/-! ### Barriers -/

/-- The lids of the issuing fragment, rising. -/
def Iss.fragLids (q : Iss) : List Nat := q.g.lids q.f.mask

/-- Arrivals joined, rising (R224). -/
def joinLids (a b : List Nat) : List Nat := sortBy (fun x => x) (a ++ b)

/-- Arrive at barrier n with the whole fragment: ILLEGAL outside P_n, a stall at a second arrival, else the arrival, `keep` of the issuer
and the arrival phase, and the test of the barrier (R224, R225, R229). -/
def Iss.arrive (q : Iss) (n : Nat) (task : Bool) (keep : Nat → State) : Eff :=
  match q.t.body.barriers[n]? with
  | none => .trap (q.trap clsIllegal)
  | some b =>
    if !b.roles.testBit q.g.role || (task && b.roles &&& q.t.hdr.allRoles != q.t.hdr.allRoles) then .trap (q.trap clsIllegal)
    else if q.fragLids.any b.arr.contains then .hold (.stall n b.c)
    else
      let s := (keep b.c).modTeam q.c.team (fun t => t.modBody (fun bd =>
        { bd with barriers := listModify bd.barriers n (fun b => { b with arr := joinLids b.arr q.fragLids, task := b.task || task }) }))
      .ok (((s.testBarrier q.c.team n).modGroup q.c.team q.c.g Group.fixSlots).stopIdle q.c.team)

/-- BAR (R224, R226). -/
def execBar (n : BitVec 4) (s : State) :=
  issue (.bar n) (fun q => q.arrive n.toNat false (fun p => q.modFrag (fun f => { f with wait := .barrier n.toNat p }))) s

/-- BAR.task (R224, R226, R229). -/
def execBarTask (n : BitVec 4) (s : State) :=
  issue (.barTask n) (fun q => q.arrive n.toNat true (fun p => q.modFrag (fun f => { f with wait := .barrier n.toNat p }))) s

/-- BARA (R224). -/
def execBara (d : Code) (n : BitVec 4) (s : State) :=
  issue (.bara d n) (fun q => q.arrive n.toNat false (fun p => q.result (fun _ => BitVec.ofNat 32 p))) s

/-- The issuing fragment begins a wait (R200, R371). -/
def Iss.waitOn (q : Iss) (w : Wait) : State :=
  ((q.modFrag (fun f => { f with wait := w })).modGroup q.c.team q.c.g Group.fixSlots).stopIdle q.c.team

/-- BARW (R226). -/
def execBarw (l : Option Word) (a : Code) (n : BitVec 4) (s : State) :=
  issueOk (.barw l a n) (fun q =>
    let p := (q.uni .a).toNat % 2 ^ 16
    match q.t.body.barriers[n.toNat]? with
    | some b => if phasePassed b.c p then q.s else q.waitOn (.barrier n.toNat p)
    | none => q.s) s

/-- A configuration BARC accepts (R223). -/
def barcOk (t : Team) (b : Barrier) (cfg : Word) : Bool :=
  cfg &&& 0x1F != 0 && bitsOf cfg 31 5 == 0 && decide (bitsOf cfg 3 0 < 2 ^ t.hdr.roles.length)
  && (!cfg.getLsbD 4 || t.hdr.mstream != 0) && b.arr.isEmpty && !b.streamArr

/-- BARC (R223). -/
def execBarc (l : Option Word) (a : Code) (n : BitVec 4) (s : State) :=
  issue (.barc l a n) (fun q =>
    let cfg := q.uni .a
    match q.t.body.barriers[n.toNat]? with
    | none => .trap (q.trap clsIllegal)
    | some b =>
      if !barcOk q.t b cfg then .trap (q.trap clsIllegal)
      else .ok (q.modTeam (fun t => t.modBody (fun bd =>
        { bd with barriers := listModify bd.barriers n.toNat (fun b => { b with roles := bitsOf cfg 3 0, stream := cfg.getLsbD 4 }) })))) s

/-! ### Identity -/

/-- The grid of a team. -/
def State.grid? (s : State) (id : Nat) : Option Grid := s.grids.find? (fun g => g.id == id)

/-- ROLE (R221). -/
def execRole (d : Code) (s : State) := issueOk (.role d) (fun q => q.result (fun i => BitVec.ofNat 32 (q.t.lane (q.lid i)).role)) s
/-- TEAMID (R221). -/
def execTeamid (d : Code) (s : State) := issueOk (.teamid d) (fun q => q.result (fun _ => BitVec.ofNat 32 q.t.index)) s
/-- NTEAM (R221). -/
def execNteam (d : Code) (s : State) :=
  issueOk (.nteam d) (fun q => q.result (fun _ => BitVec.ofNat 32 (((q.s.grid? q.t.grid).map (·.teams)).getD 0))) s
/-- GRIDID (R221, R414). -/
def execGridid (d : Code) (s : State) :=
  issueOk (.gridid d) (fun q => q.result (fun _ => ((q.s.grid? q.t.grid).map (·.serial)).getD 0)) s

/-- LCLK: the clock without this instruction (R230). -/
def execLclk (d : Code) (h : BitVec 1) (s : State) :=
  issueOk (.lclk d h) (fun q =>
    let c := if q.f.jr.length = 0 then q.g.clock - 1 else q.g.clock
    q.result (fun _ => if h = 1 then hi32 c else lo32 c)) s

/-! ### Tasks and safe points -/

/-- TASKEND: arrive at the task barrier (R229). -/
def execTaskend (s : State) :=
  issue .taskend (fun q =>
    if q.fragLids.any q.t.body.taskArr.contains then .hold (.taskStall q.t.body.task)
    else
      let s := (q.modFrag (fun f => { f with wait := .task })).modTeam q.c.team (fun t =>
        t.modBody (fun b => { b with taskArr := joinLids b.taskArr q.fragLids }))
      .ok (((s.testTaskBarrier q.c.team).modGroup q.c.team q.c.g Group.fixSlots).stopIdle q.c.team)) s

/-- SAFEPT: the group of a victim team stops here (R232, R371). -/
def execSafept (s : State) :=
  issueOk .safept (fun q => q.modGroup (fun g => { g with stopped := g.stopped || g.grace.isSome })) s

end Sys2Proof.Machine
end

