-- ==== Sys2Proof/Machine/TrapLog.lean ====
section
/-!
DEFINITION. The trap log of the Harbourmaster: CRC-32C, records, and the commit of a record with its head slot (R394-R400).
-/
namespace Sys2Proof.Machine

/-! ### CRC-32C (R398) -/

/-- One bit of the reflected CRC. -/
def crcBit (c : Nat) : Nat := if c % 2 = 1 then (c / 2) ^^^ 0x82F63B78 else c / 2

/-- One byte of the CRC. -/
def crcByte (c : Nat) (b : Byte) : Nat := (List.range 8).foldl (fun c _ => crcBit c) (c ^^^ b.toNat)

/-- CRC-32C of bytes (R398). -/
def crc32c (l : List Byte) : Nat := l.foldl crcByte 0xFFFFFFFF ^^^ 0xFFFFFFFF

/-! ### Records (R395, R396) -/

/-- The fields of a record that its event fixes (R395). -/
structure LogRec where
  cls : Nat
  outcome : Nat
  tenant : Nat := 0
  part : Nat := 0
  ilevel : Nat := 0
  pair : Nat := 0xFF
  ctx : Nat := 0
  core : Nat := 0
  group : Nat := 0
  grid : Nat := 0
  team : Nat := 0
  task : Nat := 0
  lid : Nat := 0
  elem : Nat := 0
  mcount : Nat := 0
  pc : Nat := 0
  /-- DETAIL: up to 64 bytes -/
  detail : List Byte := []

/-- Bytes padded with zeros to a length. -/
def padTo (n : Nat) (l : List Byte) : List Byte := (l ++ List.replicate (n - l.length) 0).take n

/-- The 256 bytes of a record (R395, R398). -/
def LogRec.bytes (r : LogRec) (seq : Nat) (wall cycle : DWord) : List Byte :=
  let b := bytesOfNat
  let body := padTo 252 (b 4 0x4B4C4F47 ++ b 2 1 ++ b 1 r.cls ++ b 1 r.outcome ++ b 8 seq ++ b 1 r.tenant ++ b 1 r.part ++ b 1 r.ilevel
    ++ b 1 r.pair ++ b 2 r.ctx ++ b 1 r.core ++ b 1 r.group ++ b 4 r.grid ++ b 4 r.team ++ b 4 r.task ++ b 2 r.lid ++ b 1 r.elem ++ b 1 r.mcount
    ++ b 8 r.pc ++ b 8 wall.toNat ++ b 8 cycle.toNat ++ padTo 64 r.detail)
  body ++ bytesOfNat 4 (crc32c body)

/-- The ring slot of a SEQ (R394). -/
def logSlot (seq : Nat) : Nat := 2 + seq % 32766

/-- The second write of a commit: the head, into slot SEQ mod 2 (R398). -/
def State.writeHead (s : State) : State :=
  if !s.hm.headDue then s
  else
    let seq := s.hm.seq - 1
    let cyc := Config.hmCycle (2 * seq + 1)
    { s with hm := { s.hm with
        headDue := false, cycle := cyc,
        heads := listModify s.hm.heads (seq % 2) (fun _ => ({ cls := 0, outcome := 0 } : LogRec).bytes seq s.hm.wall cyc) } }

/-- Commit a record: the one before it is finished, and the record goes into its slot; its head follows (R394, R398). After the brownout
record nothing is logged (R400). -/
def State.commitRecord (s : State) (r : LogRec) : State :=
  if s.hm.brownout then s
  else
    let s := s.writeHead
    let seq := s.hm.seq
    let cyc := Config.hmCycle (2 * seq)
    let slot := logSlot seq
    { s with hm := { s.hm with
        seq := seq + 1, cycle := cyc, headDue := true,
        log := insertBy (fun p => p.1) (slot, r.bytes seq s.hm.wall cyc) (s.hm.log.filter (fun p => p.1 != slot)) } }

/-- The SEQ that a head slot names, where its CRC is right (R398). -/
def headSeq (l : List Byte) : Option Nat :=
  if l.length = 256 && natOfBytes (l.drop 252) == crc32c (l.take 252) then some (natOfBytes ((l.drop 8).take 8)) else none

/-- The newest record after a power-up: the one that the valid head with the larger SEQ names, or none (R398). -/
def Harbour.newest (h : Harbour) : Nat := (h.heads.filterMap headSeq).foldl max 0

/-- The pair slot of a team, or 0xFF (R395). -/
def Team.pairByte (t : Team) : Nat := t.pairSlot.getD 0xFF

/-- The serial of a team's grid. -/
def State.serialOf (s : State) (t : Team) : Nat := (((s.grid? t.grid).map (fun (g : Grid) => g.serial)).getD 0).toNat

/-- A record about a team (R395). -/
def State.teamRecord (s : State) (t : Team) (cls outcome g lid elem pc : Nat) (detail : List Byte) : LogRec :=
  { cls := cls, outcome := outcome, tenant := t.tenant, part := t.part, ilevel := t.hdr.level, pair := t.pairByte, ctx := t.ctx,
    core := t.core?.getD 0, group := g, grid := s.serialOf t, team := t.index, task := t.body.task, lid := lid, elem := elem,
    mcount := t.mcount, pc := pc, detail := detail }

end Sys2Proof.Machine
end

