-- ==== Sys2Proof/Machine/Grids.lean ====
section
/-!
DEFINITION. The end of teams and grids: what a team frees (R209, R387), the completion of a grid's command or graph node (R300, R412), and
KILL (R341, R393).
-/
namespace Sys2Proof.Machine

/-! ### Commands -/

/-- Change a command. -/
def State.modCmd (s : State) (c : Nat) (f : Command → Command) : State :=
  { s with cmds := s.cmds.map (fun x => if x.id == c then f x else x) }

/-- A command is done with a code and its DATA (R412). -/
def State.finishCmd (s : State) (c code data : Nat) : State :=
  s.modCmd c (fun x => { x with code := some code, result := [BitVec.ofNat 32 data] })

/-! ### Graph nodes (R299, R300) -/

/-- Word k of a node record. -/
def nodeWord (w : List Word) (k : Nat) : Nat := (w.getD k 0).toNat

/-- The fields of a node record (R299). -/
def nodeKind (w : List Word) : Nat := natBits (nodeWord w 0) 3 0
def nodeNpred (w : List Word) : Nat := natBits (nodeWord w 0) 15 8
def nodeSucc0 (w : List Word) : Nat := natBits (nodeWord w 0) 31 16
def nodeSucc1 (w : List Word) : Nat := natBits (nodeWord w 1) 15 0
def nodeCond (w : List Word) : Nat := natBits (nodeWord w 1) 23 16
def nodeArg (w : List Word) : Nat := nodeWord w 2 + 2 ^ 32 * nodeWord w 3

/-- The record of a node of a graph of the partition. -/
def Partition.nodeOf (p : Partition) (graph n : Nat) : List Word := ((p.graphs.find? (fun g => g.num == graph)).bind (fun g => g.nodes[n]?)).getD []

/-- Successors, each where it is not 0xFFFF (R300). -/
def succsOf (l : List Nat) : List Nat := l.filter (· != 0xFFFF)

/-- The running instance of a graph (R302). -/
def Partition.runOf (p : Partition) (graph : Nat) : Option GraphRun := p.runs.find? (fun r => r.graph == graph)

/-- The instances with no node ready or running have ended (R300). -/
def Partition.endRuns (p : Partition) : Partition :=
  { p with runs := p.runs.filter (fun r => !r.running.isEmpty || p.ready.any (fun n => n.1 == r.graph)) }

/-- Change a graph's running instance; it ends when nothing of it is ready or running. -/
def Partition.modRun (p : Partition) (graph : Nat) (f : GraphRun → GraphRun) : Partition :=
  ({ p with runs := p.runs.map (fun r => if r.graph == graph then f r else r) } : Partition).endRuns

/-- Nodes of a graph become ready, at the end of the walker's order (R300). -/
def Partition.addReady (p : Partition) (graph : Nat) (l : List Nat) : Partition := { p with ready := p.ready ++ (succsOf l).map (fun n => (graph, n)) }

/-- A launch or card node has completed: its successors become ready, or, after an error, nothing of its instance starts any more (R300). -/
def Partition.nodeDone (p : Partition) (graph n : Nat) (ok : Bool) : Partition :=
  let w := p.nodeOf graph n
  let err := ((p.runOf graph).map (·.error)).getD false || !ok
  let p := if err then { p with ready := p.ready.filter (fun x => x.1 != graph) } else p.addReady graph [nodeSucc0 w, nodeSucc1 w]
  p.modRun graph (fun r => { r with running := r.running.erase n, error := err })

/-! ### Teams -/

/-- Pair slots whose last level-2 team is gone are unpaired; an injection armed on one is disarmed (R387, R445). -/
def State.unpairIdle (s : State) : State :=
  let live := fun (p : Nat × Nat) => s.teams.any (fun t => t.pairSlot == some p.1 && t.core?.isSome)
  let gone := s.hm.pairs.filter (fun p => !live p)
  let ctl := if gone.any (fun p => p.1 == bitsOf s.hm.injCtl 14 8 / 4) then s.hm.injCtl &&& ~~~1 else s.hm.injCtl
  { s with hm := { s.hm with pairs := s.hm.pairs.filter live, injCtl := ctl } }

/-- A team leaves its core's age list. -/
def State.leaveCore (s : State) (tid : Nat) : State :=
  { s with cores := s.cores.map (fun (c : Core) =>
      { c with age := c.age.filter (fun a => a.1 != tid), passed := c.passed.filter (fun a => a.1 != tid) }) }

/-- The team's contexts, bytes, scratchpad and share are free, and its pair, where it was the last; its core's accumulator slots keep what
its stream left (R209, R311, R387, R442). -/
def State.freeTeam (s : State) (tid : Nat) : State :=
  let s := match (s.team? tid).bind (fun t => t.core?.bind (fun c => t.body.stream.map (fun st => (c, st.acc)))) with
    | some (c, acc) => s.modCore c (fun k => { k with acc := acc })
    | none => s
  let s := s.leaveCore tid
  ({ s with teams := s.teams.filter (fun t => t.id != tid) } : State).unpairIdle

/-! ### Grids -/

/-- Change a grid. -/
def State.modGrid (s : State) (id : Nat) (f : Grid → Grid) : State :=
  { s with grids := s.grids.map (fun (g : Grid) => if g.id == id then f g else g) }

/-- A grid is complete: its command, or its graph node, completes (R209, R300, R412). -/
def State.completeGrid (s : State) (g : Grid) : State :=
  let s : State := { s with grids := s.grids.filter (fun (x : Grid) => x.id != g.id) }
  let s := match g.command with
    | some c => s.finishCmd c (if g.fatal.isSome then 6 else 0) g.serial.toNat
    | none => s
  match g.node with
  | some n => s.modPart g.part (fun p => p.nodeDone n.1 n.2 g.fatal.isNone)
  | none => s

/-- Publications that a team's fragments wait for, at level 0 (R290). -/
def Team.waitingPubs (t : Team) : List Nat :=
  t.body.groups.flatMap (fun g => g.frags.flatMap (fun f =>
    (f.wait :: f.jr.map (·.wait)).filterMap (fun w => match w with
      | .etail p _ => some p
      | _ => none)))

/-- End a team that is killed: what it issued is performed, its version and its unpublished cards are dropped (R292, R341, R393). -/
def State.killTeam (s : State) (tid : Nat) : State :=
  match s.team? tid with
  | none => s
  | some t =>
    let s := (s.flushTeam tid).discardVersion tid
    ({ s with pubs := s.pubs.filter (fun p => !t.waitingPubs.contains p.id) } : State).freeTeam tid

/-- KILL: every team of the grid ends, and the grid with a fatal outcome (R341). -/
def State.killGrid (s : State) (gid cls : Nat) : State :=
  match s.grid? gid with
  | none => s
  | some g =>
    let mine := s.teams.filter (fun t => t.grid == gid)
    (mine.foldl (fun s t => s.killTeam t.id) s).completeGrid { g with fatal := some cls }

/-- A team has ended; with the last one the grid completes (R209). -/
def State.countTeamEnd (s : State) (gid : Nat) : State :=
  let s := s.modGrid gid (fun g => { g with ended := g.ended + 1 })
  match s.grid? gid with
  | some g => if g.teams ≤ g.ended then s.completeGrid g else s
  | none => s

end Sys2Proof.Machine
end

