-- ==== Sys2Proof/Machine/TeamEvents.lean ====
section
/-!
DEFINITION. What happens in a team between its instructions: exit arrivals (R185), ageing (R200), HANG (R202, R342), the finish of accesses
in flight (R245), re-slicing (R97), task boundaries (R229), the team's end (R209), and page walks (R346).
-/
namespace Sys2Proof.Machine

/-- Nothing of the team issues: it is on no core, it is about to be rolled back, or it stands in a boundary that has committed or in a
re-slice (R97, R229, R385, R391). -/
def Team.halted (t : Team) : Bool :=
  t.core?.isNone || t.rollback.isSome || t.mismatch.isSome || t.committed || t.reslice.isSome

/-- The groups of the team may issue, this one too (R339, R371). -/
def Team.runs (t : Team) (g : Group) : Bool := !t.halted && !t.parked g && !g.stopped && g.grace != some 0

/-- The fragment named by team, group and index. -/
def State.frag? (s : State) (tid gi fi : Nat) : Option (Team × Group × Frag) :=
  (s.team? tid).bind (fun t => (t.body.groups[gi]?).bind (fun g => (g.frags[fi]?).map (fun f => (t, g, f))))

/-! ### Fragments -/

/-- The fragment stands at the JADDR of its top entry, which is no call entry (R185). -/
def Frag.atExit (f : Frag) : Bool :=
  f.isLive && f.wait == .none
  && (match f.chain with
      | e :: _ => !e.callEnt && e.jaddr == f.pc
      | [] => false)

/-- Stalled by a second arrival (R224, R229). -/
def Frag.stalled (f : Frag) : Bool :=
  match f.wait with
  | .stall .. | .taskStall _ => true
  | _ => false

/-- The fragment a group offers: the older eligible one of its slots. One that a second arrival stalls is passed over (R199, R211, R224). -/
def Group.offered (g : Group) : Option Nat := g.frags.findIdx? (fun f => f.slot.isSome && f.eligible && !f.stalled)

/-- EXIT_ARRIVAL: the windows close, the fragment parks at its entry, and what that completes completes (R51, R185, R186). -/
def execExitArrival (tid gi fi : Nat) (s : State) : Host.Outcome State Fault Refusal :=
  match s.frag? tid gi fi with
  | none => .refused .notDue
  | some (t, g, f) =>
    if !t.runs g || !f.atExit || !f.wins.all (·.done) then .refused .notDue
    else
      let s := s.modTeam tid (fun t => (t.deliverWhere gi fi (fun _ => true)).modGroup gi (fun g =>
        g.modFrag fi (fun f => { f with park := .exitArrived })))
      .next (s.settle tid gi)

/-- The issues after which a slot's fragment ages (R200). -/
def ageLimit : Nat := 64

/-- FRAGMENT_AGEING: a slot's fragment has issued 64 instructions (R200). -/
def execFragmentAgeing (tid gi fi : Nat) (s : State) : Host.Outcome State Fault Refusal :=
  match s.frag? tid gi fi with
  | none => .refused .notDue
  | some (_, _, f) =>
    if f.slot.isSome && decide (ageLimit ≤ f.count) then .next (s.modGroup tid gi (fun g => g.rotate f.mask)) else .refused .notDue

/-- The hang count at which a group traps (R202). -/
def hangLimit : Nat := 2 ^ 27

/-- HANG: every live lane of the group is trapped; the pc is that of the oldest live fragment (R202, R342). -/
def execHang (tid gi : Nat) (s : State) : Host.Outcome State Fault Refusal :=
  match (s.team? tid).bind (fun t => (t.body.groups[gi]?).map (fun g => (t, g))) with
  | none => .refused .notDue
  | some (t, g) =>
    let live := g.frags.filter (·.isLive)
    if g.hang < hangLimit || !t.runs g then .refused .notDue
    else
      match live with
      | [] => .refused .notDue
      | f :: _ =>
        let lids := g.lids (live.foldl (fun m f => m ||| f.mask) 0)
        .next (s.takeTrap tid { id := 0, cls := clsHang, depth := f.jr.length, g := gi, pc := f.pc, lid := lids.headD 0, task := t.body.task,
                                lids := lids })

/-! ### Accesses in flight -/

/-- IN_FLIGHT_FINISH: some lanes of an access in flight finish, with what must be performed before them, which under DET is every lower
lane of the access; waits on the counter that are over end (R242, R245, R252, R262, R279; log 3, DESIGN CHOICE). -/
def execInFlightFinish (tid gi op : Nat) (lanes : Mask) (keepL1 : Bool) (s : State) : Host.Outcome State Fault Refusal :=
  match s.group? tid gi with
  | none => .refused .notDue
  | some g =>
    match g.flight.find? (fun o => o.id == op) with
    | none => .refused .notDue
    | some o =>
      let named := fun (p : Part) => lanes.getLsbD (g.ix p.lid)
      let sel := fun (p : Part) => named p || (mrDet g.mr && o.parts.any (fun x => named x && decide (p.lid < x.lid)))
      if o.fin || !(o.parts.isEmpty || o.parts.any sel) then .refused .notDue
      else .next (((s.flushBefore tid gi op).performOp tid gi op sel keepL1).endWaits tid gi)

/-! ### Re-slicing (R97, R101) -/

/-- Every group of a team is settled after its groups stand anew; barriers are tested only where an entry completes, a standing anew
being no test point (R186, R225). -/
def State.settleAll (s : State) (tid : Nat) : State :=
  match s.team? tid with
  | none => s
  | some t => (List.range t.body.groups.length).foldl (fun s gi =>
      if ((s.group? tid gi).bind Group.nextJoin).isSome then s.settle tid gi
      else (s.modGroup tid gi Group.fixSlots).stopIdle tid) s

/-- What a start snapshot holds of a body: a stopped stream word is to start again, and no request of a pre-emption stands in it
(R358, R374, R384). -/
def Body.snapshot (b : Body) : Body :=
  { b with stream := b.stream.map (fun st => if st.st = .trapped then { st with st := .running } else st),
           groups := b.groups.map (fun (g : Group) => { g with grace := none, stopped := false }) }

/-- The start snapshot of the task that begins, at levels 1 and 2, with the traps that park groups in it and the boundary whose release is
still to come (R229, R374, R384). -/
def Team.takeSnap (t : Team) (b : Option Boundary) : Team :=
  if t.hdr.level = 0 then t else { t with snap := some t.body.snapshot, snapTraps := t.traps.filter (fun tr => !tr.stream), snapAt := b }

/-- The groups of a victim team at levels 1 and 2 stop at the release of a boundary (R371). -/
def Team.stopAtBoundary (t : Team) : Team :=
  if t.hdr.level = 0 then t
  else t.modBody (fun b => { b with groups := b.groups.map (fun g => if g.grace.isSome then { g with stopped := true } else g) })

/-- RESLICE: every counter of the team is zero: the team is re-sliced to its new grant, and the barrier releases. The snapshot of a task
that begins at this barrier follows into the new slicing, as at a resume, and a victim team at levels 1 and 2 stops there (R97, R101, R371, R377;
log 34, DEDUCED). -/
def execReslice (tid : Nat) (s : State) : Host.Outcome State Fault Refusal :=
  match s.team? tid with
  | none => .refused .notDue
  | some t =>
    match t.reslice with
    | none => .refused .notDue
    | some (w, n) =>
      if !t.body.groups.all (fun g => g.flight.isEmpty) then .refused .notDue
      else
        let s := ((s.modTeam tid (fun t => { t with reslice := none })).reslice tid w).finishBarrier tid n
        let s := s.modTeam tid (fun t => if t.issued then t else (t.takeSnap none).stopAtBoundary)
        .next (s.settleAll tid)

/-! ### Task boundaries (R229, R292) -/

/-- Hand on what a committed task deferred, in order; a start waits for room in the walker's queue, and none waits
for the acceptance of an ETAIL before it (R292, R302; log 46, DEDUCED). -/
def State.drainDeferred (s : State) (tid : Nat) : Nat → State
  | 0 => s
  | n + 1 =>
    match s.team? tid with
    | none => s
    | some t =>
      let next := fun (s : State) => (s.modTeam tid (fun t => { t with deferred := t.deferred.drop 1 })).drainDeferred tid n
      match t.deferred with
      | [] => s
      | .etail chain ccb cards :: _ =>
        let p : Publication := { id := s.nextId, owner := .chain chain ccb, tenant := t.tenant, part := t.part, ctx := t.ctx, cards := cards,
                                 commit := some tid }
        next { s with pubs := s.pubs ++ [p], nextId := s.nextId + 1 }
      | .gcond i v :: _ => next (s.modPart t.part (fun p => { p with cond := p.cond.set i.toNat v }))
      | .graph g arg :: _ =>
        if (((s.parts[t.part]?).map Partition.startsFull).getD true) then s
        else next (s.modPart t.part (fun p => { p with starts := p.starts ++ [(g, arg)] }))

/-- Step 2 of a boundary: the version commits, and what was deferred follows (R229, R270, R292). -/
def State.commitTask (s : State) (tid : Nat) : State :=
  match s.team? tid with
  | none => s
  | some t =>
    let s := if t.committed then s else s.commitVersion tid
    (s.modTeam tid (fun t => { t with committed := true })).drainDeferred tid t.deferred.length

/-- Step 2 has nothing left to do (R229, R290, R292). -/
def State.commitDone (s : State) (t : Team) : Bool := t.committed && t.deferred.isEmpty && !(s.pubs.any (fun p => p.commit == some t.id))

/-- Step 2 can go on. -/
def State.commitMoves (s : State) (t : Team) : Bool :=
  !t.committed || s.commitDone t
  || (match t.deferred with
      | .graph .. :: _ => !((s.parts[t.part]?).map Partition.startsFull).getD true
      | [] => false
      | _ => true)

/-- Steps 3 of a boundary: SR counter and task number rise; the next task begins, its mismatch count zero (R160, R229, R391). -/
def Team.nextTask (t : Team) : Team :=
  { t with body := { t.body with srCtr := (t.body.srCtr + 1) % 2 ^ 32, task := (t.body.task + 1) % 2 ^ 32 },
           mode := .first, mcount := 0, issued := false, boundary := none, committed := false }

/-- The release of TASKEND's barrier (R202, R229). -/
def Team.releaseTask (t : Team) : Team :=
  let free := fun (w : Wait) => match w with
    | .task => Wait.none
    | .taskStall _ => Wait.none
    | w => w
  t.modBody (fun b =>
    { b with
      taskArr := [],
      groups := b.groups.map (fun g =>
        { g with hang := if g.frags.any (fun f => f.wait != free f.wait) then 0 else g.hang,
                 frags := g.frags.map (fun f => { f with wait := free f.wait, jr := f.jr.map (fun l => { l with wait := free l.wait }) }) }) })

/-- The fragments are released (R229, step 5). -/
def State.releaseBoundary (s : State) (tid : Nat) : Boundary → State
  | .bar n => s.releaseBarrier tid n
  | .taskend => (((s.flushTeam tid).modTeam tid Team.releaseTask).fixAll tid).stopIdle tid

/-- TASK_BOUNDARY: with counters 2 to 4 at zero the task commits; once nothing of the commit waits, the next task begins: its snapshot is
taken, and then the fragments are released. A BAR.task whose condition was met at an arrival before waits no longer (R225, R229, R384). -/
def execTaskBoundary (tid : Nat) (s : State) : Host.Outcome State Fault Refusal :=
  match s.team? tid with
  | none => .refused .notDue
  | some t =>
    match t.boundary with
    | none => .refused .notDue
    | some b =>
      if !t.body.groups.all Group.drained || (!t.committed && (t.mismatch.isSome || t.rollback.isSome)) || !s.commitMoves t then .refused .notDue
      else
        let s := s.commitTask tid
        match s.team? tid with
        | none => .refused .notDue
        | some t =>
          if !s.commitDone t then .next s
          else
            let s := (s.modTeam tid (fun t => t.nextTask.takeSnap (some b))).releaseBoundary tid b
            let s := s.modTeam tid Team.stopAtBoundary
            .next (s.testBarriers tid (·.task))

/-! ### The end of a team (R209) -/

/-- Every lane has exited and the stream has ended (R209). -/
def Team.over (t : Team) : Bool := t.body.lanes.all (·.exited) && t.streamEnded && t.body.groups.all (fun g => g.flight.isEmpty)

/-- TEAM_END: a final boundary, and what the team held is free; the grid completes with its last team (R209, R229). -/
def execTeamEnd (tid : Nat) (s : State) : Host.Outcome State Fault Refusal :=
  match s.team? tid with
  | none => .refused .notDue
  | some t =>
    if !t.over || t.core?.isNone || t.boundary.isSome || t.reslice.isSome
        || (!t.committed && (t.mismatch.isSome || t.rollback.isSome)) || !s.commitMoves t then .refused .notDue
    else
      let s := s.commitTask tid
      match s.team? tid with
      | none => .refused .notDue
      | some t => if !s.commitDone t then .next s else .next (((s.flushTeam tid).freeTeam tid).countTeamEnd t.grid)

/-! ### Page walks (R346, R348) -/

/-- PAGE_WALK: a miss of a core's TLBs is walked, and a translation found is kept. A failing walk leaves no entry; its access takes the
fault (R348, R349). -/
def execPageWalk (core ctx va : Nat) (acc : AccessKind) (s : State) : Host.Outcome State Fault Refusal :=
  match s.ctxs.find? (fun (c : Context) => c.num == ctx), s.cores[core]? with
  | some c, some k =>
    if acc = .engine || acc = .walk || decide (2 ^ 52 ≤ va) || k.tlb.any (fun e => e.maps ctx va) then .refused .notDue
    else .next (s.lookup (some core) c.tenant ctx va).1
  | _, _ => .refused .notDue

end Sys2Proof.Machine
end

