-- ==== Sys2Proof/Machine/PlaceTeam.lean ====
section
/-!
DEFINITION. The placement of teams: the core that takes a team (R207, R235, R271, R305, R375, R387), a new team's state at launch (R77, R87,
R116, R222, R306), TEAM_PLACEMENT, and the resume of a saved team (R376-R378).
-/
namespace Sys2Proof.Machine

/-! ### Pair slots (R18, R382, R387) -/

/-- The pair slot of a core. -/
def slotOfCore (c : Nat) : Nat := c / 4

/-- A slot that the tenant's ILPOL marks as spare (R382). -/
def State.isSpare (s : State) (ten j : Nat) : Bool := (((s.tenants[ten]?).map (fun (t : Tenant) => t.ilpol)).getD 1).getLsbD (8 + j)

/-- The Harbourmaster has paired the slot. -/
def State.slotPaired (s : State) (j : Nat) : Bool := s.hm.pairs.any (fun p => p.1 == j)

/-- A core is held (R368), or a victim of a request in progress (R376). -/
def State.coreTaken (s : State) (c : Nat) : Bool :=
  ((s.cores[c]?).map (·.held)).getD true || s.preempts.any (fun p => p.victims.contains c)

/-- The slot is unpaired, and none of its cores holds a team or is held (R207). -/
def State.slotFree (s : State) (j : Nat) : Bool :=
  !s.slotPaired j && [0, 1, 2, 3].all (fun i => (s.teamsOn (4 * j + i)).isEmpty && !((s.cores[4 * j + i]?).map (·.held)).getD true)

/-- The partition holds both clusters of a slot (R28). -/
def Partition.hasSlot (p : Partition) (j : Nat) : Bool := p.hasCluster (2 * j) && p.hasCluster (2 * j + 1)

/-- The pairing rules of a core for a team's level (R207, R387). -/
def State.pairOk (s : State) (p : Partition) (ten level c : Nat) : Bool :=
  let j := slotOfCore c
  if level = 2 then
    decide (c % 4 < 2) && p.hasSlot j && !s.isSpare ten j && !s.coreTaken (c + 2)
    && (s.slotPaired j || [0, 1, 2, 3].all (fun i => (s.teamsOn (4 * j + i)).isEmpty))
  else !s.slotPaired j

/-! ### The pool, snapshots and version quota -/

/-- The pool boundaries suit a team, and the scratchpad region is free for it (R235). -/
def State.poolOk (s : State) (c tid : Nat) (h : Header) : Bool :=
  let others := (s.teamsOn c).filter (fun t => t.id != tid)
  others.isEmpty
  || ((match s.cores[c]? with
       | some k => h.pb1 == k.pb1 && h.pb2 == k.pb2 && h.pb3 == k.pb3
       | none => false)
      && !(decide (h.pb1 < h.pb2) && others.any (fun t => decide (t.hdr.pb1 < t.hdr.pb2))))

/-- Bytes of a team's parts of the pool at a grant: registers, the scratchpad region, FRAG records (R197, R375, R384). -/
def Header.partBytes (h : Header) (w : Nat) : Nat :=
  h.bytesAt w + (h.pb2 - h.pb1) * 1024 + h.groupsAt w * ((h.pb3 - h.pb2) * 1024 / 1536) * 32

/-- Bytes of a team's start snapshot at a grant (R384). -/
def Header.snapBytes (h : Header) (w : Nat) : Nat :=
  if h.level = 0 then 0 else h.partBytes w + 32 * 1024 + (if h.mstream = 0 then 0 else 144 * 1024)

/-- The team has a part in what runs on a core or stands in its image: on its own core, at level 2 on the trailing one too (R374, R387). -/
def Team.coreHit (t : Team) (place c : Nat) : Bool := place == c || (t.hdr.level == 2 && place + 2 == c)

/-- Teams whose contexts stand in the image of a core (R377). -/
def State.standing (s : State) (c : Nat) : List Team :=
  s.teams.filter (fun t => match t.place with
    | .shadow n => t.coreHit n c
    | _ => false)

/-- The context of some level-0 teams that the whole pool and state of a core make up (R375). -/
def contextBytes (pb3 : Nat) (stream : Bool) : Nat := pb3 * 1024 + 32 * 1024 + (if stream then 144 * 1024 else 0)

/-- The contexts of some saved level-0 teams: one of each save (R375). -/
def savedContexts (ts : List Team) : List SavedContext :=
  (ts.filterMap (·.context)).foldl (fun acc x => if acc.any (fun y => y.save == x.save) then acc else acc ++ [x]) []

/-- Bytes of a core's image that saved contexts and their snapshots hold, a team's own snapshot left out: a context stays until the last of
its teams resumes (R375, R377). -/
def State.imageUse (s : State) (c tid : Nat) : Nat :=
  let ts := (s.standing c).filter (fun t => t.id != tid)
  (ts.map (fun t => t.hdr.snapBytes t.body.grant)).sum + ((savedContexts ts).map (·.bytes)).sum

/-- Bytes of the snapshots of the teams that run on a core, on the trailing core of a pair those of its level-2 teams, a team's own left out
(R375, R387). -/
def State.snapUse (s : State) (c tid : Nat) : Nat :=
  ((s.teams.filter (fun t => t.id != tid && (t.core?.map (fun n => t.coreHit n c)).getD false)).map (fun t => t.hdr.snapBytes t.body.grant)).sum

/-- The cores in whose images a team of a level keeps its snapshot: its own, and at level 2 the trailing one (R375, R387). -/
def snapCores (level c : Nat) : List Nat := if level = 2 then [c, c + 2] else [c]

/-- A team's snapshot fits each image that it stands in, of 2 MiB, beside what stands there (R15, R375, R377). -/
def State.snapsFit (s : State) (c tid : Nat) (h : Header) (w : Nat) : Bool :=
  h.level = 0 || (snapCores h.level c).all (fun k => decide (h.snapBytes w + s.snapUse k tid + s.imageUse k tid ≤ 2 ^ 21))

/-- A core runs one stream at most (R305). -/
def State.streamOk (s : State) (c tid : Nat) (h : Header) : Bool :=
  h.mstream == 0 || !((s.teamsOn c).any (fun t => t.id != tid && t.hdr.mstream != 0))

/-- The reservation of TASKFOOT lines fits the tenant's quota and its channels (R271, R405). -/
def State.quotaOk (s : State) (ten tid : Nat) (h : Header) : Bool :=
  h.level = 0
  || (let held := ((s.teams.filter (fun t => t.tenant == ten && t.id != tid && t.core?.isSome && t.hdr.level != 0)).map (·.hdr.taskfoot)).sum
      decide (held + h.taskfoot ≤ ((s.tenants[ten]?).map (fun (t : Tenant) => t.verq)).getD 0)
      && decide (held + h.taskfoot ≤ 8192 * popNat 32 (s.tenantChannels ten)))

/-- The grant of a team on a core of an enabled partition, where the core takes it (R27, R89, R207). -/
def State.coreGrant (s : State) (part tid ten : Nat) (h : Header) (request : Nat) (c : Nat) : Option Nat :=
  match s.parts[part]? with
  | none => none
  | some p =>
    if !p.en || !p.hasCore c || s.coreTaken c || !s.pairOk p ten h.level c || !s.poolOk c tid h || !s.streamOk c tid h then none
    else
      match s.decideGrant c tid ten h h.pb1 request with
      | some w => if s.snapsFit c tid h w then some w else none
      | none => none

/-- Groups resident on a core. -/
def State.groupsOn (s : State) (c : Nat) : Nat := ((s.teamsOn c).map (fun t => t.body.groups.length)).sum

/-- Cores of the part. -/
def allCores : List Nat := List.range 96

/-- The best core: the largest grant, then the fewest groups, then the lowest number (R207). -/
def State.bestCore (s : State) (part tid ten : Nat) (h : Header) (request : Nat) : Option (Nat × Nat) :=
  if !s.quotaOk ten tid h then none
  else minBy (fun x => (96 - x.2) * 2 ^ 20 + s.groupsOn x.1 * 2 ^ 8 + x.1)
    (allCores.filterMap (fun c => (s.coreGrant part tid ten h request c).map (fun w => (c, w))))

/-! ### Standing on a core -/

/-- The pool boundaries of a core, loaded while it holds no team; the L1 keeps what it has room for (R233, R235). -/
def Core.loadPool (k : Core) (h : Header) : Core := ({ k with pb1 := h.pb1, pb2 := h.pb2, pb3 := h.pb3 } : Core).l1Trim

/-- Stand a team on a core: its boundaries, its groups as the core's youngest, its pair (R212, R235, R387). -/
def State.stand (s : State) (tid c : Nat) : State :=
  match s.team? tid with
  | none => s
  | some t =>
    let first := (s.teamsOn c).isEmpty
    let j := slotOfCore c
    let s := s.modCore c (fun k => (if first then k.loadPool t.hdr else k).renewAge tid t.body.groups.length)
    let s := if first && t.hdr.level = 2 then s.modCore (c + 2) (fun k => k.loadPool t.hdr) else s
    let s := s.modTeam tid (fun t => { t with place := .core c, pairSlot := if t.hdr.level = 2 then some j else none })
    if t.hdr.level = 2 && !s.slotPaired j then { s with hm := { s.hm with pairs := s.hm.pairs ++ [(j, 2 * j)] } } else s

/-! ### A team at launch -/

/-- Segment register k at launch (R77, R239). -/
def Header.poolSeg (h : Header) (k : Nat) (sg : Seg) : Seg :=
  if k = 1 then { base := BitVec.ofNat 64 (h.pb1 * 1024), limit := (h.pb2 - h.pb1) * 1024 }
  else if k = 4 then { base := BitVec.ofNat 64 (h.pb2 * 1024), limit := (h.pb3 - h.pb2) * 1024 }
  else sg

/-- A group at launch (R45, R87, R116). -/
def newGroup (g : Grid) (segs : List Seg) (sl : Nat × Nat × Nat) (pipe : Nat) : Group :=
  let gr : Group :=
    { role := sl.1, first := sl.2.1, count := sl.2.2, pipe := pipe, mr := if g.hdr.det then 0x80000000 else 0, seg := segs,
      s := Cells.setRange [] 0 (g.args.take 8),
      frags := [{ mask := maskFirst sl.2.2, pc := g.image + BitVec.ofNat 64 g.hdr.entry, slot := some 0 }] }
  gr.setTriple 8 (maskFirst sl.2.2)

/-- The stream at launch (R306). -/
def newStream (g : Grid) : Option Stream :=
  if g.hdr.mstream = 0 then none
  else some { addr := g.image + BitVec.ofNat 64 g.hdr.mstream, t := List.replicate 16 0, a := [{}, {}], b := List.replicate 8 {} }

/-- The body of a team at launch (R84, R87, R116, R222). -/
def newBody (g : Grid) (w firstPipe : Nat) : Body :=
  let slices := g.hdr.slices w
  let segs := g.segT.zipIdx.map (fun x => g.hdr.poolSeg x.2 x.1)
  { lanes := g.hdr.roles.zipIdx.flatMap (fun r => List.replicate (g.hdr.lanesOf r.1) { role := r.2 }),
    groups := (slices.zip (bindPipes g.hdr.compat16 firstPipe none false slices)).map (fun x => newGroup g segs x.1 x.2),
    barriers := List.replicate 16 { roles := g.hdr.allRoles, stream := false, c := 0, arr := [], streamArr := false, task := false },
    grant := w, request := g.hdr.wreq, stream := newStream g }

/-- The next team of a grid (R78, R206, R384). -/
def newTeam (g : Grid) (id w firstPipe : Nat) : Team :=
  let t : Team :=
    { id := id, grid := g.id, index := g.placed, tenant := g.tenant, part := g.part, ctx := g.ctx, hdr := g.hdr, image := g.image,
      seed := g.seed + BitVec.ofNat 64 g.placed, place := .waiting, body := newBody g w firstPipe,
      seg0 := (g.segT[0]?).getD { base := 0, limit := 0 }, args := g.args, segT := g.segT }
  t.takeSnap none

/-- The team stands on no core and waits to resume. -/
def Team.isSaved (t : Team) : Bool :=
  match t.place with
  | .saved | .shadow _ => true
  | _ => false

/-- The core and grant that a saved team would resume on. -/
def State.resumeCore (s : State) (t : Team) : Option (Nat × Nat) := s.bestCore t.part t.id t.tenant t.hdr t.body.request

/-- A saved team comes before a team of a grid and index: an earlier one of the same grid, or one of an earlier grid of the partition that
some core takes (R207, R376). -/
def State.before (s : State) (part grid index : Nat) (x : Team) : Bool :=
  x.isSaved && x.part == part
  && ((x.grid == grid && decide (x.index < index)) || (decide (x.grid < grid) && (s.resumeCore x).isSome))

/-- TEAM_PLACEMENT: the next team of a grid goes to the core that takes it, after the saved teams that come before it (R206, R207, R376). -/
def execTeamPlacement (grid : Nat) (s : State) : Host.Outcome State Fault Refusal :=
  match s.grid? grid with
  | none => .refused .notDue
  | some g =>
    if g.teams ≤ g.placed || s.teams.any (s.before g.part g.id g.placed) then .refused .notDue
    else
      let id := s.nextId
      match s.bestCore g.part id g.tenant g.hdr g.hdr.wreq with
      | none => .refused .notDue
      | some (c, w) =>
        let t := newTeam g id w (s.firstPipe c id)
        let s := { s with teams := s.teams ++ [t], nextId := id + 1 }.modGrid grid (fun g => { g with placed := g.placed + 1 })
        .next (s.stand id c)

/-! ### Resume (R376-R378) -/

/-- No request stops the groups of a team any longer. -/
def Team.freed (t : Team) : Team :=
  Team.modBody { t with trail := none } (fun b => { b with groups := b.groups.map (fun (g : Group) => { g with grace := none, stopped := false }) })

/-- What an answer does with a fragment of a trap. A RETRY of an instruction whose window a stream word's handler banks lets the handler go on
first (R341, R357). -/
def Frag.answered (f : Frag) (tr : Trap) (retry : Bool) : Frag :=
  if tr.cls = clsHang then f
  else if retry && tr.bank.isSome then { f with jr := f.jr.map (fun lv => if some lv.id == tr.bank then { lv with pc := tr.pc } else lv) }
  else if retry then { f with pc := tr.pc, skipCmp := tr.cmp }
  else if tr.cls = clsMemUe && tr.win.isSome then f
  else { f with pc := tr.pc + BitVec.ofNat 64 tr.len, skipCmp := none }

/-- The groups of a group trap go on, after the instruction or at it; a HANG's counts restart (R341, R342). -/
def Team.answer (t : Team) (tr : Trap) (retry : Bool) : Team :=
  let rest := t.traps.filter (fun x => x.id != tr.id)
  if tr.stream then
    { (t.modBody (fun b => { b with stream := b.stream.map (fun st =>
        if retry then { st with st := .running } else { (st.advance tr.pc) with st := .running }) })) with traps := rest }
  else
    { (t.modBody (fun b => { b with groups := b.groups.map (fun g =>
        let mine := fun (f : Frag) => (g.lids f.mask).any tr.lids.contains
        if g.frags.any mine then
          { g with hang := if tr.cls = clsHang then 0 else g.hang,
                   frags := g.frags.map (fun f => if mine f then f.answered tr retry else f) }
        else g) })) with traps := rest }

/-- The answers that came while a team was saved take effect (R378). -/
def State.answerKept (s : State) (tid : Nat) : State :=
  match s.team? tid with
  | none => s
  | some t =>
    let kept := t.traps.filter (fun tr => tr.answer.isSome)
    match kept.find? (fun tr => tr.answer == some 2) with
    | some tr => s.killGrid t.grid tr.cls
    | none => s.modTeam tid (fun t => kept.foldl (fun t tr => t.answer tr true) t)

/-- No load of a body's groups uses an L1 copy made before a stamp (R265). -/
def Body.fresh (b : Body) (stamp : Nat) : Body := { b with groups := b.groups.map (fun (g : Group) => { g with l1Stamp := stamp }) }

/-- No load of a team uses an L1 copy made before now, after a rollback either (R264, R265). -/
def State.freshTeam (s : State) (tid : Nat) : State :=
  s.modTeam tid (fun t => { t.modBody (fun b => b.fresh (s.stamp + 1)) with snap := t.snap.map (fun b => b.fresh (s.stamp + 1)) })

/-- A width request that waits for its re-slice at a barrier: the barrier releases as it is, and the placement decides the grant of the
standing request (R90, R97, R376). -/
def State.dropReslice (s : State) (tid : Nat) : State :=
  match (s.team? tid).bind (·.reslice) with
  | some (_, n) => (s.modTeam tid (fun t => { t with reslice := none })).finishBarrier tid n
  | none => s

/-- Place a saved team on a core at a grant: re-sliced where the grant changes, else its groups as they were; its kept answers and the ends
of its waits take effect. Copies that another core's L1 holds are no older load's (R95, R100, R264, R376, R378). -/
def State.standAgain (s : State) (tid c w : Nat) : State :=
  let s := s.dropReslice tid
  let fp := s.firstPipe c tid
  let same := ((s.team? tid).map (fun t => t.place == .shadow c)).getD false
  let s := s.modTeam tid (fun t => if w = t.body.grant then t.freed else (t.freed.resliced w fp).takeSnap none)
  let s := s.modTeam tid (fun t => { t with context := none })
  let s := if same then s else s.freshTeam tid
  let s := (s.stand tid c).answerKept tid
  match s.team? tid with
  | none => s
  | some t => ((List.range t.body.groups.length).foldl (fun s gi => s.endWaits tid gi) s).settleAll tid

/-- TEAM_RESUME: a saved team before which no other comes (R376). -/
def execTeamResume (tid : Nat) (s : State) : Host.Outcome State Fault Refusal :=
  match s.team? tid with
  | none => .refused .notDue
  | some t =>
    if !t.isSaved || s.teams.any (s.before t.part t.grid t.index) then .refused .notDue
    else
      match s.resumeCore t with
      | none => .refused .notDue
      | some (c, w) => .next (s.standAgain tid c w)

end Sys2Proof.Machine
end

