-- ==== Sys2Proof/Machine/SaveArea.lean ====
section
/-!
DEFINITION. The bytes of saved contexts and of the images of a core, and the context save area of a tenant (R374, R375, R377; log 40, DESIGN
CHOICE).
-/
namespace Sys2Proof.Machine

/-- The bytes of a context of some teams, in the order of R374 and R375: the register bytes, the scratchpad, the FRAG records in the format
of R198, group by group, and the group, team and stream state. No rule places the registers and the state within their bytes: these are free
values (log 40, DESIGN CHOICE). -/
def contextData (draw : Nat) (x : SavedContext) (ts : List Team) : List Byte :=
  let h := (ts.head?).map (·.hdr)
  let free := fun a n => (List.range n).map (fun i => Config.saveByte draw (a + i))
  let regs := if x.whole then ((h.map (·.pb1)).getD 0) * 1024 else (ts.map (fun t => t.hdr.bytesAt t.body.grant)).sum
  let scratch := ts.flatMap (fun t => (List.range ((t.hdr.pb2 - t.hdr.pb1) * 1024)).map t.body.scratch.get)
  let frag := ts.flatMap (fun t => t.body.groups.flatMap t.fragBytes)
  let pad := if x.whole then ((h.map (fun h => h.pb3 - h.pb2)).getD 0) * 1024 - frag.length else 0
  let l := free 0 regs ++ scratch ++ frag ++ unusedFrag pad
  l ++ free l.length (x.bytes - l.length)

/-- Where a core's part of its tenant's save area lies: 2 MiB for each core of the tenant's partitions, in rising order (R375, R404; log 40,
DESIGN CHOICE). -/
def State.saveAt (s : State) (ten c : Nat) : Nat :=
  let cores := (List.range 96).filter (fun k => s.parts.any (fun p => p.en && p.owner == ten && p.hasCore k))
  (((s.tenants[ten]?).map (fun (t : Tenant) => t.save)).getD 0).toNat + 2 ^ 21 * cores.idxOf c

/-- Write bytes into a save area, which lies in LPDDR6 (R375, R377). -/
def State.writeSave (s : State) (pa : Nat) (l : List Byte) : State :=
  if l.isEmpty || (s.channelOf pa).isNone then s
  else { s with mem := s.mem.setRange pa l, zeroed := noteZeros s.zeroed pa l, poison := clearPoison s.poison pa l.length, freeCount := s.freeCount + 1 }

/-- The bytes of the image of a core: the contexts of the saves that stand there, one after the other, and the snapshots, each with its
register bytes, scratchpad, FRAG records and state (R374, R377, R384; log 40, DESIGN CHOICE). -/
def State.imageData (s : State) (c : Nat) : List Byte :=
  let ts := s.standing c
  (savedContexts ts).flatMap (fun x => contextData s.freeCount x (ts.filter (fun t => t.context.any (fun y => y.save == x.save))))
  ++ ts.flatMap (fun t => if t.hdr.level = 0 then []
      else contextData s.freeCount ⟨0, t.hdr.snapBytes t.body.grant, false⟩ [{ t with body := t.snap.getD t.body }])

/-- The image of a core is copied to its tenant's save area (R377). -/
def State.moveImage (s : State) (c : Nat) : State :=
  let ten := (((s.standing c).head?).map (·.tenant)).getD 0
  s.writeSave (s.saveAt ten c) (s.imageData c)

/-- An image gives up what stands in it: it is in the save area from then on (R377; log 40, DESIGN CHOICE). -/
def State.emptyImage (s : State) (c : Nat) : State :=
  let moved := (s.standing c).map (·.id)
  let s := s.moveImage c
  { s with teams := s.teams.map (fun (t : Team) => if moved.contains t.id then { t with place := .saved } else t) }

/-- Images that have no room for the snapshot of a team to stand there give up what they hold (R15, R391; log 40, DESIGN CHOICE). -/
def State.makeImageRoom (s : State) (c tid : Nat) (h : Header) (w : Nat) : State :=
  if s.snapsFit c tid h w then s else (snapCores h.level c).foldl State.emptyImage s

end Sys2Proof.Machine
end

