-- ==== Sys2Proof/Machine/Reports.lean ====
section
/-!
DEFINITION. Trap reports and fault records (R340, R350, R358), the report rings (R415), and the addresses and bytes that Pilot reads and
writes (R410, R417).
-/
namespace Sys2Proof.Machine

/-! ### Functions -/

/-- The registers of a function. -/
def State.fnRegs (s : State) : Fn → FnRegs
  | .pf => s.pfRegs
  | .vf t => (s.vfs[t]?).getD {}

/-- Change the registers of a function. -/
def State.modFn (s : State) (fn : Fn) (f : FnRegs → FnRegs) : State :=
  match fn with
  | .pf => { s with pfRegs := f s.pfRegs }
  | .vf t => { s with vfs := listModify s.vfs t f }

/-- The number a signal names a function by: 0 the PF, v the VF v (R401). -/
def fnNum : Fn → Nat
  | .pf => 0
  | .vf t => t + 1

/-- Signal an MSI-X vector of a function. -/
def State.signalVec (s : State) (fn : Fn) (vec : Nat) : State := { s with signals := s.signals ++ [(fnNum fn, vec)] }

/-- The physical address of a function's own address: physical on the PF, intermediate on a VF (R410, R417). -/
def State.fnPa (s : State) (fn : Fn) (a : Nat) (write : Bool) : Option Nat :=
  match fn with
  | .pf => if s.hasMemory a then some a else none
  | .vf t =>
    match s.stage2 t a with
    | .ok l => if write && !l.w then none else some (l.addr a)
    | .error _ => none

/-- Pilot writes n bytes for a function: a request of that function where they lie behind the aperture (R402, R410). -/
def State.fnWrite (s : State) (fn : Fn) (pa n x : Nat) : State := ((s.drainLine pa).physWrite pa n x).hostRequest fn true pa n

/-- Pilot reads n bytes for a function (R402, R410). -/
def State.fnRead (s : State) (fn : Fn) (pa n : Nat) : State := (s.drainLine pa).hostRequest fn false pa n

/-! ### Records of 64 bytes (R340, R350) -/

/-- A trap report. -/
def State.trapBytes (s : State) (t : Team) (tr : Trap) : List Byte :=
  let b := bytesOfNat
  let w := fun k => (tr.words.getD k 0).toNat
  b 4 (tr.cls % 256 + 2 ^ 8 * (tr.sub % 256) + 2 ^ 16 * t.hdr.level + 2 ^ 18 * tr.depth + 2 ^ 20 * tr.stream.toNat)
  ++ b 4 (t.tenant % 256 + 2 ^ 8 * t.part + 2 ^ 16 * t.ctx)
  ++ b 4 (s.serialOf t) ++ b 4 t.index
  ++ b 4 ((if tr.stream then 0xFF else tr.g) + 2 ^ 8 * t.core?.getD 0)
  ++ b 4 tr.task ++ b 8 tr.pc.toNat
  ++ b 4 ((if tr.stream then 0xFFFF else tr.lid) + 2 ^ 16 * (tr.elem % 256) + 2 ^ 24 * tr.wins)
  ++ b 4 (tr.flags % 32 + 2 ^ 5 * tr.detail) ++ b 8 tr.addr.toNat
  ++ b 4 (w 0) ++ b 4 (w 1) ++ b 4 (w 2) ++ b 4 tr.xlate.toNat

/-- Hold a report for the ring of a function (R415). -/
def State.pushReport (s : State) (fn : Fn) (l : List Byte) : State := s.modFn fn (fun r => { r with reports := r.reports ++ [l] })

/-- Whose ring a report goes into: a stage-2 fault record to the PF's, else the tenant's (R350, R415). -/
def reportTo (ten : Nat) (served : Option Nat) : Fn := if served = some 2 then .pf else .vf ten

/-- A trap's source is the one named (R340, R358). -/
def Trap.from (tr : Trap) : TrapSource → Bool
  | .group g => !tr.stream && tr.g == g
  | .stream => tr.stream

/-- The groups that a trap parks (R339). -/
def Trap.groupsOf (tr : Trap) (t : Team) : List Group :=
  t.body.groups.filter (fun g => tr.lids.any (fun l => decide (g.first ≤ l) && decide (l < g.first + g.count)))

/-- A trap of the same cycle whose report comes first: of a lower core, or of an earlier pipe of the core (R340). -/
def Trap.reportsBefore (x tr : Trap) : Bool :=
  !x.reported && x.cycle == tr.cycle && decide (x.place < tr.place ∨ x.place = tr.place ∧ x.id < tr.id)

/-- TRAP_REPORT: counters 2, 3 and 4 of the parked groups are zero, the reports of the same cycle that come first are out, and Pilot has the
report (R340, R350, R358). -/
def execTrapReport (tid : Nat) (src : TrapSource) (s : State) : Host.Outcome State Fault Refusal :=
  match s.team? tid with
  | none => .refused .notDue
  | some t =>
    match t.traps.find? (fun tr => !tr.reported && tr.from src) with
    | none => .refused .notDue
    | some tr =>
      if t.mismatch.isSome || !(tr.groupsOf t).all Group.drained || s.teams.any (fun u => u.traps.any (fun x => x.reportsBefore tr)) then
        .refused .notDue
      else
        let s := s.modTeam tid (fun t => { t with traps := t.traps.map (fun (x : Trap) => if x.id == tr.id then { x with reported := true } else x) })
        .next (s.pushReport (reportTo t.tenant tr.served) (s.trapBytes t tr))

/-! ### Report rings (R415) -/

/-- Reports a ring holds (R410). -/
def FnRegs.ringSize (r : FnRegs) : Nat := 2 ^ (min r.repLog2 12 + 4)

/-- The ring has room (R415). -/
def FnRegs.ringRoom (r : FnRegs) : Bool := (r.repTail - r.repHead).toNat != r.ringSize

/-- The vector of a report (R415). -/
def reportVec : Fn → Nat
  | .pf => 15
  | .vf _ => 6

/-- REPORT_RING_WRITE: the oldest held report goes into the ring (R415). -/
def execReportRingWrite (fn : Fn) (s : State) : Host.Outcome State Fault Refusal :=
  let r := s.fnRegs fn
  match r.reports with
  | [] => .refused .notDue
  | l :: rest =>
    if !r.ringRoom then .refused .notDue
    else
      match s.fnPa fn (bitsOf r.repBase 45 6 * 64 + 64 * (r.repTail.toNat % r.ringSize)) true with
      | none => .refused .notDue
      | some pa =>
        .next (((s.fnWrite fn pa l.length (natOfBytes l)).modFn fn (fun r => { r with repTail := r.repTail + 1, reports := rest })).signalVec fn (reportVec fn))

end Sys2Proof.Machine
end

