-- ==== Sys2Proof/Machine/Rollback.lean ====
section
/-!
DEFINITION. The Harbourmaster's service of tasks at levels 1 and 2: rollback and rerun (R385), VERSION_FULL (R386), Telltale mismatches
(R391, R392), and the fatal outcome (R393).
-/
namespace Sys2Proof.Machine

/-- What a restored group has of a pre-emption request: a restore is no stop point, so it has the least grace left to the groups that hold
its lanes, and has stopped where one of them has (R371; log 34, DEDUCED). -/
def Group.graceOf (g : Group) (olds : List Group) : Group :=
  let held := olds.filter (fun o => decide (o.first < g.first + g.count) && decide (g.first < o.first + o.count))
  { g with grace := minGrace (held.map (·.grace)), stopped := held.any (·.stopped) }

/-- A trap of a snapshot, where its group is parked again: one that has been answered since is reported again (R340, R384; log 34, DEDUCED). -/
def Team.trapAgain (t : Team) (tr : Trap) : Trap := (t.traps.find? (fun x => x.id == tr.id)).getD { tr with reported := false, answer := none }

/-- Restore a team's start snapshot, on both cores of a pair: nothing of the task is left, and the groups that were parked are parked (R374,
R384, R391). -/
def Team.restore (t : Team) : Team :=
  match t.snap with
  | none => t
  | some b =>
    { t with body := { b with groups := b.groups.map (fun g => g.graceOf t.body.groups) },
             trail := none, traps := t.snapTraps.map t.trapAgain, rollback := none, mismatch := none, deferred := [], boundary := none, committed := false, reslice := none,
             issued := false }

/-- Drain a team: what its groups have in flight is performed (R372). -/
def State.drainTeam (s : State) (tid : Nat) : State := s.flushTeam tid

/-- Discard the running task and stand the team at the task's start: its snapshot, and then the release that began the task
(R229, R270, R384). -/
def State.rollBack (s : State) (tid : Nat) : State :=
  let s := ((s.drainTeam tid).discardVersion tid).modTeam tid Team.restore
  let s := match (s.team? tid).bind (·.snapAt) with
    | some b => s.releaseBoundary tid b
    | none => s
  match (s.team? tid).bind (fun t => t.core?.map (fun c => (t, c))) with
  | some (t, c) => s.modCore c (fun k => k.renewAge tid t.body.groups.length)
  | none => s

/-- The fatal outcome: the grid ends as under KILL, and Pilot has a report (R393). -/
def State.fatalTask (s : State) (t : Team) (tr : Trap) : State :=
  (s.pushReport (.vf t.tenant) (s.trapBytes t tr)).killGrid t.grid tr.cls

/-- The record of a trap in a task (R395, R396). -/
def State.trapRecord (s : State) (t : Team) (tr : Trap) (cls outcome : Nat) : LogRec :=
  s.teamRecord t cls outcome (if tr.stream then 0xFF else tr.g) (if tr.stream then 0xFFFF else tr.lid) tr.elem tr.pc.toNat (s.trapBytes t tr)

/-- TASK_ROLLBACK: a trap of a task at level 1 or 2 is served (R385, R386). -/
def execTaskRollback (tid : Nat) (s : State) : Host.Outcome State Fault Refusal :=
  match s.team? tid with
  | none => .refused .notDue
  | some t =>
    match t.rollback with
    | none => .refused .notDue
    | some tr =>
      if t.core?.isNone || t.mismatch.isSome || t.committed then .refused .notDue
      else
        let s := s.drainTeam tid
        let full := decide (tr.cls = clsVersion)
        if (full && t.hdr.vfall) || (!full && t.mode != .rerun) then
          let s := s.commitRecord (s.trapRecord t tr (if full then 3 else 2) (if full then 2 else 0))
          .next ((s.rollBack tid).modTeam tid (fun t => { t with mode := if full then .levelZero else .rerun }))
        else
          let s := s.commitRecord (s.trapRecord t tr (if full then 3 else 2) 3)
          .next (s.fatalTask t tr)

/-! ### The save of a team (R372-R377) -/

/-- A window as it was before one more instruction of its fragment. -/
def Window.uncount (w : Window) : Window := { w with remaining := if w.lk15 then w.remaining else w.remaining + 1, issued := w.issued - 1 }

/-- Take back the issue of an ETAIL that waits at step 3, suspended by a stream word's handler: it issues again after the return (R357,
R372). -/
def JrLevel.withdraw (l : JrLevel) : JrLevel :=
  match l.wait with
  | .etail _ a => { l with wait := .none, pc := a, wins := l.wins.map Window.uncount }
  | _ => l

/-- Take back the issue of an ETAIL that waits at step 3: it issues again after the resume (R372). -/
def Frag.withdraw (f : Frag) : Frag :=
  let f := { f with jr := f.jr.map JrLevel.withdraw }
  match f.wait with
  | .etail _ a => { f with wait := .none, pc := a, count := f.count - 1, wins := f.wins.map Window.uncount }
  | _ => f

/-- Waits at step 3 of an ETAIL. -/
def Wait.atEtail : Wait → Bool
  | .etail .. => true
  | _ => false

/-- The ETAIL that a fragment waits at has counted on the clock: it issued outside the handler (R230). -/
def Frag.countedEtail (f : Frag) : Bool := ((f.jr.getLast?.map (·.wait)).getD f.wait).atEtail

/-- Withdraw the publications of a team (R372). -/
def State.withdraw (s : State) (tid : Nat) : State :=
  match s.team? tid with
  | none => s
  | some t =>
    let s := { s with pubs := s.pubs.filter (fun p => !t.waitingPubs.contains p.id) }
    s.modTeam tid (fun t => t.modBody (fun b => { b with groups := b.groups.map (fun g =>
      { g with clock := g.clock - BitVec.ofNat 64 (g.frags.filter Frag.countedEtail).length, frags := g.frags.map Frag.withdraw }) }))

/-- Save a victim team: drained, at levels 1 and 2 and in a run at level-0 semantics at its last boundary, its context in the image of its
core or, where that has no room, in the save area. A barrier that waits for a re-slice releases, since the placement on resume decides the
grant (R372-R376). -/
def State.saveVictim (s : State) (room : Nat → Bool) (ctx : Nat → SavedContext) (tid : Nat) : State :=
  match (s.team? tid).bind (fun t => t.core?.map (fun c => (t, c))) with
  | none => s
  | some (t, c) =>
    let s := (s.withdraw tid).drainTeam tid
    let s := if t.hdr.level ≠ 0 && t.issued then (s.rollBack tid).dropReslice tid else s
    let s := (s.leaveCore tid).modTeam tid (fun t =>
      { t.freed with place := if t.hdr.level ≠ 0 || room c then .shadow c else .saved, pairSlot := none,
                     context := if t.hdr.level = 0 then some (ctx c) else none })
    s.unpairIdle

/-! ### Telltale (R391, R392, R397) -/

/-- DETAIL of a class-1 record (R397). -/
def mismatchDetail (m : Mismatch) : List Byte :=
  let b := bytesOfNat
  b 1 m.kind ++ b 1 0 ++ b 2 m.leadMask ++ b 2 m.trailMask ++ b 2 0 ++ b 8 m.leadAddr ++ b 8 m.trailAddr ++ b 16 m.leadData ++ b 16 m.trailData

/-- The other teams on the cores of a slot. -/
def State.mates (s : State) (j tid : Nat) : List Team := s.teams.filter (fun t => t.pairSlot == some j && t.core?.isSome && t.id != tid)

/-- Telltale has found a mismatch on the pair of a level-2 team: the pair is halted (R391). -/
def State.pairHalted (s : State) (t : Team) : Bool :=
  t.pairSlot.isSome && s.teams.any (fun x => x.pairSlot == t.pairSlot && x.mismatch.isSome)

/-- The free spare slots of the team's tenant, lowest first, each with the tenant's partition that holds it (R28, R207, R391). -/
def State.spares (s : State) (t : Team) : List (Nat × Nat) :=
  (List.range 24).filterMap (fun j =>
    if s.isSpare t.tenant j && s.slotFree j then
      (s.parts.findIdx? (fun p => p.en && p.owner == t.tenant && p.hasSlot j)).map (fun p => (j, p))
    else none)

/-- The spare core that a task moves to, with its grant there: a leading core of the lowest free spare slot, the one of the larger grant, else the
lower one. R391 asks no more of the slot than that it is free as R207 says (R89, R207, R391). -/
def State.spareCore (s : State) (t : Team) : Option (Nat × Nat) :=
  match s.spares t with
  | [] => none
  | (j, _) :: _ =>
    minBy (fun x => (96 - x.2) * 2 ^ 8 + x.1)
      ([4 * j, 4 * j + 1].filterMap (fun c => (s.decideGrant c t.id t.tenant t.hdr t.hdr.pb1 t.body.request).map (fun w => (c, w))))

/-- Hold the four cores of a slot (R391). -/
def State.holdSlot (s : State) (j : Nat) : State := [0, 1, 2, 3].foldl (fun s i => s.modCore (4 * j + i) (fun k => { k with held := true })) s

/-- A mismatch as a trap, for the report of a fatal outcome (R393). -/
def mismatchTrap (m : Mismatch) (t : Team) : Trap :=
  { id := 0, cls := clsTelltale, g := m.group, pc := BitVec.ofNat 64 m.pc, lid := m.lid, elem := m.elem, addr := BitVec.ofNat 64 m.leadAddr,
    task := t.body.task }

/-- Every group of a team is given its grace, and stops where it is at rest (R371). -/
def State.grant (s : State) (tid grace : Nat) : State :=
  (s.modTeam tid (fun t => t.modBody (fun b => { b with groups := b.groups.map (fun (g : Group) => { g with grace := some grace }) }))).stopIdle tid

/-- Move a rolled-back task to a core of a spare pair, whose images take its snapshot. On a core that a request has claimed the team becomes its
victim (R15, R371, R377, R391). -/
def State.moveToSpare (s : State) (tid c w : Nat) : State :=
  let s := (s.leaveCore tid).modTeam tid (fun t => { t with place := .waiting, pairSlot := none })
  let s := match s.team? tid with
    | some t => s.unpairIdle.makeImageRoom c tid t.hdr w
    | none => s.unpairIdle
  let s := s.standAgain tid c w
  match s.preempts.find? (fun p => p.victims.contains c || p.victims.contains (c + 2)) with
  | some p => s.grant tid p.grace
  | none => s

/-- The record of a mismatch, with the count that the task has reached (R391, R397). -/
def State.mismatchRecord (s : State) (t : Team) (m : Mismatch) (n outcome : Nat) : State :=
  s.commitRecord (s.teamRecord { t with mcount := n } 1 outcome m.group m.lid m.elem m.pc (mismatchDetail m))

/-- The fatal outcome of a mismatch (R391, R393). -/
def State.fatalMismatch (s : State) (t : Team) (m : Mismatch) (n : Nat) : State :=
  (s.mismatchRecord t m n 3).fatalTask { t with mcount := n } (mismatchTrap m t)

/-- A task whose count has reached 2 is rolled back and moves to the lowest free spare pair, or ends where there is none (R391). -/
def State.moveOrEnd (s : State) (t : Team) (m : Mismatch) : State :=
  let s' := (s.rollBack t.id).modTeam t.id (fun t => { t with mcount := 2 })
  match s'.spareCore ((s'.team? t.id).getD t) with
  | some (c, w) => (s'.mismatchRecord t m 2 1).moveToSpare t.id c w
  | none => s'.fatalMismatch t m 2

/-- The old slot leaves service: a mate whose own count has reached 2 moves or ends too, any other is saved, and with no team left on it the
slot is unpaired and held (R391, R392). -/
def State.leaveSlot (s : State) (j tid : Nat) : State :=
  let s := (s.mates j tid).foldl (fun s x => match x.mismatch with
    | some m => s.moveOrEnd x m
    | none => s) s
  let s := (s.mates j tid).foldl (fun s x => s.saveVictim (fun _ => true) (fun _ => ⟨0, 0, false⟩) x.id) s
  s.unpairIdle.holdSlot j

/-- A mate keeps a slot from leaving service: its boundary has committed but not released, or its own mismatch is to be served on the slot
first (R391, R392). -/
def Team.keepsSlot (x : Team) : Bool := x.committed || (x.mismatch.isSome && (x.mode == .levelZero || x.mcount != 1))

/-- TELLTALE_MISMATCH: the pair is halted and drained, the task rolled back, and then run again, moved, or ended (R391, R392). The event of a
mismatch comes from an injection, or from the outside. -/
def execTelltaleMismatch (tid : Nat) (m : Mismatch) (s : State) : Host.Outcome State Fault Refusal :=
  match s.team? tid with
  | none => .refused .notDue
  | some t =>
    match t.pairSlot with
    | none => .refused .notDue
    | some j =>
      if t.hdr.level ≠ 2 || t.core?.isNone || t.committed || !(t.mismatch.isNone || t.mismatch == some m) then .refused .notDue
      else
        let s := (s.mates j tid).foldl (fun s x => s.drainTeam x.id) (s.drainTeam tid)
        let n := t.mcount + 1
        if t.mode = .levelZero then .next (s.fatalMismatch t m n)
        else if n = 1 then .next (((s.rollBack tid).modTeam tid (fun t => { t with mcount := 1 })).mismatchRecord t m 1 0)
        else if n = 2 && (s.spareCore t).isSome then
          (if (s.mates j tid).any Team.keepsSlot then .refused .notDue else .next ((s.moveOrEnd t m).leaveSlot j tid))
        else .next (((s.rollBack tid).modTeam tid (fun t => { t with mcount := n })).fatalMismatch t m n)

end Sys2Proof.Machine
end

