-- ==== Sys2Proof/Machine/Engines.lean ====
section
/-!
DEFINITION. The task scheduler and the engines: acceptance (R290), edges (R293), dispatch (R294), the operations of cards (R287), their
failures (R295, R350), completion (R298), and the Quay links (R304). An engine makes its card's accesses piece by piece, in ascending order
(log 21, DESIGN CHOICE): a piece that fails leaves the pieces before it made.
-/
namespace Sys2Proof.Machine

/-! ### Acceptance (R290, R293) -/

/-- Outstanding cards of a tenant. -/
def State.cardsOf (s : State) (ten : Nat) : Nat := (s.cards.filter (fun c => c.tenant == ten)).length

/-- The device-wide limit lets a request in (R290). -/
def State.deviceRoom (s : State) (p : Publication) : Bool := decide (s.cards.length + p.cards.length ≤ 1024)

/-- The tenant's card quota lets a request in; the PF has none (R290, R417). -/
def State.quotaRoom (s : State) (p : Publication) : Bool :=
  p.tenant == 16 || decide (s.cardsOf p.tenant + p.cards.length ≤ ((s.tenants[p.tenant]?).map (fun (t : Tenant) => t.cardq)).getD 0)

/-- The first request that may be accepted, none passing one that it waits behind (R290). -/
def State.nextPub (s : State) : List Publication → List Publication → Option Publication
  | _, [] => none
  | before, p :: rest =>
    if s.deviceRoom p && s.quotaRoom p && !(before.any (fun b => b.tenant == p.tenant || !s.deviceRoom b)) then some p
    else s.nextPub (before ++ [p]) rest

/-- The 256-byte lines of two regions overlap (R293). -/
def Region.lineMeets (a b : Region) : Bool :=
  decide (a.base / 256 ≤ (b.base + b.len - 1) / 256) && decide (b.base / 256 ≤ (a.base + a.len - 1) / 256)

/-- Card j must complete before card k (R293). -/
def cardEdge (j k : List Word) : Bool :=
  (cardRegions j).any (fun a => (cardRegions k).any (fun b => a.lineMeets b && (decide (2 ≤ a.flags) || decide (2 ≤ b.flags))))

/-- TAIL of an owner's chain. -/
def State.tailOf (s : State) : CardOwner → Nat
  | .chain _ ccb => s.ccbTail ccb
  | .walker p => ((s.parts[p]?).map (·.wTail)).getD 0
  | .command _ => 0

/-- Set TAIL of an owner's chain, a tenant's (R284). -/
def State.setTail (s : State) (ten : Nat) (o : CardOwner) (n : Nat) : State :=
  match o with
  | .chain _ ccb => s.locWrite ten ccb 16 8 n
  | .walker p => s.modPart p (fun p => { p with wTail := n })
  | .command _ => s

/-- Accept one card (R284, R293). -/
def State.acceptCard (s : State) (p : Publication) (w : List Word) : State :=
  let pos := s.tailOf p.owner
  let c : Card :=
    { id := s.nextId, owner := p.owner, tenant := p.tenant, part := p.part, ctx := p.ctx, pos := pos, words := w, node := p.node,
      edges := if p.tenant = 16 then [] else (s.cards.filter (fun j => j.tenant == p.tenant && cardEdge j.words w)).map (·.id) }
  ({ s with cards := s.cards ++ [c], nextId := s.nextId + 1 } : State).setTail p.tenant p.owner (pos + 1)

/-- The ETAIL whose publication was accepted completes (R290). -/
def State.endEtail (s : State) (pub : Nat) : State :=
  let free := fun (w : Wait) => match w with
    | .etail p a => if p = pub then Wait.none else .etail p a
    | w => w
  { s with teams := s.teams.map (fun t => t.modBody (fun b => { b with groups := b.groups.map (fun g =>
      { g with frags := g.frags.map (fun f => { f with wait := free f.wait, jr := f.jr.map (fun l => { l with wait := free l.wait }) }) }) })) }

/-- The ETAIL that waits for a publication issues no more: it traps in the place where it stands (R290). -/
def State.trapEtail (s : State) (pub : Nat) (tr : Trap) : State :=
  match s.teams.find? (fun t => t.waitingPubs.contains pub) with
  | none => s
  | some t =>
    let mine := fun (f : Frag) => match f.wait with
      | .etail p _ => p == pub
      | _ => false
    (s.modTeam t.id (fun t => t.modBody (fun b => { b with groups := b.groups.map (fun g =>
      { g with clock := g.clock - BitVec.ofNat 64 (g.frags.filter (fun f => mine f && f.jr.isEmpty)).length,
               frags := g.frags.map (fun f => if mine f then f.withdraw else f) }) }))).takeTrap t.id tr

/-- The cards that a request's acceptance takes. Those of an ETAIL at level 0 are the slots that follow TAIL now: they are read and checked
again where TAIL has risen since it read them (R291; log 29, DEDUCED). -/
def State.pubCards (s : State) (p : Publication) : State × Except Trap (List (List Word)) :=
  match p.owner, p.site with
  | .chain k ccb, some site =>
    if s.ccbTail ccb = p.start then (s, .ok p.cards)
    else s.etailRead none p.tenant p.ctx p.seg ccb k (s.ccbTail ccb) 0 p.cards.length p.det site
  | _, _ => (s, .ok p.cards)

/-- CARD_ACCEPTANCE (R290, R291). -/
def execCardAcceptance (s : State) : Host.Outcome State Fault Refusal :=
  match s.nextPub [] s.pubs with
  | none => .refused .notDue
  | some p =>
    let r := s.pubCards p
    let s := { r.1 with pubs := r.1.pubs.filter (fun x => x.id != p.id) }
    match r.2 with
    | .ok cards => .next ((cards.foldl (fun s w => s.acceptCard p w) s).endEtail p.id)
    | .error t => .next (s.trapEtail p.id t)

/-! ### Dispatch (R294) -/

/-- ERRPOS of an owner's chain. -/
def State.errPosOf (s : State) : CardOwner → Nat
  | .chain _ ccb => s.ccbErrPos ccb
  | .walker p => ((s.parts[p]?).map (fun (p : Partition) => p.wErrPos.toNat)).getD noFailure
  | .command _ => noFailure

/-- The card's chain has failed at an earlier position (R295). -/
def State.overtaken (s : State) (c : Card) : Bool := decide (s.errPosOf c.owner < c.pos)

/-- A card whose edges are gone and that has not started. -/
def Card.ready (c : Card) : Bool := c.edges.isEmpty && c.engine.isNone

/-- The engines that may run a card (R283, R301, R417, R420). -/
def State.enginesFor (s : State) (c : Card) : List Nat :=
  let cls := (cardClass c.words).getD 0
  match c.owner with
  | .chain _ ccb => s.chainEngines ccb c.tenant
  | _ => (List.range (engineCount cls)).filter (fun e => cls != 3 || s.portFor e c.tenant)

/-- Cards that an engine may run at once (R294). -/
def enginePlaces (cls : Nat) : Nat := if cls = 3 then 8 else 1

/-- An engine of a class has a place (R294). -/
def State.engineIdle (s : State) (cls e : Nat) : Bool :=
  decide ((s.cards.filter (fun c => c.engine == some e && cardClass c.words == some cls)).length < enginePlaces cls)

/-- The engine a card would get: the lowest idle one (R294). -/
def State.engineOf (s : State) (c : Card) : Option Nat := (s.enginesFor c).find? (fun e => s.engineIdle ((cardClass c.words).getD 0) e)

/-- The oldest ready card of a tenant that gets an engine: an older one whose engines are all busy is passed over (R294; log 61, DEDUCED). -/
def State.pickCard (s : State) (ten : Nat) : Option (Card × Nat) :=
  s.cards.findSome? (fun c =>
    if c.tenant == ten && c.ready && !s.overtaken c then (s.engineOf c).map (fun e => (c, e)) else none)

/-- The tenants in round-robin order; the PF follows tenant 15 (R294). -/
def State.tenantOrder (s : State) : List Nat := (List.range 17).map (fun i => (s.engineRR + i) % 17)

/-- Change a card. -/
def State.modCard (s : State) (id : Nat) (f : Card → Card) : State := { s with cards := s.cards.map (fun c => if c.id == id then f c else c) }

/-- CARD_DISPATCH (R294). -/
def execCardDispatch (s : State) : Host.Outcome State Fault Refusal :=
  match s.tenantOrder.findSome? s.pickCard with
  | none => .refused .notDue
  | some (c, e) => .next { (s.modCard c.id (fun c => { c with engine := some e })) with engineRR := (c.tenant + 1) % 17 }

/-! ### Accesses of an engine -/

/-- Why a card does not go on: a fault of translation with its address, or an ERRCODE (R295). -/
inductive CardErr where
  | fault (va : Nat) (e : XErr)
  | code (n : Nat)
  deriving DecidableEq, Repr

/-- The pieces of a span that lie in one 4 KiB page each. -/
def pagePieces : Nat → Nat → Nat → List (Nat × Nat)
  | 0, _, _ => []
  | f + 1, va, n =>
    if n = 0 then []
    else
      let k := min n (4096 - va % 4096)
      (va, k) :: pagePieces f (va + k) (n - k)

/-- The pieces of a span. -/
def spanPieces (va n : Nat) : List (Nat × Nat) := pagePieces (n / 4096 + 2) va n

/-- The place of a card's access and the type of its page. The PF's addresses are physical, and its accesses go past the L2's lines as
those of an UNCACHED page (R286, R295, R417; log 21, DESIGN CHOICE). -/
def State.engPa (s : State) (c : Card) (write : Bool) (va : Nat) : State × Except CardErr (Nat × MemType) :=
  if c.tenant = 16 then (s, if s.hasMemory va then .ok (va, .uncached) else .error (.code 2))
  else
    match s.translate none c.tenant c.ctx va ⟨.engine, write, 8⟩ with
    | (s, .ok r) => (s, .ok r)
    | (s, .error e) => (s, .error (.fault va e))

/-- Read the pieces of a span: committed data, as loads read each page's type; a poisoned word fails (R269, R286, R295). -/
def State.engRead (s : State) (c : Card) : List (Nat × Nat) → State × Except CardErr (List Byte)
  | [] => (s, .ok [])
  | (va, n) :: rest =>
    match s.engPa c false va with
    | (s, .error e) => (s, .error e)
    | (s, .ok (pa, mt)) =>
      let s := s.reach (s.requester c.id) false pa n mt
      if !inAperture pa && s.poisoned pa n then (s, .error (.code 3))
      else
        match s.engRead c rest with
        | (s', .ok l) => (s', .ok (bytesOfNat n (s.physRead pa n) ++ l))
        | r => r

/-- The places of the pieces of a span that is to be written. -/
def State.engPlaces (s : State) (c : Card) : List (Nat × Nat) → State × Except CardErr (List (Nat × MemType × Nat))
  | [] => (s, .ok [])
  | (va, n) :: rest =>
    match s.engPa c true va with
    | (s, .error e) => (s, .error e)
    | (s, .ok (pa, mt)) =>
      match s.engPlaces c rest with
      | (s, .ok l) => (s, .ok ((pa, mt, n) :: l))
      | r => r

/-- Write bytes to their places, as stores do for each page's type (R259, R286). -/
def State.engWrite (s : State) (c : Card) : List (Nat × MemType × Nat) → List Byte → State
  | [], _ => s
  | (pa, mt, n) :: rest, l => (s.committedWrite none c.id 0 pa n (natOfBytes (l.take n)) mt 0).engWrite c rest (l.drop n)

/-! ### The pieces of a card (R287, R304) -/

/-- Where the bytes of a piece come from: memory, the pattern of a FILL, what the link brought, or the sum of memory and that. -/
inductive PieceSrc where
  | mem (va : Nat)
  | pattern
  | link
  | sum
  deriving DecidableEq, Repr

/-- A piece of a card's work: its source, the address it writes (none for a send), its length. -/
structure Piece where
  src : PieceSrc
  dst : Option Nat
  len : Nat
  deriving DecidableEq, Repr

/-- The bytes a card moves in all (R287). -/
def cardBytes (w : List Word) : Nat :=
  let op := cardOp w
  if op = 0x03 then natBits (cardArg0 w) 31 0 * natBits (cardArg0 w) 63 32
  else if op = 0x10 then (cardRegion w 2).len
  else if op = 0x11 then (cardRegion w 1).len
  else (cardRegion w 0).len

/-- The size of an element of a QRECVADD. -/
def addSize (w : List Word) : Nat := if cardArg1 w = 1 then 2 else 4

/-- The next piece of a card that has moved some bytes: within one row or element, and within one 32-byte sector of its destination, or
one element of a QRECVADD (R287, R304; log 21, DESIGN CHOICE). -/
def Card.piece (c : Card) : Piece :=
  let w := c.words
  let r := fun j => (cardRegion w j).base
  let op := cardOp w
  let k := c.moved
  let into := fun (src : PieceSrc) (dst left : Nat) => ({ src := src, dst := some dst, len := min left (32 - dst % 32) } : Piece)
  let at_ := fun i => (c.ix.getD []).getD i 0
  let e := cardArg0 w
  if op = 0x01 then into (.mem (r 0 + k)) (r 1 + k) (cardBytes w - k)
  else if op = 0x02 then into .pattern (r 0 + k) (cardBytes w - k)
  else if op = 0x03 then
    let b := natBits e 31 0
    into (.mem (r 0 + k / b * natBits (cardArg1 w) 31 0 + k % b)) (r 1 + k / b * natBits (cardArg1 w) 63 32 + k % b) (b - k % b)
  else if op = 0x10 then into (.mem (r 1 + at_ (k / e) * e + k % e)) (r 2 + k) (e - k % e)
  else if op = 0x11 then into (.mem (r 1 + k)) (r 2 + at_ (k / e) * e + k % e) (e - k % e)
  else if op = 0x20 then { src := .mem (r 0 + k), dst := none, len := min (cardBytes w - k) (32 - (r 0 + k) % 32) }
  else if op = 0x21 then into .link (r 0 + k) (cardBytes w - k)
  else { src := .sum, dst := some (r 0 + k), len := min (cardBytes w - k) (addSize w) }

/-- x + y of an element of QRECVADD, rounded to nearest even, a NaN canonical (R304). Bytes past the last whole element stay. -/
def addElem (f : Fmt) (x y : List Byte) : List Byte :=
  if x.length ≠ f.width / 8 then x
  else bytesOfNat x.length (({ f := f, mode := 0, rv := 0, ftz := false } : RCtx).add (f.input false (natOfBytes x)) (f.input false (natOfBytes y))).1

/-- What a card's engine comes to at one piece. -/
inductive Work where
  /-- it waits: for its send to be matched, or for a send that matches it -/
  | waits
  | going (s : State)
  /-- every byte is moved -/
  | over (s : State)
  | fails (s : State) (e : CardErr)

/-- A receive matches the oldest unmatched send of its tag that has arrived on its port (R304). -/
def State.matchSend (s : State) (c : Card) (port : Nat) : Work :=
  match (s.quay[port]?).bind (fun q => q.arrived.find? (fun a => a.1 == natBits (cardArg0 c.words) 31 0)) with
  | none => .waits
  | some a =>
    let s : State := { s with quay := listModify s.quay port (fun q => { q with arrived := q.arrived.erase a }) }
    if a.2.length ≠ cardBytes c.words then .fails s (.code 4)
    else .going (s.modCard c.id (fun c => { c with link := some a.2 }))

/-- The engine of a gather or scatter reads its index words; one that reaches outside the table fails the card (R287, R295). -/
def State.readIndices (s : State) (c : Card) : Work :=
  let r := cardRegion c.words 0
  let e := cardArg0 c.words
  let table := (cardRegion c.words (if cardOp c.words = 0x10 then 1 else 2)).len
  match s.engRead c (spanPieces r.base r.len) with
  | (s, .error x) => .fails s x
  | (s, .ok l) =>
    let ix := (List.range (r.len / 4)).map (fun i => natOfBytes ((l.drop (4 * i)).take 4))
    if ix.all (fun i => decide (i * e + e ≤ table)) then .going (s.modCard c.id (fun c => { c with ix := some ix })) else .fails s (.code 1)

/-- The engine makes one piece: its addresses are translated, its data is read, and then it is written (R286, R295). -/
def State.makePiece (s : State) (c : Card) : Work :=
  let p := c.piece
  let reads := match p.src with
    | .mem va => spanPieces va p.len
    | .sum => spanPieces (p.dst.getD 0) p.len
    | _ => []
  match s.engRead c reads with
  | (s, .error x) => .fails s x
  | (s, .ok x) =>
    let y := ((c.link.getD []).drop c.moved).take p.len
    let bytes := match p.src with
      | .mem _ => x
      | .pattern => (List.range p.len).map (fun i => BitVec.ofNat 8 (natBits (cardArg0 c.words) 31 0 / 2 ^ (8 * ((c.moved + i) % 4))))
      | .link => y
      | .sum => addElem (if cardArg1 c.words = 1 then bf16 else fp32) x y
    match s.engPlaces c (match p.dst with
        | some va => spanPieces va p.len
        | none => []) with
    | (s, .error x) => .fails s x
    | (s, .ok places) => .going ((s.engWrite c places bytes).modCard c.id (fun c => { c with moved := c.moved + p.len }))

/-- What a running card's engine does next (R287, R294, R304). A send waits, once its bytes have left, until the peer's receive has taken
them. A card that begins while its port's link is down runs like any other, until the link next goes down (log 22, DESIGN CHOICE). -/
def State.engineStep (s : State) (c : Card) (engine : Nat) : Work :=
  let op := cardOp c.words
  if (op = 0x21 || op = 0x22) && c.link.isNone then s.matchSend c engine
  else if (op = 0x10 || op = 0x11) && c.ix.isNone then s.readIndices c
  else if c.moved < cardBytes c.words then s.makePiece c
  else if op = 0x20 && !c.taken then .waits
  else .over s

/-- A card's engine goes on until it waits, fails or has moved every byte; it moves one byte at least in every piece. -/
def State.engineRun : Nat → State → Nat → Nat → Work
  | 0, _, _, _ => .waits
  | n + 1, s, card, engine =>
    match s.cards.find? (fun c => c.id == card) with
    | none => .waits
    | some c =>
      match s.engineStep c engine with
      | .going s => State.engineRun n s card engine
      | w => w

/-! ### Completion and failure (R295, R298) -/

/-- Write SEQ of an owner's chain, a tenant's (R284, R298). -/
def State.putSeq (s : State) (ten : Nat) (o : CardOwner) : State :=
  let n := s.seqOf o (s.tailOf o)
  match o with
  | .chain _ ccb => (s.locWrite ten ccb 24 8 n).endAllWaits
  | .walker p => s.modPart p (fun p => { p with wSeq := n })
  | .command _ => s

/-- A card leaves the scheduler, its writes being there for all: the cards that waited for it, SEQ, and its node or command follow (R259,
R293, R294, R298, R300, R412). -/
def State.completeCard (s : State) (c : Card) (code : Nat) : State :=
  let s := s.drainWc (WcEntry.ofTeam c.id)
  let rest := (s.cards.filter (fun x => x.id != c.id)).map (fun (x : Card) => { x with edges := x.edges.filter (· != c.id) })
  let s := ({ s with cards := rest } : State).putSeq c.tenant c.owner
  match c.owner with
  | .command cmd => s.finishCmd cmd (if code = 0 then 0 else if code = 3 then 9 else 8) (if code = 0 then 0 else if code = 3 then 3 else 2)
  | .walker p => (match c.node with
    | some n => s.modPart p (fun p => p.nodeDone n.1 n.2 (code == 0))
    | none => s)
  | .chain .. => s

/-- Record the first failure of a chain, and signal the tenant (R283, R295, R301). -/
def State.noteFailure (s : State) (o : CardOwner) (ten pos code : Nat) : State :=
  let s := if s.errPosOf o ≠ noFailure then s
    else match o with
      | .chain _ ccb => (s.locWrite ten ccb 32 8 pos).locWrite ten ccb 40 1 code
      | .walker p => s.modPart p (fun p => { p with wErrPos := BitVec.ofNat 64 pos, wErrCode := code })
      | .command _ => s
  match o with
  | .command _ => s
  | _ => s.signalVec (.vf ten) 7

/-- A card fails with an ERRCODE and completes (R295). -/
def State.failCard (s : State) (c : Card) (code : Nat) : State := (s.noteFailure c.owner c.tenant c.pos code).completeCard c code

/-- The fault record of an engine access (R350). -/
def Card.faultBytes (c : Card) (va : Nat) (e : XErr) : List Byte :=
  let b := bytesOfNat
  let ch := match c.owner with
    | .chain k _ => k % 16 * 2 ^ 8
    | .walker _ => 2 ^ 12
    | .command _ => 0
  b 4 clsXlate ++ b 4 (c.tenant % 256 + 2 ^ 8 * c.part + 2 ^ 16 * c.ctx) ++ b 8 c.pos ++ b 4 (0xFE + ch) ++ List.replicate 20 0 ++ b 8 va
  ++ List.replicate 12 0 ++ b 4 (e.word .engine).toNat

/-- A card meets an error: a fault of reason 0 holds it and is reported; a command's fails it at once, as any other error does (R295,
R350, R412). -/
def State.cardError (s : State) (c : Card) (e : CardErr) : State :=
  match e with
  | .code n => s.failCard c n
  | .fault va x =>
    match x.served, c.owner with
    | none, _ => s.failCard c 2
    | _, .command _ => s.failCard c 2
    | some stage, _ => (s.modCard c.id (fun c => { c with held := some stage })).pushReport (reportTo c.tenant (some stage)) (c.faultBytes va x)

/-- What follows for a card: its engine waits, goes on, has moved every byte, or has failed. -/
def Work.outcome (w : Work) (c : Card) : Option State :=
  match w with
  | .waits => none
  | .going s => some s
  | .over s => some (s.completeCard c 0)
  | .fails s x => some (s.cardError c x)

/-- The engine of a running card that no fault holds. -/
def Card.runs (c : Card) : Option Nat := if c.held.isSome then none else c.engine

/-- An engine makes the next piece of a card (R294; log 21, DESIGN CHOICE). -/
def State.enginePiece (s : State) (card : Nat) : Option State :=
  (s.cards.find? (fun c => c.id == card)).bind (fun c => c.runs.bind (fun e => (s.engineStep c e).outcome c))

/-- CARD_COMPLETION: a running card moves what is left and finishes, or a ready one that its chain's failure overtook completes without
effect (R295, R298). -/
def execCardCompletion (card : Nat) (s : State) : Host.Outcome State Fault Refusal :=
  match s.cards.find? (fun c => c.id == card) with
  | none => .refused .notDue
  | some c =>
    match c.engine with
    | none => if c.ready && s.overtaken c then .next (s.completeCard c 0) else .refused .notDue
    | some _ =>
      match c.runs.bind (fun e => (State.engineRun (cardBytes c.words + 4) s card e).outcome c) with
      | some s => .next s
      | none => .refused .notDue

/-! ### Quay links (R304, R420) -/

/-- Change a port. -/
def State.modPort (s : State) (q : Nat) (f : QuayPort → QuayPort) : State := { s with quay := listModify s.quay q f }

/-- The link of a port is up. -/
def State.portUp (s : State) (q : Nat) : Bool := ((s.quay[q]?).map (·.up)).getD false

/-- QUAY_SEND_ARRIVAL: a send of the peer has arrived (R304; log 22, DESIGN CHOICE). -/
def execQuaySendArrival (port tag : Nat) (bytes : List Byte) (s : State) : Host.Outcome State Fault Refusal :=
  if s.portUp port && decide (tag < 2 ^ 32) then .next (s.modPort port (fun p => { p with arrived := p.arrived ++ [(tag, bytes)] }))
  else .refused .notDue

/-- The peer's receive of a tag and length matches the oldest send of that tag that has left and is not matched: it has written every byte,
or, where the lengths differ, the send fails with ERRCODE 4 (R304; log 22, DESIGN CHOICE). -/
def State.quayTaken (s : State) (port tag len : Nat) : State :=
  match s.cards.find? (fun c => c.runs == some port && cardOp c.words == 0x20 && !c.taken && c.moved == cardBytes c.words
      && natBits (cardArg0 c.words) 31 0 == tag) with
  | none => s
  | some c => if len = cardBytes c.words then s.modCard c.id (fun c => { c with taken := true }) else s.failCard c 4

/-- QUAY_LINK_DOWN: every running card of the port fails with ERRCODE 5 (R304, R420). -/
def execQuayLinkDown (port : Nat) (s : State) : Host.Outcome State Fault Refusal :=
  if !s.portUp port then .refused .notDue
  else
    let s := s.modPort port (fun p => { p with up := false, arrived := [] })
    let hit := s.cards.filter (fun c => c.engine == some port && cardClass c.words == some 3)
    .next (hit.foldl (fun s c => s.failCard c 5) s)

/-- QUAY_LINK_UP: training ends (R420). -/
def execQuayLinkUp (port : Nat) (s : State) : Host.Outcome State Fault Refusal :=
  if s.portUp port || decide (2 ≤ port) then .refused .notDue else .next (s.modPort port (fun p => { p with up := true }))

end Sys2Proof.Machine
end

