-- ==== Sys2Proof/Machine/Queues.lean ====
section
/-!
DEFINITION. Queues, berths and commands: the QCB (R411), the command record (R412, R413), the acceptance of commands (R418, R417), Pilot's
berth decisions (R419), and the completion of commands (R412).
-/
namespace Sys2Proof.Machine

/-! ### The queue control block (R411) -/

/-- QCBADDR of a queue (R410). -/
def State.qcbAddr (s : State) (fn : Fn) (q : Nat) : Nat := bitsOf ((s.fnRegs fn).qcb.get q) 45 6 * 64

/-- The physical address of a queue's QCB; none where there is no queue, or its address does not translate. -/
def State.qcbPa (s : State) (fn : Fn) (q : Nat) : Option Nat :=
  if s.qcbAddr fn q = 0 then none else s.fnPa fn (s.qcbAddr fn q) true

/-- A queue as its QCB says. -/
structure Qcb where
  pa : Nat
  ring : Nat
  size : Nat
  prio : Nat
  part : Nat
  ctx : Nat
  tail : Nat
  head : Nat
  passed : Nat
  deriving DecidableEq, Repr

/-- Read a QCB (R411). -/
def State.qcb (s : State) (fn : Fn) (q : Nat) : Option Qcb :=
  (s.qcbPa fn q).map (fun pa =>
    { pa := pa, ring := natBits (s.physRead pa 8) 45 12 * 2 ^ 12, size := 2 ^ (natBits (s.physRead (pa + 8) 1) 3 0 + 4),
      prio := min (natBits (s.physRead (pa + 8) 1) 7 4) 7, part := natBits (s.physRead (pa + 9) 1) 4 0, ctx := s.physRead (pa + 10) 2,
      tail := s.physRead (pa + 16) 4, head := s.physRead (pa + 20) 4, passed := s.physRead (pa + 24) 1 })

/-- A queue has records that Pilot has not accepted. -/
def Qcb.work (q : Qcb) (tail : Nat) : Bool := tail != q.head

/-! ### Command records (R412, R413) -/

/-- Word k of a record. -/
def recWord (w : List Word) (k : Nat) : Nat := (w.getD k 0).toNat

/-- The fields of a record. -/
def recOpcode (w : List Word) : Nat := natBits (recWord w 0) 7 0
def recIrq (w : List Word) : Bool := natBits (recWord w 0) 8 8 == 1
def recAfter (w : List Word) : Bool := natBits (recWord w 0) 9 9 == 1
def recVec (w : List Word) : Nat := natBits (recWord w 0) 23 16
def recArg (w : List Word) (k : Nat) : Nat := recWord w (2 + 2 * k) + 2 ^ 32 * recWord w (3 + 2 * k)
def recDoneAddr (w : List Word) : Nat := recArg w 3
def recDoneVal (w : List Word) : Nat := recArg w 4

/-- Opcodes that a queue of a function takes (R413, R417). -/
def opcodeAllowed (fn : Fn) (q op : Nat) : Bool :=
  match fn with
  | .pf => [0x03, 0x0C, 0x20, 0x21, 0x22].contains op
  | .vf _ => decide (1 ≤ op) && decide (op ≤ 0x0C) && (op != 2 || q == 0)

/-- A record whose reserved fields are zero, its vector and DONEADDR legal (R412). -/
def recOk (w : List Word) : Bool :=
  natBits (recWord w 0) 15 10 == 0 && natBits (recWord w 0) 31 24 == 0 && recWord w 1 == 0 && decide (recVec w < 8)
  && recDoneAddr w % 16 == 0 && [12, 13, 14, 15].all (fun k => recWord w k == 0)

/-- The 16 words at a physical address. -/
def State.readWords (s : State) (pa n : Nat) : List Word := (List.range n).map (fun k => BitVec.ofNat 32 (s.physRead (pa + 4 * k) 4))

/-- The address of a queue's next record (R411). -/
def State.recordPa (s : State) (fn : Fn) (c : Qcb) : Option Nat := s.fnPa fn (c.ring + 64 * (c.head % c.size)) false

/-- The next record of a queue, where one is ready under R412: it translates, and an AFTER record follows no running one. -/
def State.readyRecord (s : State) (fn : Fn) (q tail : Nat) : Option (Qcb × List Word) :=
  match s.qcb fn q with
  | none => none
  | some c =>
    if !c.work tail then none
    else
      match s.recordPa fn c with
      | none => none
      | some pa =>
        let w := s.readWords pa 16
        if recAfter w && s.cmds.any (fun x => x.fn == fn && x.queue == q && (x.pos + 1) % 2 ^ 32 == c.head) then none else some (c, w)

/-- Accept a record: HEAD rises, and a command runs, or is done with code 7 (R411-R413). -/
def State.acceptRecord (s : State) (fn : Fn) (q part : Nat) (c : Qcb) (w : List Word) : State :=
  let cmd : Command :=
    { id := s.nextId, fn := fn, queue := q, part := part, ctx := c.ctx, pos := c.head, words := w,
      code := if recOk w && opcodeAllowed fn q (recOpcode w) then none else some 7 }
  let s := { s with cmds := s.cmds ++ [cmd], nextId := s.nextId + 1 }
  let s := ((s.recordPa fn c).map (fun pa => s.fnRead fn pa 64)).getD s
  s.fnWrite fn (c.pa + 20) 4 ((c.head + 1) % 2 ^ 32)

/-! ### Acceptance (R417, R418) -/

/-- Change a berth. -/
def State.modBerth (s : State) (b : Nat) (f : Berth → Berth) : State := { s with berths := listModify s.berths b f }

/-- A partition holds a berth. -/
def Partition.hasBerth (p : Partition) (b : Nat) : Bool := (p.berth.getD (b / 32) 0).getLsbD (b % 32)

/-- A partition that has started (R408). -/
def Partition.started (p : Partition) : Bool := p.en && !p.busy

/-- The ready record of a berth. -/
def State.berthReady (s : State) (b : Nat) : Option (Nat × Nat × Qcb × List Word) :=
  (s.berths[b]?).bind (fun k => k.queue.bind (fun q => (s.readyRecord (.vf q.1) q.2 k.tail).map (fun r => (q.1, q.2, r.1, r.2))))

/-- A pending bit of a function's queue is cleared. -/
def State.clearPending (s : State) (fn : Fn) (q : Nat) : State := s.modFn fn (fun r => { r with pending := r.pending.filter (· != q) })

/-- COMMAND_ACCEPTANCE: from the berths of a partition in round robin, or from the PF's queues in ascending number (R417, R418). -/
def execCommandAcceptance (src : CmdSource) (s : State) : Host.Outcome State Fault Refusal :=
  match src with
  | .berths part =>
    match s.parts[part]? with
    | none => .refused .notDue
    | some p =>
      if !p.started then .refused .notDue
      else
        let order := ((List.range 64).map (fun i => (p.rr + 1 + i) % 64)).filter p.hasBerth
        match order.findSome? (fun b => (s.berthReady b).map (fun r => (b, r))) with
        | none => .refused .notDue
        | some (b, t, q, c, w) =>
          .next (((s.acceptRecord (.vf t) q part c w).modPart part (fun p => { p with rr := b })).modBerth b (fun k =>
            { k with accepted := k.accepted + 1 }))
  | .pfQueues =>
    let order := (List.range 256).map (fun i => (s.pfNext + i) % 256)
    let ready := fun q =>
      if s.pfRegs.pending.contains q then
        (s.qcb .pf q).bind (fun c => (s.readyRecord .pf q c.tail).map (fun r => (q, r)))
      else none
    let idle := s.pfRegs.pending.find? (fun q => (s.qcb .pf q).any (fun c => !c.work c.tail))
    match order.findSome? ready, idle with
    | none, none => .refused .notDue
    | none, some q => .next (s.clearPending .pf q)
    | some (q, c, w), _ =>
      let s := { (s.acceptRecord .pf q 0 c w) with pfNext := (q + 1) % 256 }
      .next (if (c.head + 1) % 2 ^ 32 = c.tail then s.clearPending .pf q else s)

/-! ### Berth decisions (R419) -/

/-- The partition that holds a berth. -/
def State.partOfBerth (s : State) (b : Nat) : Option (Nat × Partition) :=
  (s.parts.zipIdx.find? (fun p => p.1.started && p.1.hasBerth b)).map (fun p => (p.2, p.1))

/-- A queue stands on some berth. -/
def State.mapped (s : State) (t q : Nat) : Bool := s.berths.any (fun b => b.queue == some (t, q))

/-- The unmapped queues of a partition, with their QCBs. -/
def State.unmapped (s : State) (part : Nat) (p : Partition) : List (Nat × Qcb) :=
  if !((s.tenants[p.owner]?).map (fun (t : Tenant) => t.en)).getD false then []
  else ((List.range 256).filter (fun q => (s.fnRegs (.vf p.owner)).qcb.any (fun e => e.1 == q) && !s.mapped p.owner q)).filterMap (fun q =>
    (s.qcb (.vf p.owner) q).bind (fun c => if c.part = part then some (q, c) else none))

/-- The effective priority of a candidate (R419). -/
def Qcb.priority (c : Qcb) : Nat := min (c.prio + c.passed / 8) (c.prio + 4)

/-- The order of the choice: effective priority, PASSED, the current queue, the lowest number (R419). -/
def berthKey (current : Option Nat) (x : Nat × Qcb) : Nat :=
  (32 - x.2.priority) * 2 ^ 20 + (255 - x.2.passed) * 2 ^ 10 + (if current = some x.1 then 0 else 1) * 2 ^ 9 + x.1

/-- Write PASSED into a QCB (R411). -/
def State.putPassed (s : State) (fn : Fn) (c : Qcb) (n : Nat) : State := s.fnWrite fn (c.pa + 24) 1 (min n 255)

/-- Clear a bit of a partition's berth mask. -/
def Partition.dropBerth (p : Partition) (b : Nat) : Partition :=
  { p with berth := listModify p.berth (b / 32) (fun w => w &&& ~~~(BitVec.ofNat 32 (2 ^ (b % 32)))), leaving := p.leaving.filter (· != b) }

/-- BERTH_DECISION: a berth that is to leave is unmapped (R408); else Pilot chooses among the candidates (R416, R419). -/
def execBerthDecision (b : Nat) (s : State) : Host.Outcome State Fault Refusal :=
  match s.partOfBerth b, s.berths[b]? with
  | some (part, p), some k =>
    if p.leaving.contains b then .next ((s.modBerth b (fun _ => {})).modPart part (fun p => p.dropBerth b)) else
    let fn : Fn := .vf p.owner
    let free := s.unmapped part p
    let waiting := free.filter (fun x => x.2.work x.2.tail)
    let idle := (free.filter (fun x => !x.2.work x.2.tail && (s.fnRegs fn).pending.contains x.1)).map (·.1)
    let cur := k.queue.bind (fun q => (s.qcb fn q.2).bind (fun c => if c.work k.tail then some (q.2, c) else none))
    let due := decide (cur.isNone || 8 ≤ k.accepted)
    if !due || (waiting.isEmpty && idle.isEmpty) then .refused .notDue
    else
      let s := idle.foldl (fun s q => s.clearPending fn q) s
      let cands := cur.toList ++ waiting
      match waiting, minBy (berthKey (cur.map (·.1))) cands with
      | [], _ => .next s
      | _, none => .next s
      | _, some (q, c) =>
        let s := cands.foldl (fun s x => s.putPassed fn x.2 (if x.1 = q then 0 else x.2.passed + 1)) s
        let tail := if cur.map (·.1) = some q then k.tail else c.tail
        .next ((s.modBerth b (fun _ => { queue := some (p.owner, q), tail := tail, accepted := 0 })).clearPending fn q)
  | _, _ => .refused .notDue

/-! ### Completion (R412) -/

/-- Write n bytes at an intermediate address of a function, which may go on into the next page; nothing, where one of its pages does not
translate (R409, R412; log 43, DEDUCED). -/
def State.fnStore (s : State) (fn : Fn) (a n x : Nat) : State :=
  let cut := min n (4096 - a % 4096)
  match s.fnPa fn a true, s.fnPa fn (a + n - 1) true with
  | some pa, some last =>
    let s := s.fnWrite fn pa cut x
    if cut < n then s.fnWrite fn (last + 1 - (n - cut)) (n - cut) (x / 2 ^ (8 * cut)) else s
  | _, _ => s

/-- COMMAND_COMPLETION: the status word, DONEVAL and the vector (R412). -/
def execCommandCompletion (cmd : Nat) (s : State) : Host.Outcome State Fault Refusal :=
  match s.cmds.find? (fun c => c.id == cmd) with
  | none => .refused .notDue
  | some c =>
    match c.code with
    | none => .refused .notDue
    | some code =>
      let data := (c.result.getD 0 0).toNat
      let s := { s with cmds := s.cmds.filter (fun x => x.id != cmd) }
      let s := if recDoneAddr c.words = 0 then s
        else (s.fnStore c.fn (recDoneAddr c.words + 8) 8 (code + 2 ^ 32 * data)).fnStore c.fn (recDoneAddr c.words) 8 (recDoneVal c.words)
      .next (if recIrq c.words then s.signalVec c.fn (recVec c.words) else s)

/-- The command an event runs: accepted, not started, of an opcode (R413). -/
def State.cmdOf (s : State) (cmd op : Nat) : Option Command :=
  s.cmds.find? (fun c => c.id == cmd && c.code.isNone && !c.started && recOpcode c.words == op)

/-- The tenant whose command it is; 16 for the PF. -/
def Command.tenant (c : Command) : Nat :=
  match c.fn with
  | .pf => 16
  | .vf t => t

end Sys2Proof.Machine
end

