-- ==== Sys2Proof/Machine/Launch.lean ====
section
/-!
DEFINITION. The launcher: launch records (R414), kernel headers and their checks (R75, R76, R80, R121, R383), and the grid they start.
-/
namespace Sys2Proof.Machine

/-- Pilot reads the pieces of a span of virtual addresses of a tenant's context; none where one does not translate (R402, R413). -/
def State.readPieces (s : State) (ten ctx : Nat) : List (Nat × Nat) → State × Option (List Byte)
  | [] => (s, some [])
  | (va, n) :: rest =>
    match s.translate none ten ctx va ⟨.load, false, 1⟩ with
    | (s, .error _) => (s, none)
    | (s, .ok (pa, mt)) =>
      let r := (s.reach (.vf ten) false pa n mt).readPieces ten ctx rest
      (r.1, r.2.map (fun l => bytesOfNat n (s.physRead pa n) ++ l))

/-- Pilot reads bytes at a virtual address of a tenant's context (R413). -/
def State.readVa (s : State) (ten ctx va n : Nat) : State × Option (List Byte) := s.readPieces ten ctx (spanPieces va n)

/-- The little-endian field of some bytes at an offset. -/
def fieldAt (l : List Byte) (off n : Nat) : Nat := natOfBytes ((l.drop off).take n)

/-! ### Launch records (R414) -/

/-- A launch record. -/
structure LaunchRec where
  image : Nat
  nteam : Nat
  localLim : Nat
  localBase : Nat
  cardBase : Nat
  cardLim : Nat
  args : List Word
  deriving DecidableEq, Repr

/-- Read a launch record; none where it is malformed (R414). -/
def launchRec (l : List Byte) : Option LaunchRec :=
  let r : LaunchRec :=
    { image := fieldAt l 0 8, nteam := fieldAt l 8 4, localLim := fieldAt l 12 4, localBase := fieldAt l 16 8, cardBase := fieldAt l 24 8,
      cardLim := fieldAt l 32 8, args := (List.range 8).map (fun k => BitVec.ofNat 32 (fieldAt l (40 + 4 * k) 4)) }
  if r.nteam = 0 || r.localLim % 16 ≠ 0 || fieldAt l 72 56 ≠ 0 then none else some r

/-! ### Headers (R75) -/

/-- A segment template: BASE, LIMIT, KIND (R75). -/
def segTemplate (l : List Byte) (k : Nat) : Nat × Nat × Nat :=
  (fieldAt l (0x50 + 16 * k) 8, natBits (fieldAt l (0x58 + 16 * k) 8) 52 0, natBits (fieldAt l (0x58 + 16 * k) 8) 63 60)

/-- The fields of a header that the machine goes on using (R75). -/
def headerOf (l : List Byte) : Header :=
  let flags := fieldAt l 8 4
  let nroles := fieldAt l 0x0F 1
  let roles := (List.range nroles).map (fun k =>
    ({ groups := fieldAt l (0x20 + 4 * k) 1, vbudget := fieldAt l (0x21 + 4 * k) 1, reserve := (fieldAt l 0x34 4).testBit k } : Role))
  { roles := roles, wreq := fieldAt l 0x0E 1, level := natBits flags 3 2, det := flags.testBit 1, compat16 := flags.testBit 0,
    isaMinor := fieldAt l 4 1, vfall := flags.testBit 4, taskfoot := fieldAt l 0x38 4, entry := fieldAt l 0x10 4, mstream := fieldAt l 0x14 4, jrhandler := fieldAt l 0x30 4,
    pb1 := fieldAt l 0x18 2, pb2 := fieldAt l 0x1A 2, pb3 := fieldAt l 0x1C 2 }

/-- The reserved bits of a header are zero, and its magic stands (R75). -/
def headerWords (l : List Byte) : Bool :=
  let n := fieldAt l 0x0F 1
  fieldAt l 0 4 == 0x314B5356 && fieldAt l 6 2 == 0 && decide (fieldAt l 8 4 < 32) && fieldAt l 0x1E 2 == 0
  && (List.range 4).all (fun k => fieldAt l (0x22 + 4 * k) 2 == 0 && (decide (k < n) || fieldAt l (0x20 + 4 * k) 4 == 0))
  && decide (fieldAt l 0x34 4 < 16) && fieldAt l 0x3E 2 == 0 && fieldAt l 0x48 8 == 0
  && (List.range 8).all (fun k => natBits (fieldAt l (0x58 + 16 * k) 8) 59 53 == 0 && decide ((segTemplate l k).2.1 ≤ 2 ^ 52))
  && fieldAt l 0xD0 48 == 0

/-- The templates have the kinds they may have (R76). -/
def templatesOk (l : List Byte) : Bool :=
  (List.range 8).all (fun k =>
    let t := segTemplate l k
    let kinds := if k = 1 || k = 4 then [3] else if k = 5 then [2] else if k = 3 then [0, 1, 2] else [0, 1]
    kinds.contains t.2.2 && (decide (t.2.2 < 2) || (t.1 == 0 && t.2.1 == 0)))

/-- The end of the image: that of the constant data, which comes last and which the CONST template covers, be it empty, where that template is
relative to the image (R73, R74, R77; log 56, DEDUCED); else neither header nor launch record names it, and what the launcher takes it for is
a free value (R76; log 56, DESIGN CHOICE). -/
def imageEnd (l : List Byte) : Nat :=
  let t := segTemplate l 2
  if t.2.2 = 1 && decide (0x100 ≤ t.1) then t.1 + t.2.1 else Config.imageEnd l

/-- An offset of code of n bytes that lies past the header, inside the image, aligned (R74, R76). -/
def codeOffset (l : List Byte) (x n : Nat) : Bool := decide (0x100 ≤ x) && x % n == 0 && decide (x + n ≤ imageEnd l)

/-- The constraints of R76 but for the quota, and the ranges that R75 gives the fields. That a field out of its range, or a JRRESERVE bit of a
role at or beyond NROLES, is refused with the code of R76 is the model's reading (log 39, DEDUCED). -/
def headerOk (l : List Byte) : Bool :=
  let h := headerOf l
  let sum := (h.roles.map (·.groups)).sum
  let n := h.roles.length
  let reserves := fieldAt l 0x34 4
  headerWords l && templatesOk l && decide (1 ≤ n) && decide (n ≤ 4)
  && fieldAt l 0x0C 2 == h.wreq * sum && decide (1 ≤ sum) && decide (sum ≤ 48) && decide (fieldAt l 0x0C 2 ≤ 1536)
  && [16, 32, 64, 96].contains h.wreq && (h.wreq == 16) == h.compat16
  && h.roles.all (fun r => decide (2 ≤ r.vbudget) && decide (r.vbudget ≤ 32) && (!r.reserve || (decide (4 ≤ r.vbudget) && h.jrhandler != 0)))
  && decide (reserves < 2 ^ n)
  && decide (h.pb1 ≤ h.pb2) && decide (h.pb2 < h.pb3) && decide (h.pb3 < 2048) && h.pb1 % 32 == 0 && h.pb2 % 32 == 0
  && decide (h.pb2 - h.pb1 ≤ 1536) && h.pb3 % 4 == 0
  && (h.level == 0 || h.taskfoot != 0)
  && codeOffset l h.entry 4 && (h.mstream == 0 || codeOffset l h.mstream 8) && (h.jrhandler == 0 || codeOffset l h.jrhandler 4)

/-- The ISA version is one that loads unchanged (R80). A 2.x image is translated before it reaches the launcher. R80's row "3.3 and above" is
read as the minors of major 3: a major of 4 or more is "any other", and refused (log 39, DEDUCED). -/
def versionOk (l : List Byte) : Bool :=
  let major := fieldAt l 5 1
  let minor := fieldAt l 4 1
  major == 3 && (decide (minor ≤ 2) || fieldAt l 0x30 4 != 0)

/-- ILPOL and the slots of the partition allow the level (R382, R383). -/
def State.levelOk (s : State) (ten part level : Nat) : Bool :=
  decide (level < 3) && (((s.tenants[ten]?).map (fun (t : Tenant) => t.ilpol)).getD 0).getLsbD level
  && (level != 2 || (List.range 24).any (fun j => ((s.parts[part]?).map (fun (p : Partition) => p.hasSlot j)).getD false && !s.isSpare ten j))

/-- The code of the first check that a launch breaks; none where it is accepted (R76, R80, R121, R383, R412). -/
def State.launchCheck (s : State) (ten part : Nat) (l : List Byte) : Option Nat :=
  let h := headerOf l
  let w := if h.compat16 then 16 else 32
  if !versionOk l then some 5
  else if !headerOk l then some 1
  else if !s.levelOk ten part h.level then some 3
  else if ((s.tenants[ten]?).map (fun (t : Tenant) => t.verq)).getD 0 < h.taskfoot then some 4
  else if h.pb1 * 1024 < h.bytesAt w || 48 < h.groupsAt w then some 2
  else none

/-- Segment k of a launch (R77). CARDLIM has 64 bits and LIMIT 53: the bits above are dropped (log 52, DESIGN CHOICE). -/
def launchSeg (l : List Byte) (r : LaunchRec) (k : Nat) : Seg :=
  let t := segTemplate l k
  if t.2.2 = 2 then
    (if k = 3 then { base := BitVec.ofNat 64 r.localBase, limit := r.localLim } else { base := BitVec.ofNat 64 r.cardBase, limit := r.cardLim % 2 ^ 53 })
  else { base := BitVec.ofNat 64 (t.1 + (if t.2.2 = 1 then r.image else 0)), limit := t.2.1 }

/-- Launch from a record at a virtual address: the code of a refusal, or nothing and the state has the grid (R206, R412-R414). -/
def State.launchAt (s : State) (ten part ctx va : Nat) (sys : Bool) (command : Option Nat) (node : Option (Nat × Nat)) : State × Option Nat :=
  match s.readVa ten ctx va 128 with
  | (s, none) => (s, some 8)
  | (s, some rl) =>
    match launchRec rl with
    | none => (s, some 7)
    | some r =>
      match s.readVa ten ctx r.image 256 with
      | (s, none) => (s, some 8)
      | (s, some l) =>
        match s.launchCheck ten part l with
        | some code => (s, some code)
        | none =>
          let g : Grid :=
            { id := s.nextId, serial := s.gridSerial, tenant := ten, part := part, ctx := ctx, hdr := headerOf l, image := BitVec.ofNat 64 r.image,
              seed := BitVec.ofNat 64 (fieldAt l 0x40 8), args := r.args, segT := (List.range 8).map (launchSeg l r), teams := r.nteam,
              command := command, node := node, sys := sys }
          ({ s with grids := s.grids ++ [g], nextId := s.nextId + 1, gridSerial := s.gridSerial + 1 }, none)

/-- Run a LAUNCH or SYSLAUNCH command (R413). -/
def State.runLaunch (s : State) (c : Command) (sys : Bool) : State :=
  match s.launchAt c.tenant c.part c.ctx (recArg c.words 0) sys (some c.id) none with
  | (s, some code) => s.finishCmd c.id code 0
  | (s, none) => s.modCmd c.id (fun c => { c with started := true })

/-- LAUNCH (R413). -/
def execLaunch (cmd : Nat) (s : State) : Host.Outcome State Fault Refusal :=
  match s.cmdOf cmd 0x01 with
  | none => .refused .notDue
  | some c => .next (s.runLaunch c false)

/-- SYSLAUNCH: a system launch, on queue 0 only (R364, R413). -/
def execSyslaunch (cmd : Nat) (s : State) : Host.Outcome State Fault Refusal :=
  match s.cmdOf cmd 0x02 with
  | none => .refused .notDue
  | some c => .next (s.runLaunch c true)

end Sys2Proof.Machine
end

