-- ==== Sys2Proof/Machine/Walker.lean ====
section
/-!
DEFINITION. Resident graphs and the graph walker (R299-R302): loading, starts, and the nodes.
-/
namespace Sys2Proof.Machine

/-! ### Loading (R299) -/

/-- A node record is legal in a graph: reserved bits zero, successors inside it, a join with arrivals to wait for, a loop end that names a
while node (R299, R300). Fields without a meaning for the kind are free. -/
def nodeOk (nodes : List (List Word)) (w : List Word) : Bool :=
  let k := nodeKind w
  let inside := fun s => s == 0xFFFF || decide (s < nodes.length)
  decide (k ≤ 6) && natBits (nodeWord w 0) 7 4 == 0 && natBits (nodeWord w 1) 31 24 == 0 && [4, 5, 6, 7].all (fun i => nodeWord w i == 0)
  && inside (nodeSucc0 w) && inside (nodeSucc1 w)
  && (k != 4 || nodeNpred w != 0)
  && (k != 5 || (nodes[nodeSucc0 w]?).any (fun x => nodeKind x == 3))

/-- Words of bytes. -/
def wordsOf (l : List Byte) : List Word := (List.range (l.length / 4)).map (fun k => BitVec.ofNat 32 (fieldAt l (4 * k) 4))

/-- GRLOAD (R299, R413). -/
def execGrload (cmd : Nat) (s : State) : Host.Outcome State Fault Refusal :=
  match s.cmdOf cmd 0x09 with
  | none => .refused .notDue
  | some c =>
    let num := recArg c.words 0
    let n := recArg c.words 2
    let running := ((s.parts[c.part]?).bind (fun p => p.runOf num)).isSome
    if 64 ≤ num || n = 0 || 4096 < n || running then .next (s.finishCmd cmd 7 0)
    else
      match s.readVa c.tenant c.ctx (recArg c.words 1) (32 * n) with
      | (s, none) => .next (s.finishCmd cmd 8 0)
      | (s, some l) =>
        let ws := wordsOf l
        let nodes := (List.range n).map (fun i => (ws.drop (8 * i)).take 8)
        if !nodes.all (nodeOk nodes) then .next (s.finishCmd cmd 7 0)
        else
          .next ((s.modPart c.part (fun p =>
            { p with graphs := p.graphs.filter (fun g => g.num != num) ++ [{ num := num, ctx := c.ctx, nodes := nodes }] })).finishCmd cmd 0 0)

/-- GRSTART: the start joins the queue once it has room (R302, R413). -/
def execGrstart (cmd : Nat) (s : State) : Host.Outcome State Fault Refusal :=
  match s.cmdOf cmd 0x0A with
  | none => .refused .notDue
  | some c =>
    let p := (s.parts[c.part]?).getD {}
    let num := recArg c.words 0
    if !(p.graphs.any (fun g => g.num == num)) then .next (s.finishCmd cmd 7 0)
    else if p.startsFull then .refused .notDue
    else .next ((s.modPart c.part (fun p =>
      { p with starts := p.starts ++ [(BitVec.ofNat 32 num, BitVec.ofNat 32 (recArg c.words 1))] })).finishCmd cmd 0 0)

/-! ### Starts (R301, R302) -/

/-- GRAPH_START: the oldest start begins, once no instance of its graph runs, the walker's chain without a failure (R301, R302; a start
behind it waits even where its own graph is idle: log 55, DEDUCED). -/
def execGraphStart (part : Nat) (s : State) : Host.Outcome State Fault Refusal :=
  match s.parts[part]? with
  | none => .refused .notDue
  | some p =>
    match p.starts with
    | [] => .refused .notDue
    | (g, arg) :: rest =>
      if !p.started || (p.runOf g.toNat).isSome then .refused .notDue
      else
        .next (s.modPart part (fun p =>
          { p with starts := rest, cond := p.cond.set 0 arg, wErrPos := BitVec.allOnes 64, ready := p.ready ++ [(g.toNat, 0)],
                   runs := p.runs ++ [{ graph := g.toNat, arg := arg, running := [], arrivals := [], error := false }] }))

/-! ### Nodes (R300, R301) -/

/-- Arrivals that a join has counted. -/
def GraphRun.count (r : GraphRun) (n : Nat) : Nat := ((r.arrivals.find? (fun a => a.1 == n)).map (·.2)).getD 0

/-- One arrival at a join: it fires at the NPRED-th (R300). -/
def Partition.arrive (p : Partition) (graph n npred succ : Nat) : Partition :=
  let k := ((p.runOf graph).map (fun r => r.count n)).getD 0 + 1
  let fires := decide (npred ≤ k)
  let p := if fires then p.addReady graph [succ] else p
  p.modRun graph (fun r => { r with arrivals := r.arrivals.filter (fun a => a.1 != n) ++ (if fires then [] else [(n, k)]) })

/-- The 128-byte card of a card node, where step 2 of R290 accepts it (R301). One whose ARG does not translate, or of class 3 while no Quay port
is attached to the owner, is not accepted (log 45, DEDUCED). -/
def State.nodeCard (s : State) (p : Partition) (ctx addr : Nat) : State × Option (List Word) :=
  match s.readVa p.owner ctx addr 128 with
  | (s, none) => (s, none)
  | (s, some l) =>
    let w := wordsOf l
    (s, if cardOk w && (cardScope w != 5 || s.sysord p.owner)
        && (cardClass w != some 3 || (List.range 2).any (fun q => s.portFor q p.owner)) then some w
      else none)

/-- The position that a card of the walker would take: those of the walker that wait come before it (R284, R290, R301). -/
def State.walkerPos (s : State) (part : Nat) (p : Partition) : Nat := p.wTail + (s.pubs.filter (fun x => x.owner == .walker part)).length

/-- GRAPH_NODE: the walker acts on its oldest ready node (R300, R301). -/
def execGraphNode (part : Nat) (s : State) : Host.Outcome State Fault Refusal :=
  match s.parts[part]? with
  | none => .refused .notDue
  | some p =>
    match p.ready with
    | [] => .refused .notDue
    | (graph, n) :: rest =>
      let w := p.nodeOf graph n
      let k := nodeKind w
      let ctx := ((p.graphs.find? (fun g => g.num == graph)).map (·.ctx)).getD 0
      let s := s.modPart part (fun p => { p with ready := rest })
      let start := fun (s : State) => s.modPart part (fun p => p.modRun graph (fun r => { r with running := r.running ++ [n] }))
      if k = 0 then
        (match (start s).launchAt p.owner part ctx (nodeArg w) false none (some (graph, n)) with
         | (s, none) => .next s
         | (s, some _) => .next (s.modPart part (fun p => p.nodeDone graph n false)))
      else if k = 1 then
        (match (start s).nodeCard p ctx (nodeArg w) with
         | (s, some card) =>
           let pub : Publication :=
             { id := s.nextId, owner := .walker part, tenant := p.owner, part := part, ctx := ctx, cards := [card], node := some (graph, n) }
           .next { s with pubs := s.pubs ++ [pub], nextId := s.nextId + 1 }
         | (s, none) =>
           .next ((s.noteFailure (.walker part) p.owner (s.walkerPos part p) 6).modPart part (fun p => p.nodeDone graph n false)))
      else
        .next (s.modPart part (fun p =>
          let cond := p.cond.get (nodeCond w)
          let p := if k = 6 then { p with cond := p.cond.set (nodeCond w) (BitVec.ofNat 32 (nodeWord w 2)) } else p
          if k = 4 then p.arrive graph n (nodeNpred w) (nodeSucc0 w)
          else ((p.addReady graph [if (k = 2 || k = 3) && cond ≠ 0 then nodeSucc1 w else nodeSucc0 w]).modRun graph id)))

end Sys2Proof.Machine
end

