-- ==== Sys2Proof/Machine/Commands.lean ====
section
/-!
DEFINITION. The commands that are not launches or graphs: COPY, contexts, translations, RESUME and S2RESUME, DEBUG, SIGNAL, S2INV (R341,
R342, R350, R358, R413), and the debugger's attachment (R363).
-/
namespace Sys2Proof.Machine

/-! ### COPY (R412, R413, R417) -/

/-- The words of a COPY card at .sys (R285, R287). -/
def copyCard (src dst len : Nat) : List Word :=
  let w := fun (x : Nat) => BitVec.ofNat 32 x
  [0x501, 0, 0, 0, 0, 0, 0, 0, w src, w (src / 2 ^ 32), w len, 1, w dst, w (dst / 2 ^ 32), w len, 2] ++ List.replicate 16 0

/-- COPY: a card on a copy engine; a copy of nothing is done at once (R413). -/
def execCopy (cmd : Nat) (s : State) : Host.Outcome State Fault Refusal :=
  match s.cmdOf cmd 0x03 with
  | none => .refused .notDue
  | some c =>
    let src := recArg c.words 0
    let dst := recArg c.words 1
    let len := recArg c.words 2
    if len = 0 then .next (s.finishCmd cmd 0 0)
    else if 2 ^ 32 ≤ len || !cardOk (copyCard src dst len) then .next (s.finishCmd cmd 7 0)
    else
      let p : Publication := { id := s.nextId, owner := .command cmd, tenant := c.tenant, part := c.part, ctx := c.ctx, cards := [copyCard src dst len] }
      .next ({ s with pubs := s.pubs ++ [p], nextId := s.nextId + 1 }.modCmd cmd (fun c => { c with started := true }))

/-! ### Contexts (R83, R348, R413) -/

/-- The numbers from 1 to 65,535 that contexts of a tenant take: every sixteenth, so that a tenant learns nothing of the others' from its own
(R409, R413; log 20, DESIGN CHOICE). -/
def ctxNumbers (ten : Nat) : List Nat := ((List.range 4096).map (fun k => 16 * k + ten + 1)).filter (· < 65536)

/-- The next context number of a tenant: the one after its highest, else its lowest free one (R413; log 20, DESIGN CHOICE). -/
def State.newCtx (s : State) (ten : Nat) : Option Nat :=
  let mine := (s.ctxs.filter (fun (c : Context) => c.tenant == ten)).map (·.num)
  let top := mine.foldl max 0
  ((ctxNumbers ten).find? (fun n => decide (top < n))) <|> (ctxNumbers ten).find? (fun n => !mine.contains n)

/-- CTXNEW (R413). -/
def execCtxnew (cmd : Nat) (s : State) : Host.Outcome State Fault Refusal :=
  match s.cmdOf cmd 0x04 with
  | none => .refused .notDue
  | some c =>
    let root := recArg c.words 0
    match s.newCtx c.tenant with
    | none => .next (s.finishCmd cmd 7 0)
    | some n =>
      if root % 2 ^ 16 ≠ 0 then .next (s.finishCmd cmd 7 0)
      else
        let x : Context := { num := n, tenant := c.tenant, root := BitVec.ofNat 64 root }
        .next (({ s with ctxs := s.ctxs ++ [x] } : State).finishCmd cmd 0 n)

/-- Remove TLB entries everywhere (R348). -/
def State.tlbDropAll (s : State) (p : TlbEntry → Bool) : State :=
  { s with cores := s.cores.map (fun (c : Core) => { c with tlb := c.tlb.filter (fun e => !p e) }),
           clusters := s.clusters.map (fun (c : Cluster) => { c with tlb := c.tlb.filter (fun e => !p e) }) }

/-- The instruction caches lose a deleted context's code: its number and generations may come again (R82, R413; log 42, DESIGN CHOICE). -/
def State.dropCode (s : State) (n : Nat) : State :=
  { s with cores := s.cores.map (fun (k : Core) => { k with code := k.code.filter (fun e => e.1.ctx != n), ops := k.ops.filter (fun e => e.1.ctx != n) }) }

/-- CTXDEL: once no grid of the context remains (R413). -/
def execCtxdel (cmd : Nat) (s : State) : Host.Outcome State Fault Refusal :=
  match s.cmdOf cmd 0x05 with
  | none => .refused .notDue
  | some c =>
    let n := recArg c.words 0
    if !s.ownCtx c.tenant n then .next (s.finishCmd cmd 7 0)
    else if s.grids.any (fun (g : Grid) => g.ctx == n) then .refused .notDue
    else .next ((({ s with ctxs := s.ctxs.filter (fun (x : Context) => x.num != n) } : State).dropCode n).tlbDropAll (fun e => e.ctx == n)
      |>.finishCmd cmd 0 0)

/-- Change a context. -/
def State.modCtx (s : State) (n : Nat) (f : Context → Context) : State :=
  { s with ctxs := s.ctxs.map (fun (c : Context) => if c.num == n then f c else c) }

/-- MAPCODE (R83, R413). -/
def execMapcode (cmd : Nat) (s : State) : Host.Outcome State Fault Refusal :=
  match s.cmdOf cmd 0x06 with
  | none => .refused .notDue
  | some c =>
    let n := recArg c.words 0
    if !s.ownCtx c.tenant n then .next (s.finishCmd cmd 7 0)
    else .next (((s.modCtx n (fun c => { c with codeGen := c.codeGen + 1 })).tlbDropAll (fun e => e.ctx == n)).finishCmd cmd 0 0)

/-- TLBINV, over every partition of the tenant (R367, R413). -/
def execTlbinvCommand (cmd : Nat) (s : State) : Host.Outcome State Fault Refusal :=
  match s.cmdOf cmd 0x07 with
  | none => .refused .notDue
  | some c =>
    let n := recArg c.words 0
    let va := recArg c.words 1
    if !s.ownCtx c.tenant n then .next (s.finishCmd cmd 7 0)
    else
      let hit := fun (e : TlbEntry) => if va = 2 ^ 64 - 1 then e.ctx == n else e.maps n va
      let parts := (List.range s.parts.length).filter (fun p => ((s.parts[p]?).map (fun (x : Partition) => x.en && x.owner == c.tenant)).getD false)
      .next ((parts.foldl (fun s p => s.tlbDrop p hit) s).finishCmd cmd 0 0)

/-- S2INV (R405, R413): the entries of every context of the tenant. -/
def execS2inv (cmd : Nat) (s : State) : Host.Outcome State Fault Refusal :=
  match s.cmdOf cmd 0x22 with
  | none => .refused .notDue
  | some c =>
    let ten := recArg c.words 0
    if 16 ≤ ten then .next (s.finishCmd cmd 7 0)
    else .next ((s.tlbDropAll (fun e => s.ownCtx ten e.ctx)).finishCmd cmd 0 0)

/-! ### DEBUG, SIGNAL and the debugger (R360, R363, R413) -/

/-- A comparator value with its reserved bits zero (R6, R360). -/
def cmpValue (n : Nat) (x : BitVec 128) : BitVec 128 :=
  let rsv : BitVec 128 := if n < 8 then 0xFFF0000000000000000000000000FFFE#128 else 0xFC00000000000000000000000000FFF8#128
  x &&& ~~~rsv

/-- A comparator value that Pilot takes: IGN at most 20, a code address on a word (R360). -/
def cmpOk (n : Nat) (x : BitVec 128) : Bool := if n < 8 then bitsOf x 65 64 == 0 else decide (bitsOf x 121 116 ≤ 20)

/-- DEBUG (R360, R413): the context that its value names is the tenant's. -/
def execDebugCommand (cmd : Nat) (s : State) : Host.Outcome State Fault Refusal :=
  match s.cmdOf cmd 0x0B with
  | none => .refused .notDue
  | some c =>
    let a := recArg c.words 0
    let core := natBits a 6 0
    let n := natBits a 11 8
    let x := cmpValue n (BitVec.ofNat 128 (recArg c.words 1 + 2 ^ 64 * recArg c.words 2))
    let mine := s.parts.any (fun p => p.en && p.owner == c.tenant && p.hasCore core)
    if !mine || !s.ownCtx c.tenant (cmpCtx x) || 12 ≤ n || !cmpOk n x then .next (s.finishCmd cmd 7 0)
    else .next ((s.modCore core (fun k => { k with cmps := listModify k.cmps n (fun _ => x) })).finishCmd cmd 0 0)

/-- SIGNAL (R413). -/
def execSignal (cmd : Nat) (s : State) : Host.Outcome State Fault Refusal :=
  match s.cmdOf cmd 0x0C with
  | none => .refused .notDue
  | some _ => .next (s.finishCmd cmd 0 0)

/-- DEBUGGER_ATTACH: a debugger attaches to a context or leaves it (R363). -/
def execDebuggerAttach (ctx : Nat) (attached : Bool) (s : State) : Host.Outcome State Fault Refusal :=
  if s.ctxs.any (fun (c : Context) => c.num == ctx) then .next (s.modCtx ctx (fun c => { c with debugger := attached })) else .refused .notDue

/-! ### RESUME and S2RESUME (R341, R342, R350, R358, R413) -/

/-- The reported trap that a command names, with its team: by group or stream, lid and grid (R341, R413). `s2` for S2RESUME. -/
def State.namedTrap (s : State) (c : Command) (s2 : Bool) : Option (Team × Trap) :=
  let a0 := recArg c.words 0
  let a1 := recArg c.words 1
  let lid := natBits a1 31 16
  s.teams.findSome? (fun t =>
    if s.serialOf t = natBits a0 31 0 && t.index = natBits a0 63 32 && (s2 || t.tenant = c.tenant) then
      (t.traps.find? (fun tr => tr.reported && tr.answer.isNone && (tr.served == some 2) == s2
        && (if natBits a1 7 0 = 0xFF then tr.stream else !tr.stream && tr.lids.contains lid))).map (fun tr => (t, tr))
    else none)

/-- The held card that a command names (R350, R413). -/
def State.namedCard (s : State) (c : Command) (s2 : Bool) : Option Card :=
  let a1 := recArg c.words 1
  let part := natBits a1 31 24
  s.cards.find? (fun k =>
    k.held == some (if s2 then 2 else 1) && k.pos == recArg c.words 0 && (s2 || k.tenant == c.tenant) && k.part == part
    && (match k.owner with
        | .chain n _ => !a1.testBit 20 && n == natBits a1 19 16
        | .walker _ => a1.testBit 20
        | .command _ => false))

/-- Whether a command names a card (R413). -/
def Command.namesCard (c : Command) : Bool := natBits (recArg c.words 1) 7 0 == 0xFE

/-- The answer of a command (R413). -/
def Command.answer (c : Command) : Nat := natBits (recArg c.words 1) 9 8

/-- A RESUME or S2RESUME with one answer: due where a command of the opcode gives it. -/
def State.resumeCmd (s : State) (cmd answer : Nat) (s2 : Bool) : Option Command :=
  match s.cmdOf cmd (if s2 then 0x21 else 0x08) with
  | some c => if c.answer = answer then some c else none
  | none => none

/-- An answer to a translation fault of a saved team is kept until the resume (R378). -/
def State.keepAnswer (s : State) (t : Team) (tr : Trap) (a : Nat) : State :=
  s.modTeam t.id (fun t => { t with traps := t.traps.map (fun (x : Trap) => if x.id == tr.id then { x with answer := some a } else x) })

/-- A trap whose answer waits for the resume of its team (R350, R378). -/
def Trap.waits (tr : Trap) (t : Team) : Bool := tr.served.isSome && t.isSaved

/-- RETRY or SKIP of a trap; a MEM_UE after window instructions takes no RETRY, and a fault that its owner serves, a card's among them, no
SKIP (R341, R350, R378; log 38, DEDUCED). -/
def State.resumeTrap (s : State) (c : Command) (retry s2 : Bool) : State :=
  if c.namesCard then
    match s.namedCard c s2 with
    | some k => if retry then (s.modCard k.id (fun k => { k with held := none })).finishCmd c.id 0 0 else s.finishCmd c.id 7 0
    | none => s.finishCmd c.id 7 0
  else
    match s.namedTrap c s2 with
    | some (t, tr) =>
      if (retry && tr.late) || (!retry && tr.served.isSome) then s.finishCmd c.id 7 0
      else if tr.waits t then (s.keepAnswer t tr 0).finishCmd c.id 0 0
      else
        let s := s.modTeam t.id (fun t => t.answer tr retry)
        (s.modTeam t.id (fun t => t.modBody (fun b => { b with groups := b.groups.map Group.fixSlots }))).finishCmd c.id 0 0
    | none => s.finishCmd c.id 7 0

/-- KILL: the grid ends with a fatal outcome, or the card fails with ERRCODE 2 (R341, R350, R358). -/
def State.resumeKill (s : State) (c : Command) (s2 : Bool) : State :=
  if c.namesCard then
    match s.namedCard c s2 with
    | some k => (s.failCard k 2).finishCmd c.id 0 0
    | none => s.finishCmd c.id 7 0
  else
    match s.namedTrap c s2 with
    | some (t, tr) => (if tr.waits t then s.keepAnswer t tr 2 else s.killGrid t.grid tr.cls).finishCmd c.id 0 0
    | none => s.finishCmd c.id 7 0

/-- RESUME_RETRY (R341, R342, R350, R358). An answer code of 3 is a malformed command, and completes here with code 7. -/
def execResumeRetry (cmd : Nat) (s : State) : Host.Outcome State Fault Refusal :=
  match s.resumeCmd cmd 0 false, s.resumeCmd cmd 3 false with
  | some c, _ => .next (s.resumeTrap c true false)
  | _, some c => .next (s.finishCmd c.id 7 0)
  | _, _ => .refused .notDue

/-- RESUME_SKIP (R341, R358). -/
def execResumeSkip (cmd : Nat) (s : State) : Host.Outcome State Fault Refusal :=
  match s.resumeCmd cmd 1 false with
  | some c => .next (s.resumeTrap c false false)
  | none => .refused .notDue

/-- RESUME_KILL (R341, R350, R358). -/
def execResumeKill (cmd : Nat) (s : State) : Host.Outcome State Fault Refusal :=
  match s.resumeCmd cmd 2 false with
  | some c => .next (s.resumeKill c false)
  | none => .refused .notDue

/-- S2RESUME_RETRY (R350, R413). -/
def execS2resumeRetry (cmd : Nat) (s : State) : Host.Outcome State Fault Refusal :=
  match s.resumeCmd cmd 0 true, s.resumeCmd cmd 3 true with
  | some c, _ => .next (s.resumeTrap c true true)
  | _, some c => .next (s.finishCmd c.id 7 0)
  | _, _ => .refused .notDue

/-- S2RESUME_SKIP (R350, R413). -/
def execS2resumeSkip (cmd : Nat) (s : State) : Host.Outcome State Fault Refusal :=
  match s.resumeCmd cmd 1 true with
  | some c => .next (s.resumeTrap c false true)
  | none => .refused .notDue

/-- S2RESUME_KILL (R350, R413). -/
def execS2resumeKill (cmd : Nat) (s : State) : Host.Outcome State Fault Refusal :=
  match s.resumeCmd cmd 2 true with
  | some c => .next (s.resumeKill c true)
  | none => .refused .notDue

end Sys2Proof.Machine
end

