-- ==== Sys2Proof/WellFormed.lean ====
section
/-!
DEFINITION. Well-formed instructions: group words whose fields pass every check that the decoder can make without a role's
register budget (R38, R41-R43, R48, R56-R59), with a literal exactly where one operand is IMMNEXT (R39), and the words whose
cell has the JURYRIG or vendor-test fate (R60, R65). Events of the device have no encoding.
-/
namespace Sys2Proof

/-- Whether a raw word lies in a range of cells: the majors of the group map or the stream opcodes (R61, R65). -/
def RawWord.inCells (w : RawWord) (lo hi slo shi : Nat) : Bool :=
  match w with
  | .group _ m _ => decide (lo ≤ bitsOf m 31 25) && decide (bitsOf m 31 25 ≤ hi)
  | .stream x => decide (slo ≤ bitsOf x 63 58) && decide (bitsOf x 63 58 ≤ shi)

/-- A literal stands exactly where one operand is coded IMMNEXT (R38, R39). -/
def Form.litOk (f : Form) : Bool := f.lit.isSome == (f.immCount != 0)

/-- Well-formed: what the assembler may emit and the decoder gives back (R38-R43, R60). -/
def Instr.wf (i : Instr) : Bool :=
  match i.form with
  | some f => f.ok 256 && f.litOk
  | none =>
    match i with
    | .juryrig w => w.inCells 0x18 0x1F 0x30 0x37
    | .vendorTest w => w.inCells 0x70 0x77 0x38 0x3F
    | .illegal _ => false
    | _ => true

end Sys2Proof
end

