-- ==== Sys2Proof/Decode.lean ====
section
/-!
DEFINITION. The decoder, total on any bytes, and after it the encoder, both from the encoding tables of the spec (R30, R33, R41,
R60-R66, R316). A word whose cell names no instruction, or that sets a field the cell does not use, decodes to the step of its
fate: ILLEGAL, JURYRIG or vendor test.
-/
namespace Sys2Proof

/-- The five parts a main word of every format is cut into: [31:25], [24:21], [20:14], [13:7], [6:0] (R33, R34). -/
structure Parts where
  op : BitVec 7
  sx : BitVec 4
  d : Code
  a : Code
  b : Code
  deriving DecidableEq, Repr

/-- A main word cut into its parts (R33). -/
def Parts.ofWord (w : Word) : Parts :=
  ⟨w.extractLsb' 25 7, w.extractLsb' 21 4, w.extractLsb' 14 7, w.extractLsb' 7 7, w.extractLsb' 0 7⟩

/-- The main word of the parts (R33). -/
def Parts.toWord (q : Parts) : Word := q.op ++ q.sx ++ q.d ++ q.a ++ q.b

/-- The d field of an F-I word, [24:18] (R33). -/
def Parts.iD (q : Parts) : Code := q.sx ++ q.d.extractLsb' 4 3

/-- The a field of an F-I word, [17:11] (R33). -/
def Parts.iA (q : Parts) : Code := q.d.extractLsb' 0 4 ++ q.a.extractLsb' 4 3

/-- The imm field of an F-I word, [10:0] (R33). -/
def Parts.imm (q : Parts) : BitVec 11 := q.a.extractLsb' 0 4 ++ q.b

/-- The off field of an F-B word, [20:0] (R33). -/
def Parts.off (q : Parts) : BitVec 21 := q.d ++ q.a ++ q.b

/-- The fields of an F-P word (R41). -/
def Pfx.ofWord (w : Word) : Pfx :=
  { gen := w.getLsbD 24, gsel := w.extractLsb' 21 3, mz := w.getLsbD 20, rndo := w.extractLsb' 17 3,
    eto := w.extractLsb' 13 4, op4 := w.extractLsb' 6 7, xd := w.getLsbD 5, xa := w.getLsbD 4, xb := w.getLsbD 3,
    mdst := w.getLsbD 2, xen := w.getLsbD 1, o4en := w.getLsbD 0 }

/-- The F-P word of its fields (R41). -/
def Pfx.toWord (p : Pfx) : Word :=
  0x7F#7 ++ BitVec.ofBool p.gen ++ p.gsel ++ BitVec.ofBool p.mz ++ p.rndo ++ p.eto ++ p.op4 ++ BitVec.ofBool p.xd
    ++ BitVec.ofBool p.xa ++ BitVec.ofBool p.xb ++ BitVec.ofBool p.mdst ++ BitVec.ofBool p.xen ++ BitVec.ofBool p.o4en

/-- The cells of majors 0x01 to 0x0A: integer, logic, moves, S-forms (R61, R127). -/
def cellArith (p : Option Pfx) (l : Option Word) (q : Parts) : Option Instr :=
  match q.op.toNat with
  | 1 => if q.sx == 0 then some (.iadd ⟨p, l⟩ q.d q.a q.b)
      else if q.sx == 1 then some (.isub ⟨p, l⟩ q.d q.a q.b)
      else if q.sx == 2 then some (.imul ⟨p, l⟩ q.d q.a q.b)
      else if q.sx == 3 then some (.imulh ⟨p, l⟩ q.d q.a q.b)
      else if q.sx == 4 then some (.imad ⟨p, l⟩ q.d q.a q.b)
      else if q.sx == 5 then some (.imadw ⟨p, l⟩ q.d q.a q.b)
      else if q.sx == 6 && q.b == 0 then some (.ineg ⟨p, l⟩ q.d q.a)
      else if q.sx == 7 && q.b == 0 then some (.iabs ⟨p, l⟩ q.d q.a)
      else if q.sx == 8 then some (.imin ⟨p, l⟩ q.d q.a q.b)
      else if q.sx == 9 then some (.imax ⟨p, l⟩ q.d q.a q.b)
      else if q.sx == 10 then some (.isel ⟨p, l⟩ q.d q.a q.b)
      else if q.sx == 11 then some (.sad ⟨p, l⟩ q.d q.a q.b)
      else if q.sx == 12 then some (.dot4 ⟨p, l⟩ q.d q.a q.b)
      else if q.sx == 13 then some (.lea ⟨p, l⟩ q.d q.a q.b)
      else if q.sx == 14 then some (.aadd ⟨p, l⟩ q.d q.a q.b)
      else none
  | 2 => some (.icmp ⟨p, l⟩ q.sx q.d q.a q.b)
  | 3 => if q.sx == 0 then some (.and ⟨p, l⟩ q.d q.a q.b)
      else if q.sx == 1 then some (.or ⟨p, l⟩ q.d q.a q.b)
      else if q.sx == 2 then some (.xor ⟨p, l⟩ q.d q.a q.b)
      else if q.sx == 3 && q.b == 0 then some (.not ⟨p, l⟩ q.d q.a)
      else if q.sx == 4 then some (.andn ⟨p, l⟩ q.d q.a q.b)
      else if q.sx == 5 then some (.shl ⟨p, l⟩ q.d q.a q.b)
      else if q.sx == 6 then some (.shr ⟨p, l⟩ q.d q.a q.b)
      else if q.sx == 7 then some (.sar ⟨p, l⟩ q.d q.a q.b)
      else if q.sx == 8 then some (.rol ⟨p, l⟩ q.d q.a q.b)
      else if q.sx == 9 then some (.shf ⟨p, l⟩ q.d q.a q.b)
      else none
  | 4 => if q.sx == 0 && q.b == 0 then some (.popc ⟨p, l⟩ q.d q.a)
      else if q.sx == 1 && q.b == 0 then some (.clz ⟨p, l⟩ q.d q.a)
      else if q.sx == 2 && q.b == 0 then some (.ctz ⟨p, l⟩ q.d q.a)
      else if q.sx == 3 && q.b == 0 then some (.brev ⟨p, l⟩ q.d q.a)
      else if q.sx == 4 then some (.bfe ⟨p, l⟩ q.d q.a q.b)
      else if q.sx == 5 then some (.bfi ⟨p, l⟩ q.d q.a q.b)
      else if q.sx == 6 then some (.bytesel ⟨p, l⟩ q.d q.a q.b)
      else none
  | 5 => if q.sx == 0 && q.b == 0 then some (.mov ⟨p, l⟩ q.d q.a)
      else if q.sx == 1 && q.b == 0 then some (.s2v q.d q.a)
      else if q.sx == 2 && q.b == 0 then some (.v2s l q.d q.a)
      else none
  | 6 => if q.sx == 0 then some (.idiv ⟨p, l⟩ q.d q.a q.b)
      else if q.sx == 1 then some (.irem ⟨p, l⟩ q.d q.a q.b)
      else none
  | 7 => some (.movi p q.iD q.iA q.imm)
  | 8 => if q.d &&& 15 == 0 && q.a &&& 112 == 0 then some (.ldi p q.iD q.imm)
      else none
  | 9 => if q.sx == 0 then some (.sadd l q.d q.a q.b)
      else if q.sx == 1 then some (.ssub l q.d q.a q.b)
      else if q.sx == 2 then some (.smul l q.d q.a q.b)
      else if q.sx == 3 then some (.sshl l q.d q.a q.b)
      else if q.sx == 4 then some (.sshr l q.d q.a q.b)
      else if q.sx == 5 then some (.sand l q.d q.a q.b)
      else if q.sx == 6 then some (.sor l q.d q.a q.b)
      else if q.sx == 7 then some (.sxor l q.d q.a q.b)
      else if q.sx == 8 then some (.ssel l q.d q.a q.b)
      else if q.sx == 9 && q.b == 0 then some (.smov l q.d q.a)
      else none
  | 10 => some (.scmp l q.sx q.d q.a q.b)
  | _ => none

/-- The cells of majors 0x10 to 0x16: float, conversions, SFU, cross-lane (R61, R93, R164). -/
def cellFloat (p : Option Pfx) (l : Option Word) (q : Parts) : Option Instr :=
  match q.op.toNat with
  | 16 => if q.sx == 0 then some (.fadd ⟨p, l⟩ q.d q.a q.b)
      else if q.sx == 1 then some (.fsub ⟨p, l⟩ q.d q.a q.b)
      else if q.sx == 2 then some (.fmul ⟨p, l⟩ q.d q.a q.b)
      else if q.sx == 3 then some (.ffma ⟨p, l⟩ q.d q.a q.b)
      else if q.sx == 4 then some (.fmin ⟨p, l⟩ q.d q.a q.b)
      else if q.sx == 5 then some (.fmax ⟨p, l⟩ q.d q.a q.b)
      else if q.sx == 6 then some (.fminNum ⟨p, l⟩ q.d q.a q.b)
      else if q.sx == 7 then some (.fmaxNum ⟨p, l⟩ q.d q.a q.b)
      else if q.sx == 8 && q.b == 0 then some (.fabs ⟨p, l⟩ q.d q.a)
      else if q.sx == 9 && q.b == 0 then some (.fneg ⟨p, l⟩ q.d q.a)
      else if q.sx == 10 && q.b == 0 then some (.frnd ⟨p, l⟩ q.d q.a)
      else if q.sx == 11 && q.b == 0 then some (.fclass ⟨p, l⟩ q.d q.a)
      else if q.sx == 12 then some (.fscale ⟨p, l⟩ q.d q.a q.b)
      else none
  | 17 => some (.fcmp ⟨p, l⟩ q.sx q.d q.a q.b)
  | 18 => if q.sx == 0 && q.b &&& 112 == 0 then some (.cvtF2i ⟨p, l⟩ q.d q.a (q.b.extractLsb' 0 4))
      else if q.sx == 1 && q.b &&& 112 == 0 then some (.cvtI2f ⟨p, l⟩ q.d q.a (q.b.extractLsb' 0 4))
      else if q.sx == 2 && q.b &&& 96 == 0 then some (.cvtF2f ⟨p, l⟩ q.d q.a (q.b.extractLsb' 4 1) (q.b.extractLsb' 0 4))
      else if q.sx == 3 && q.b &&& 96 == 0 then some (.qnt ⟨p, l⟩ q.d q.a (q.b.extractLsb' 0 5))
      else if q.sx == 4 && q.b &&& 96 == 0 then some (.dqnt ⟨p, l⟩ q.d q.a (q.b.extractLsb' 0 5))
      else if q.sx == 5 && q.b &&& 96 == 0 then some (.mxsc ⟨p, l⟩ q.d q.a (q.b.extractLsb' 0 5))
      else if q.sx == 6 then some (.pack ⟨p, l⟩ q.d q.a q.b)
      else if q.sx == 7 && q.b == 0 then some (.unpk ⟨p, l⟩ q.d q.a)
      else if q.sx == 8 && q.b == 0 then some (.rng ⟨p, l⟩ q.d q.a)
      else if q.sx == 9 && q.b == 0 then some (.flags l q.d q.a)
      else none
  | 19 => if q.b == 0 then some (.rcp p q.sx q.d q.a)
      else if q.b == 1 then some (.rsq p q.sx q.d q.a)
      else if q.b == 2 then some (.sqrt p q.sx q.d q.a)
      else if q.b == 3 then some (.ex2 p q.sx q.d q.a)
      else if q.b == 4 then some (.lg2 p q.sx q.d q.a)
      else if q.b == 5 then some (.sinpi p q.sx q.d q.a)
      else if q.b == 6 then some (.cospi p q.sx q.d q.a)
      else if q.b == 7 then some (.tanh p q.sx q.d q.a)
      else if q.b == 8 then some (.sigm p q.sx q.d q.a)
      else none
  | 20 => if q.sx == 0 then some (.lreadAt ⟨p, l⟩ q.d q.a q.b)
      else if q.sx == 1 then some (.lreadBack ⟨p, l⟩ q.d q.a q.b)
      else if q.sx == 2 then some (.lreadFwd ⟨p, l⟩ q.d q.a q.b)
      else if q.sx == 3 then some (.lreadFlip ⟨p, l⟩ q.d q.a q.b)
      else if q.sx == 4 then some (.bcast ⟨p, l⟩ q.d q.a q.b)
      else if q.sx == 5 && q.b == 0 then some (.voteAny ⟨p, l⟩ q.d q.a)
      else if q.sx == 6 && q.b == 0 then some (.voteAll ⟨p, l⟩ q.d q.a)
      else if q.sx == 7 then some (.voteBal ⟨p, l⟩ q.d q.a q.b)
      else if q.sx == 8 && q.a == 0 && q.b == 0 then some (.lane q.d)
      else if q.sx == 9 && q.a == 0 && q.b == 0 then some (.grpid q.d)
      else if q.sx == 10 && q.a == 0 && q.b == 0 then some (.getw q.d)
      else if q.sx == 11 && q.d == 0 && q.b == 0 then some (.setw l q.a)
      else none
  | 21 => if q.b == 0 then some (.matchLanes p q.sx q.d q.a)
      else none
  | 22 => if q.b == 0 then some (.redAdd p q.sx q.d q.a)
      else if q.b == 1 then some (.redMin p q.sx q.d q.a)
      else if q.b == 2 then some (.redMax p q.sx q.d q.a)
      else if q.b == 3 then some (.redBitAnd p q.sx q.d q.a)
      else if q.b == 4 then some (.redBitOr p q.sx q.d q.a)
      else if q.b == 5 then some (.redBitXor p q.sx q.d q.a)
      else if q.b == 6 then some (.scanAdd p q.sx q.d q.a)
      else if q.b == 7 then some (.scanMax p q.sx q.d q.a)
      else if q.b == 8 then some (.csamp p q.sx q.d q.a)
      else none
  | _ => none

/-- The cells of majors 0x20 to 0x30: flow, masks, mode, team, engine, matrix, system (R61, R188, R204, R217, R288, R312, R362). -/
def cellFlow (_ : Option Pfx) (l : Option Word) (q : Parts) : Option Instr :=
  match q.op.toNat with
  | 32 => some (.bra q.sx q.off)
  | 33 => some (.brx q.sx q.off)
  | 34 => some (.brz q.sx q.off)
  | 35 => if q.sx == 0 then some (.join q.off)
      else none
  | 36 => if q.d == 0 && q.a == 0 && q.b == 0 then some (.leave q.sx)
      else none
  | 37 => if q.sx == 0 then some (.cont q.off)
      else none
  | 38 => if q.sx == 0 then some (.call q.off)
      else none
  | 39 => if q.sx == 0 && q.d == 0 && q.b == 0 then some (.calli q.a)
      else if q.sx == 1 && q.d == 0 && q.a == 0 && q.b == 0 then some (.ret)
      else if q.sx == 2 && q.d == 0 && q.a == 0 && q.b == 0 then some (.yield)
      else if q.sx == 3 && q.d == 0 then some (.exit l q.a q.b)
      else if q.sx == 4 && q.d == 0 && q.a == 0 && q.b == 0 then some (.nop)
      else none
  | 40 => if q.sx == 0 then some (.mand q.d q.a q.b)
      else if q.sx == 1 then some (.mor q.d q.a q.b)
      else if q.sx == 2 then some (.mxor q.d q.a q.b)
      else if q.sx == 3 && q.b == 0 then some (.mnot q.d q.a)
      else if q.sx == 4 then some (.mandn q.d q.a q.b)
      else if q.sx == 5 && q.b == 0 then some (.mpop q.d q.a)
      else if q.sx == 6 && q.b == 0 then some (.mffs q.d q.a)
      else if q.sx == 7 && q.a == 0 && q.b == 0 then some (.mcur q.d)
      else if q.sx == 8 && q.b == 0 then some (.mspill q.d q.a)
      else if q.sx == 9 && q.b == 0 then some (.mfill l q.d q.a)
      else none
  | 41 => some (.setmode l q.iD q.iA q.imm)
  | 42 => if q.sx == 0 && q.a == 0 && q.b == 0 then some (.getmode q.d)
      else if q.sx == 1 && q.d == 0 && q.a == 0 && q.b &&& 112 == 0 then some (.bar (q.b.extractLsb' 0 4))
      else if q.sx == 1 && q.d == 1 && q.a == 0 && q.b &&& 112 == 0 then some (.barTask (q.b.extractLsb' 0 4))
      else if q.sx == 2 && q.a == 0 && q.b &&& 112 == 0 then some (.bara q.d (q.b.extractLsb' 0 4))
      else if q.sx == 3 && q.d == 0 && q.b &&& 112 == 0 then some (.barw l q.a (q.b.extractLsb' 0 4))
      else if q.sx == 4 && q.d == 0 && q.b &&& 112 == 0 then some (.barc l q.a (q.b.extractLsb' 0 4))
      else if q.sx == 5 && q.a == 0 && q.b == 0 then some (.role q.d)
      else if q.sx == 6 && q.a == 0 && q.b == 0 then some (.teamid q.d)
      else if q.sx == 7 && q.a == 0 && q.b == 0 then some (.nteam q.d)
      else if q.sx == 8 && q.a == 0 && q.b == 0 then some (.gridid q.d)
      else if q.sx == 9 && q.a == 0 && q.b &&& 126 == 0 then some (.lclk q.d (q.b.extractLsb' 0 1))
      else if q.sx == 10 && q.d == 0 && q.a == 0 && q.b == 0 then some (.taskend)
      else if q.sx == 11 && q.d == 0 && q.a == 0 && q.b == 0 then some (.safept)
      else none
  | 43 => if q.d &&& 96 == 0 then some (.ecard l q.sx (q.d.extractLsb' 4 1) (q.d.extractLsb' 0 4) q.a q.b)
      else none
  | 44 => if q.sx == 0 && q.d &&& 112 == 0 && q.b == 0 then some (.etail l (q.d.extractLsb' 0 4) q.a)
      else if q.sx == 1 && q.a == 0 && q.b &&& 64 == 0 then some (.eseq q.d (q.b.extractLsb' 4 2) (q.b.extractLsb' 0 4))
      else if q.sx == 2 && q.d == 0 && q.b &&& 112 == 0 then some (.ewait l q.a (q.b.extractLsb' 0 4))
      else if q.sx == 3 && q.d == 0 then some (.graph l q.a q.b)
      else if q.sx == 4 && q.d == 0 then some (.gcond l q.a q.b)
      else none
  | 45 => if q.b &&& 64 == 0 then some (.ldmb q.sx q.d q.a (q.b.extractLsb' 5 1) (q.b.extractLsb' 0 5))
      else none
  | 46 => if q.d &&& 126 == 0 then some (.mstart l q.sx (q.d.extractLsb' 0 1) q.a q.b)
      else none
  | 47 => if q.sx == 0 && q.b == 0 then some (.maccRd l q.d q.a)
      else if q.sx == 1 && q.d == 0 then some (.maccWr l q.a q.b)
      else none
  | 48 => if q.sx == 0 && q.d == 0 && q.a == 0 then some (.trap q.b)
      else if q.sx == 1 && q.d == 0 && q.a == 0 && q.b == 0 then some (.eret)
      else if q.sx == 2 && q.d == 0 && q.a == 0 && q.b &&& 126 == 0 then some (.emret (q.b.extractLsb' 0 1))
      else if q.sx == 3 && q.a == 0 && q.b &&& 112 == 0 then some (.wrd q.d (q.b.extractLsb' 2 2) (q.b.extractLsb' 0 2))
      else if q.sx == 4 && q.d == 0 && q.b &&& 112 == 0 then some (.wwr l q.a (q.b.extractLsb' 2 2) (q.b.extractLsb' 0 2))
      else if q.sx == 5 && q.a == 0 && q.b &&& 120 == 0 then some (.winfo q.d (q.b.extractLsb' 0 3))
      else if q.sx == 6 && q.a == 0 then some (.csrr q.d q.b)
      else if q.sx == 7 && q.d == 0 then some (.csrw l q.a q.b)
      else if q.sx == 8 && q.d == 0 && q.b &&& 120 == 0 then some (.segld q.a (q.b.extractLsb' 0 3))
      else if q.sx == 9 && q.d == 0 && q.a == 116 && q.b == 0 then some (.tlbinv)
      else if q.sx == 9 && q.d == 0 && q.b == 1 then some (.tlbinvVa q.a)
      else if q.sx == 10 && q.d == 0 && q.a == 0 then some (.dbgbrk q.b)
      else if q.sx == 11 && q.d == 0 && q.a == 0 && q.b == 0 then some (.halt)
      else none
  | _ => none

/-- The cells of majors 0x38 to 0x6C: memory, atomics, cache control, waits and fences (R61, R247, R273, R277). -/
def cellMem (p : Option Pfx) (l : Option Word) (q : Parts) : Option Instr :=
  match q.op.toNat with
  | 56 => some (.ldGB p q.sx q.d q.a q.b)
  | 57 => some (.ldGH p q.sx q.d q.a q.b)
  | 58 => some (.ldGW p q.sx q.d q.a q.b)
  | 59 => some (.ldGD p q.sx q.d q.a q.b)
  | 60 => some (.ldGQ p q.sx q.d q.a q.b)
  | 61 => some (.ldSB p q.sx q.d q.a q.b)
  | 62 => some (.ldSH p q.sx q.d q.a q.b)
  | 63 => some (.ldSW p q.sx q.d q.a q.b)
  | 64 => some (.ldSD p q.sx q.d q.a q.b)
  | 65 => some (.ldSQ p q.sx q.d q.a q.b)
  | 66 => some (.ldCB p q.sx q.d q.a q.b)
  | 67 => some (.ldCH p q.sx q.d q.a q.b)
  | 68 => some (.ldCW p q.sx q.d q.a q.b)
  | 69 => some (.ldCD p q.sx q.d q.a q.b)
  | 70 => some (.ldCQ p q.sx q.d q.a q.b)
  | 71 => some (.ldLB p q.sx q.d q.a q.b)
  | 72 => some (.ldLH p q.sx q.d q.a q.b)
  | 73 => some (.ldLW p q.sx q.d q.a q.b)
  | 74 => some (.ldLD p q.sx q.d q.a q.b)
  | 75 => some (.ldLQ p q.sx q.d q.a q.b)
  | 76 => some (.stGB p q.sx q.d q.a q.b)
  | 77 => some (.stGH p q.sx q.d q.a q.b)
  | 78 => some (.stGW p q.sx q.d q.a q.b)
  | 79 => some (.stGD p q.sx q.d q.a q.b)
  | 80 => some (.stGQ p q.sx q.d q.a q.b)
  | 81 => some (.stSB p q.sx q.d q.a q.b)
  | 82 => some (.stSH p q.sx q.d q.a q.b)
  | 83 => some (.stSW p q.sx q.d q.a q.b)
  | 84 => some (.stSD p q.sx q.d q.a q.b)
  | 85 => some (.stSQ p q.sx q.d q.a q.b)
  | 86 => some (.stLB p q.sx q.d q.a q.b)
  | 87 => some (.stLH p q.sx q.d q.a q.b)
  | 88 => some (.stLW p q.sx q.d q.a q.b)
  | 89 => some (.stLD p q.sx q.d q.a q.b)
  | 90 => some (.stLQ p q.sx q.d q.a q.b)
  | 91 => some (.ldGAcqW p q.sx q.d q.a (q.b.extractLsb' 4 3) (q.b.extractLsb' 0 4))
  | 92 => some (.ldGAcqD p q.sx q.d q.a (q.b.extractLsb' 4 3) (q.b.extractLsb' 0 4))
  | 93 => some (.ldSAcqW p q.sx q.d q.a (q.b.extractLsb' 4 3) (q.b.extractLsb' 0 4))
  | 94 => some (.ldSAcqD p q.sx q.d q.a (q.b.extractLsb' 4 3) (q.b.extractLsb' 0 4))
  | 95 => some (.stGRelW p q.sx q.d q.a (q.b.extractLsb' 4 3) (q.b.extractLsb' 0 4))
  | 96 => some (.stGRelD p q.sx q.d q.a (q.b.extractLsb' 4 3) (q.b.extractLsb' 0 4))
  | 97 => some (.stSRelW p q.sx q.d q.a (q.b.extractLsb' 4 3) (q.b.extractLsb' 0 4))
  | 98 => some (.stSRelD p q.sx q.d q.a (q.b.extractLsb' 4 3) (q.b.extractLsb' 0 4))
  | 99 => some (.atomGW p q.sx q.d q.a (q.b.extractLsb' 4 3) (q.b.extractLsb' 0 4))
  | 100 => some (.atomGD p q.sx q.d q.a (q.b.extractLsb' 4 3) (q.b.extractLsb' 0 4))
  | 101 => some (.atomSW p q.sx q.d q.a (q.b.extractLsb' 4 3) (q.b.extractLsb' 0 4))
  | 102 => some (.atomSD p q.sx q.d q.a (q.b.extractLsb' 4 3) (q.b.extractLsb' 0 4))
  | 103 => some (.redmGW p q.sx q.d q.a (q.b.extractLsb' 4 3) (q.b.extractLsb' 0 4))
  | 104 => some (.redmGD p q.sx q.d q.a (q.b.extractLsb' 4 3) (q.b.extractLsb' 0 4))
  | 105 => some (.ldv p q.sx q.d q.a (q.b.extractLsb' 4 3) (q.b.extractLsb' 2 2) (q.b.extractLsb' 0 2))
  | 106 => some (.stv p q.sx q.d q.a (q.b.extractLsb' 4 3) (q.b.extractLsb' 2 2) (q.b.extractLsb' 0 2))
  | 107 => if q.d == 0 then some (.prf q.sx q.a q.b)
      else if q.d == 1 then some (.cwb q.sx q.a q.b)
      else if q.d == 2 then some (.cinv q.sx q.a q.b)
      else none
  | 108 => if q.sx == 0 && q.d == 0 && q.b &&& 120 == 0 then some (.waitc l q.a (q.b.extractLsb' 0 3))
      else if q.sx == 1 && q.a == 0 && q.b &&& 112 == 0 then some (.segrd q.d (q.b.extractLsb' 3 1) (q.b.extractLsb' 0 3))
      else if q.sx == 2 && q.d == 0 && q.a == 0 && q.b &&& 120 == 0 then some (.fence (q.b.extractLsb' 0 3))
      else none
  | _ => none

/-- The instruction the map names for a main word with its prefix and literal; none where the cell names none or an unused
field is not zero (R38, R60, R61). -/
def cellInstr (p : Option Pfx) (l : Option Word) (q : Parts) : Option Instr :=
  if q.op.toNat < 0x10 then cellArith p l q
  else if q.op.toNat < 0x20 then cellFloat p l q
  else if q.op.toNat < 0x38 then cellFlow p l q
  else cellMem p l q

/-- Whether R449 counts a literal for a word that traps at decode. -/
def countedLiteral (p : Option Pfx) (q : Parts) : Bool :=
  (countsLiteral q.op.toNat
    && (q.d == 0x76 || q.a == 0x76 || q.b == 0x76
        || (match p with
            | some f => f.o4en && f.op4 == 0x76
            | none => false)))
  || (q.op == 0x29 && q.iA == 0x76)

/-- Whether a literal follows the main word: by R39 where the decode checks that need no role budget pass, else by R449. -/
def takesLiteral (p : Option Pfx) (q : Parts) : Bool :=
  match cellInstr p none q with
  | some i =>
    match i.form with
    | some f => if f.ok 256 then f.immCount != 0 else countedLiteral p q
    | none => countedLiteral p q
  | none => countedLiteral p q

/-- The checks R351 makes of a word of majors 0x18 to 0x1F: the prefix fields of R43, code 0x77, a second code 0x76. -/
def juryrigCellOk (p : Option Pfx) (q : Parts) : Bool :=
  (match p with
   | some f => f.rndo != 7 && f.eto.toNat ≤ 9 && f.op4 != 0x77
   | none => true)
  && q.d != 0x77 && q.a != 0x77 && q.b != 0x77
  && decide ((([q.d, q.a, q.b] ++ (match p with
      | some f => if f.o4en then [f.op4] else []
      | none => [])).filter (· == 0x76)).length ≤ 1)

/-- The instruction of a main word with its prefix and the literal that `takesLiteral` says it has: the map's fate (R43, R60-R63). -/
def decodeMain (p : Option Pfx) (w : Word) (l : Option Word) : Instr :=
  let q := Parts.ofWord w
  let raw := RawWord.group (p.map Pfx.toWord) w l
  if 0x70 ≤ q.op.toNat && q.op.toNat ≤ 0x77 then (if p.isSome then .illegal raw else .vendorTest raw)
  else if 0x18 ≤ q.op.toNat && q.op.toNat ≤ 0x1F then (if juryrigCellOk p q then .juryrig raw else .illegal raw)
  else
    match cellInstr p l q with
    | some i => if p.isSome && !pfxableCell q.op.toNat q.sx.toNat then .illegal raw else i
    | none => .illegal raw

/-- Bit fields [57:0] of an F-X word that a stream word does not list are zero (R64, R316): `used` is the mask of the listed bits. -/
def streamFieldsOk (w : DWord) (used : DWord) : Bool := (w.setWidth 58).setWidth 64 &&& ~~~used == 0

/-- The stream word of an F-X word (R64, R65, R316). -/
def decodeStream (w : DWord) : Instr :=
  let xop := (w.extractLsb' 58 6).toNat
  let raw := RawWord.stream w
  let f := fun (used : DWord) (i : Instr) => if streamFieldsOk w used then i else .illegal raw
  if xop = 0x01 then
    f 0x3FFFFFFFFFC0000 (.mlda (w.extractLsb' 53 5) (w.extractLsb' 52 1) (w.extractLsb' 50 2) (w.extractLsb' 34 16) (w.extractLsb' 18 16))
  else if xop = 0x02 then
    f 0x3FFFF0000000000 (.mma (w.extractLsb' 53 5) (w.extractLsb' 48 5) (w.extractLsb' 46 2) (w.extractLsb' 43 3) (w.extractLsb' 42 1)
      (w.extractLsb' 41 1) (w.extractLsb' 40 1))
  else if xop = 0x03 then f 0x0000F80000000000 (.mzero (w.extractLsb' 46 2) (w.extractLsb' 43 3))
  else if xop = 0x04 then
    f 0x3FCFFFFFFFFFFFC (.mdrain
      { ofmt := w.extractLsb' 53 5, rnd := w.extractLsb' 50 3, atype := w.extractLsb' 46 2, slot := w.extractLsb' 43 3,
        lsel := w.extractLsb' 41 2, doff := w.extractLsb' 25 16, dstride := w.extractLsb' 9 16, mscope := w.extractLsb' 6 3,
        maxen := w.extractLsb' 5 1, srsel := w.extractLsb' 3 2, clr := w.extractLsb' 2 1 })
  else if xop = 0x05 then f 0x3C0000000000000 (.marrb (w.extractLsb' 54 4))
  else if xop = 0x06 then f 0x3C0000000000000 (.mwaitb (w.extractLsb' 54 4))
  else if xop = 0x07 then f 0x3FFFFFF00000000 (.mloop (w.extractLsb' 42 16) (w.extractLsb' 32 10))
  else if xop = 0x08 then f 0x3FCF80000000000 (.mscale (w.extractLsb' 50 8) (w.extractLsb' 46 2) (w.extractLsb' 43 3))
  else if xop = 0x09 then f 0 .mend
  else if xop = 0x0A then f 0x39FFFE000000 (.maccRdStream (w.extractLsb' 43 3) (w.extractLsb' 25 16))
  else if xop = 0x0B then f 0x39FFFE000000 (.maccWrStream (w.extractLsb' 43 3) (w.extractLsb' 25 16))
  else if 0x30 ≤ xop && xop ≤ 0x37 then .juryrig raw
  else if 0x38 ≤ xop && xop ≤ 0x3F then .vendorTest raw
  else .illegal raw

/-- Why bytes hold no whole instruction: the word that is missing (R30). -/
inductive DecodeError where
  /-- fewer than 4 bytes: no main word or prefix -/
  | noWord
  /-- a prefix with no main word after it -/
  | noMainWord
  /-- a main word whose literal is missing -/
  | noLiteral
  deriving DecidableEq, Repr

/-- A group instruction read from its words, with its length in bytes (R30, R43, R449): a prefix followed by a prefix stands alone. -/
def decodeWords (w0 : Word) (w1 w2 : Option Word) : Except DecodeError (Instr × Nat) :=
  if w0.extractLsb' 25 7 == 0x7F#7 then
    match w1 with
    | none => .error .noMainWord
    | some m =>
      if m.extractLsb' 25 7 == 0x7F#7 then .ok (.illegal (.group none w0 none), 4)
      else if takesLiteral (some (Pfx.ofWord w0)) (Parts.ofWord m) then
        match w2 with
        | none => .error .noLiteral
        | some l => .ok (decodeMain (some (Pfx.ofWord w0)) m (some l), 12)
      else .ok (decodeMain (some (Pfx.ofWord w0)) m none, 8)
  else if takesLiteral none (Parts.ofWord w0) then
    match w1 with
    | none => .error .noLiteral
    | some l => .ok (decodeMain none w0 (some l), 8)
  else .ok (decodeMain none w0 none, 4)

/-- The little-endian word at the head of a byte list, with the rest (R3). -/
def takeWord : List Byte → Option (Word × List Byte)
  | b0 :: b1 :: b2 :: b3 :: rest => some (b3 ++ b2 ++ b1 ++ b0, rest)
  | _ => none

/-- The group instruction at the head of a byte list, with the bytes after it, or the word that is missing, by name (R30). -/
def decode (bytes : List Byte) : Except DecodeError (Instr × List Byte) :=
  match takeWord bytes with
  | none => .error .noWord
  | some (w0, r0) =>
    let w1 := takeWord r0
    let w2 := w1.bind (fun x => takeWord x.2)
    match decodeWords w0 (w1.map (·.1)) (w2.map (·.1)) with
    | .error e => .error e
    | .ok (i, n) => .ok (i, bytes.drop n)

/-- The F-P word, the parts of the main word and the literal that encode a group instruction (R33, R41, R61). -/
def Instr.words? : Instr → Option (Option Pfx × Parts × Option Word)
  | .iadd x d a b => some (x.pfx, ⟨1#7, 0#4, d, a, b⟩, x.lit)
  | .isub x d a b => some (x.pfx, ⟨1#7, 1#4, d, a, b⟩, x.lit)
  | .imul x d a b => some (x.pfx, ⟨1#7, 2#4, d, a, b⟩, x.lit)
  | .imulh x d a b => some (x.pfx, ⟨1#7, 3#4, d, a, b⟩, x.lit)
  | .imad x d a b => some (x.pfx, ⟨1#7, 4#4, d, a, b⟩, x.lit)
  | .imadw x d a b => some (x.pfx, ⟨1#7, 5#4, d, a, b⟩, x.lit)
  | .ineg x d a => some (x.pfx, ⟨1#7, 6#4, d, a, 0#7⟩, x.lit)
  | .iabs x d a => some (x.pfx, ⟨1#7, 7#4, d, a, 0#7⟩, x.lit)
  | .imin x d a b => some (x.pfx, ⟨1#7, 8#4, d, a, b⟩, x.lit)
  | .imax x d a b => some (x.pfx, ⟨1#7, 9#4, d, a, b⟩, x.lit)
  | .isel x d a b => some (x.pfx, ⟨1#7, 10#4, d, a, b⟩, x.lit)
  | .sad x d a b => some (x.pfx, ⟨1#7, 11#4, d, a, b⟩, x.lit)
  | .dot4 x d a b => some (x.pfx, ⟨1#7, 12#4, d, a, b⟩, x.lit)
  | .lea x d a b => some (x.pfx, ⟨1#7, 13#4, d, a, b⟩, x.lit)
  | .aadd x d a b => some (x.pfx, ⟨1#7, 14#4, d, a, b⟩, x.lit)
  | .icmp x c d a b => some (x.pfx, ⟨2#7, c, d, a, b⟩, x.lit)
  | .and x d a b => some (x.pfx, ⟨3#7, 0#4, d, a, b⟩, x.lit)
  | .or x d a b => some (x.pfx, ⟨3#7, 1#4, d, a, b⟩, x.lit)
  | .xor x d a b => some (x.pfx, ⟨3#7, 2#4, d, a, b⟩, x.lit)
  | .not x d a => some (x.pfx, ⟨3#7, 3#4, d, a, 0#7⟩, x.lit)
  | .andn x d a b => some (x.pfx, ⟨3#7, 4#4, d, a, b⟩, x.lit)
  | .shl x d a b => some (x.pfx, ⟨3#7, 5#4, d, a, b⟩, x.lit)
  | .shr x d a b => some (x.pfx, ⟨3#7, 6#4, d, a, b⟩, x.lit)
  | .sar x d a b => some (x.pfx, ⟨3#7, 7#4, d, a, b⟩, x.lit)
  | .rol x d a b => some (x.pfx, ⟨3#7, 8#4, d, a, b⟩, x.lit)
  | .shf x d a b => some (x.pfx, ⟨3#7, 9#4, d, a, b⟩, x.lit)
  | .popc x d a => some (x.pfx, ⟨4#7, 0#4, d, a, 0#7⟩, x.lit)
  | .clz x d a => some (x.pfx, ⟨4#7, 1#4, d, a, 0#7⟩, x.lit)
  | .ctz x d a => some (x.pfx, ⟨4#7, 2#4, d, a, 0#7⟩, x.lit)
  | .brev x d a => some (x.pfx, ⟨4#7, 3#4, d, a, 0#7⟩, x.lit)
  | .bfe x d a b => some (x.pfx, ⟨4#7, 4#4, d, a, b⟩, x.lit)
  | .bfi x d a b => some (x.pfx, ⟨4#7, 5#4, d, a, b⟩, x.lit)
  | .bytesel x d a b => some (x.pfx, ⟨4#7, 6#4, d, a, b⟩, x.lit)
  | .mov x d a => some (x.pfx, ⟨5#7, 0#4, d, a, 0#7⟩, x.lit)
  | .s2v d a => some (none, ⟨5#7, 1#4, d, a, 0#7⟩, none)
  | .v2s l d a => some (none, ⟨5#7, 2#4, d, a, 0#7⟩, l)
  | .idiv x d a b => some (x.pfx, ⟨6#7, 0#4, d, a, b⟩, x.lit)
  | .irem x d a b => some (x.pfx, ⟨6#7, 1#4, d, a, b⟩, x.lit)
  | .movi p d sh imm => some (p, ⟨7#7, d.extractLsb' 3 4, d.extractLsb' 0 3 ++ sh.extractLsb' 3 4, sh.extractLsb' 0 3 ++ imm.extractLsb' 7 4, imm.extractLsb' 0 7⟩, none)
  | .ldi p d imm => some (p, ⟨8#7, d.extractLsb' 3 4, d.extractLsb' 0 3 ++ 0#4, 0#3 ++ imm.extractLsb' 7 4, imm.extractLsb' 0 7⟩, none)
  | .sadd l d a b => some (none, ⟨9#7, 0#4, d, a, b⟩, l)
  | .ssub l d a b => some (none, ⟨9#7, 1#4, d, a, b⟩, l)
  | .smul l d a b => some (none, ⟨9#7, 2#4, d, a, b⟩, l)
  | .sshl l d a b => some (none, ⟨9#7, 3#4, d, a, b⟩, l)
  | .sshr l d a b => some (none, ⟨9#7, 4#4, d, a, b⟩, l)
  | .sand l d a b => some (none, ⟨9#7, 5#4, d, a, b⟩, l)
  | .sor l d a b => some (none, ⟨9#7, 6#4, d, a, b⟩, l)
  | .sxor l d a b => some (none, ⟨9#7, 7#4, d, a, b⟩, l)
  | .ssel l d a b => some (none, ⟨9#7, 8#4, d, a, b⟩, l)
  | .smov l d a => some (none, ⟨9#7, 9#4, d, a, 0#7⟩, l)
  | .scmp l c d a b => some (none, ⟨10#7, c, d, a, b⟩, l)
  | .fadd x d a b => some (x.pfx, ⟨16#7, 0#4, d, a, b⟩, x.lit)
  | .fsub x d a b => some (x.pfx, ⟨16#7, 1#4, d, a, b⟩, x.lit)
  | .fmul x d a b => some (x.pfx, ⟨16#7, 2#4, d, a, b⟩, x.lit)
  | .ffma x d a b => some (x.pfx, ⟨16#7, 3#4, d, a, b⟩, x.lit)
  | .fmin x d a b => some (x.pfx, ⟨16#7, 4#4, d, a, b⟩, x.lit)
  | .fmax x d a b => some (x.pfx, ⟨16#7, 5#4, d, a, b⟩, x.lit)
  | .fminNum x d a b => some (x.pfx, ⟨16#7, 6#4, d, a, b⟩, x.lit)
  | .fmaxNum x d a b => some (x.pfx, ⟨16#7, 7#4, d, a, b⟩, x.lit)
  | .fabs x d a => some (x.pfx, ⟨16#7, 8#4, d, a, 0#7⟩, x.lit)
  | .fneg x d a => some (x.pfx, ⟨16#7, 9#4, d, a, 0#7⟩, x.lit)
  | .frnd x d a => some (x.pfx, ⟨16#7, 10#4, d, a, 0#7⟩, x.lit)
  | .fclass x d a => some (x.pfx, ⟨16#7, 11#4, d, a, 0#7⟩, x.lit)
  | .fscale x d a b => some (x.pfx, ⟨16#7, 12#4, d, a, b⟩, x.lit)
  | .fcmp x c d a b => some (x.pfx, ⟨17#7, c, d, a, b⟩, x.lit)
  | .cvtF2i x d a e => some (x.pfx, ⟨18#7, 0#4, d, a, 0#3 ++ e⟩, x.lit)
  | .cvtI2f x d a e => some (x.pfx, ⟨18#7, 1#4, d, a, 0#3 ++ e⟩, x.lit)
  | .cvtF2f x d a h e => some (x.pfx, ⟨18#7, 2#4, d, a, 0#2 ++ h ++ e⟩, x.lit)
  | .qnt x d a fmt => some (x.pfx, ⟨18#7, 3#4, d, a, 0#2 ++ fmt⟩, x.lit)
  | .dqnt x d a fmt => some (x.pfx, ⟨18#7, 4#4, d, a, 0#2 ++ fmt⟩, x.lit)
  | .mxsc x d a fmt => some (x.pfx, ⟨18#7, 5#4, d, a, 0#2 ++ fmt⟩, x.lit)
  | .pack x d a b => some (x.pfx, ⟨18#7, 6#4, d, a, b⟩, x.lit)
  | .unpk x d a => some (x.pfx, ⟨18#7, 7#4, d, a, 0#7⟩, x.lit)
  | .rng x d a => some (x.pfx, ⟨18#7, 8#4, d, a, 0#7⟩, x.lit)
  | .flags l d a => some (none, ⟨18#7, 9#4, d, a, 0#7⟩, l)
  | .rcp p k d a => some (p, ⟨19#7, k, d, a, 0#7⟩, none)
  | .rsq p k d a => some (p, ⟨19#7, k, d, a, 1#7⟩, none)
  | .sqrt p k d a => some (p, ⟨19#7, k, d, a, 2#7⟩, none)
  | .ex2 p k d a => some (p, ⟨19#7, k, d, a, 3#7⟩, none)
  | .lg2 p k d a => some (p, ⟨19#7, k, d, a, 4#7⟩, none)
  | .sinpi p k d a => some (p, ⟨19#7, k, d, a, 5#7⟩, none)
  | .cospi p k d a => some (p, ⟨19#7, k, d, a, 6#7⟩, none)
  | .tanh p k d a => some (p, ⟨19#7, k, d, a, 7#7⟩, none)
  | .sigm p k d a => some (p, ⟨19#7, k, d, a, 8#7⟩, none)
  | .lreadAt x d a b => some (x.pfx, ⟨20#7, 0#4, d, a, b⟩, x.lit)
  | .lreadBack x d a b => some (x.pfx, ⟨20#7, 1#4, d, a, b⟩, x.lit)
  | .lreadFwd x d a b => some (x.pfx, ⟨20#7, 2#4, d, a, b⟩, x.lit)
  | .lreadFlip x d a b => some (x.pfx, ⟨20#7, 3#4, d, a, b⟩, x.lit)
  | .bcast x d a b => some (x.pfx, ⟨20#7, 4#4, d, a, b⟩, x.lit)
  | .voteAny x d a => some (x.pfx, ⟨20#7, 5#4, d, a, 0#7⟩, x.lit)
  | .voteAll x d a => some (x.pfx, ⟨20#7, 6#4, d, a, 0#7⟩, x.lit)
  | .voteBal x d a b => some (x.pfx, ⟨20#7, 7#4, d, a, b⟩, x.lit)
  | .lane d => some (none, ⟨20#7, 8#4, d, 0#7, 0#7⟩, none)
  | .grpid d => some (none, ⟨20#7, 9#4, d, 0#7, 0#7⟩, none)
  | .getw d => some (none, ⟨20#7, 10#4, d, 0#7, 0#7⟩, none)
  | .setw l a => some (none, ⟨20#7, 11#4, 0#7, a, 0#7⟩, l)
  | .matchLanes p k d a => some (p, ⟨21#7, k, d, a, 0#7⟩, none)
  | .redAdd p k d a => some (p, ⟨22#7, k, d, a, 0#7⟩, none)
  | .redMin p k d a => some (p, ⟨22#7, k, d, a, 1#7⟩, none)
  | .redMax p k d a => some (p, ⟨22#7, k, d, a, 2#7⟩, none)
  | .redBitAnd p k d a => some (p, ⟨22#7, k, d, a, 3#7⟩, none)
  | .redBitOr p k d a => some (p, ⟨22#7, k, d, a, 4#7⟩, none)
  | .redBitXor p k d a => some (p, ⟨22#7, k, d, a, 5#7⟩, none)
  | .scanAdd p k d a => some (p, ⟨22#7, k, d, a, 6#7⟩, none)
  | .scanMax p k d a => some (p, ⟨22#7, k, d, a, 7#7⟩, none)
  | .csamp p k d a => some (p, ⟨22#7, k, d, a, 8#7⟩, none)
  | .bra c off => some (none, ⟨32#7, c, off.extractLsb' 14 7, off.extractLsb' 7 7, off.extractLsb' 0 7⟩, none)
  | .brx c off => some (none, ⟨33#7, c, off.extractLsb' 14 7, off.extractLsb' 7 7, off.extractLsb' 0 7⟩, none)
  | .brz c off => some (none, ⟨34#7, c, off.extractLsb' 14 7, off.extractLsb' 7 7, off.extractLsb' 0 7⟩, none)
  | .join off => some (none, ⟨35#7, 0#4, off.extractLsb' 14 7, off.extractLsb' 7 7, off.extractLsb' 0 7⟩, none)
  | .leave n => some (none, ⟨36#7, n, 0#7, 0#7, 0#7⟩, none)
  | .cont off => some (none, ⟨37#7, 0#4, off.extractLsb' 14 7, off.extractLsb' 7 7, off.extractLsb' 0 7⟩, none)
  | .call off => some (none, ⟨38#7, 0#4, off.extractLsb' 14 7, off.extractLsb' 7 7, off.extractLsb' 0 7⟩, none)
  | .calli a => some (none, ⟨39#7, 0#4, 0#7, a, 0#7⟩, none)
  | .ret => some (none, ⟨39#7, 1#4, 0#7, 0#7, 0#7⟩, none)
  | .yield => some (none, ⟨39#7, 2#4, 0#7, 0#7, 0#7⟩, none)
  | .exit l a b => some (none, ⟨39#7, 3#4, 0#7, a, b⟩, l)
  | .nop => some (none, ⟨39#7, 4#4, 0#7, 0#7, 0#7⟩, none)
  | .mand d a b => some (none, ⟨40#7, 0#4, d, a, b⟩, none)
  | .mor d a b => some (none, ⟨40#7, 1#4, d, a, b⟩, none)
  | .mxor d a b => some (none, ⟨40#7, 2#4, d, a, b⟩, none)
  | .mnot d a => some (none, ⟨40#7, 3#4, d, a, 0#7⟩, none)
  | .mandn d a b => some (none, ⟨40#7, 4#4, d, a, b⟩, none)
  | .mpop d a => some (none, ⟨40#7, 5#4, d, a, 0#7⟩, none)
  | .mffs d a => some (none, ⟨40#7, 6#4, d, a, 0#7⟩, none)
  | .mcur d => some (none, ⟨40#7, 7#4, d, 0#7, 0#7⟩, none)
  | .mspill d a => some (none, ⟨40#7, 8#4, d, a, 0#7⟩, none)
  | .mfill l d a => some (none, ⟨40#7, 9#4, d, a, 0#7⟩, l)
  | .setmode l m a imm => some (none, ⟨41#7, m.extractLsb' 3 4, m.extractLsb' 0 3 ++ a.extractLsb' 3 4, a.extractLsb' 0 3 ++ imm.extractLsb' 7 4, imm.extractLsb' 0 7⟩, l)
  | .getmode d => some (none, ⟨42#7, 0#4, d, 0#7, 0#7⟩, none)
  | .bar n => some (none, ⟨42#7, 1#4, 0#7, 0#7, 0#3 ++ n⟩, none)
  | .barTask n => some (none, ⟨42#7, 1#4, 1#7, 0#7, 0#3 ++ n⟩, none)
  | .bara d n => some (none, ⟨42#7, 2#4, d, 0#7, 0#3 ++ n⟩, none)
  | .barw l a n => some (none, ⟨42#7, 3#4, 0#7, a, 0#3 ++ n⟩, l)
  | .barc l a n => some (none, ⟨42#7, 4#4, 0#7, a, 0#3 ++ n⟩, l)
  | .role d => some (none, ⟨42#7, 5#4, d, 0#7, 0#7⟩, none)
  | .teamid d => some (none, ⟨42#7, 6#4, d, 0#7, 0#7⟩, none)
  | .nteam d => some (none, ⟨42#7, 7#4, d, 0#7, 0#7⟩, none)
  | .gridid d => some (none, ⟨42#7, 8#4, d, 0#7, 0#7⟩, none)
  | .lclk d h => some (none, ⟨42#7, 9#4, d, 0#7, 0#6 ++ h⟩, none)
  | .taskend => some (none, ⟨42#7, 10#4, 0#7, 0#7, 0#7⟩, none)
  | .safept => some (none, ⟨42#7, 11#4, 0#7, 0#7, 0#7⟩, none)
  | .ecard l k h c a b => some (none, ⟨43#7, k, 0#2 ++ h ++ c, a, b⟩, l)
  | .etail l c a => some (none, ⟨44#7, 0#4, 0#3 ++ c, a, 0#7⟩, l)
  | .eseq d sel c => some (none, ⟨44#7, 1#4, d, 0#7, 0#1 ++ sel ++ c⟩, none)
  | .ewait l a c => some (none, ⟨44#7, 2#4, 0#7, a, 0#3 ++ c⟩, l)
  | .graph l a b => some (none, ⟨44#7, 3#4, 0#7, a, b⟩, l)
  | .gcond l a b => some (none, ⟨44#7, 4#4, 0#7, a, b⟩, l)
  | .ldmb k t a sp fmt => some (none, ⟨45#7, k, t, a, 0#1 ++ sp ++ fmt⟩, none)
  | .mstart l k u a b => some (none, ⟨46#7, k, 0#6 ++ u, a, b⟩, l)
  | .maccRd l d a => some (none, ⟨47#7, 0#4, d, a, 0#7⟩, l)
  | .maccWr l a b => some (none, ⟨47#7, 1#4, 0#7, a, b⟩, l)
  | .trap n => some (none, ⟨48#7, 0#4, 0#7, 0#7, n⟩, none)
  | .eret => some (none, ⟨48#7, 1#4, 0#7, 0#7, 0#7⟩, none)
  | .emret lst => some (none, ⟨48#7, 2#4, 0#7, 0#7, 0#6 ++ lst⟩, none)
  | .wrd d j slot => some (none, ⟨48#7, 3#4, d, 0#7, 0#3 ++ j ++ slot⟩, none)
  | .wwr l a j slot => some (none, ⟨48#7, 4#4, 0#7, a, 0#3 ++ j ++ slot⟩, l)
  | .winfo d ix => some (none, ⟨48#7, 5#4, d, 0#7, 0#4 ++ ix⟩, none)
  | .csrr d n => some (none, ⟨48#7, 6#4, d, 0#7, n⟩, none)
  | .csrw l a n => some (none, ⟨48#7, 7#4, 0#7, a, n⟩, l)
  | .segld a g => some (none, ⟨48#7, 8#4, 0#7, a, 0#4 ++ g⟩, none)
  | .tlbinv => some (none, ⟨48#7, 9#4, 0#7, 116#7, 0#7⟩, none)
  | .tlbinvVa a => some (none, ⟨48#7, 9#4, 0#7, a, 1#7⟩, none)
  | .dbgbrk n => some (none, ⟨48#7, 10#4, 0#7, 0#7, n⟩, none)
  | .halt => some (none, ⟨48#7, 11#4, 0#7, 0#7, 0#7⟩, none)
  | .ldGB p k t a disp => some (p, ⟨56#7, k, t, a, disp⟩, none)
  | .ldGH p k t a disp => some (p, ⟨57#7, k, t, a, disp⟩, none)
  | .ldGW p k t a disp => some (p, ⟨58#7, k, t, a, disp⟩, none)
  | .ldGD p k t a disp => some (p, ⟨59#7, k, t, a, disp⟩, none)
  | .ldGQ p k t a disp => some (p, ⟨60#7, k, t, a, disp⟩, none)
  | .ldSB p k t a disp => some (p, ⟨61#7, k, t, a, disp⟩, none)
  | .ldSH p k t a disp => some (p, ⟨62#7, k, t, a, disp⟩, none)
  | .ldSW p k t a disp => some (p, ⟨63#7, k, t, a, disp⟩, none)
  | .ldSD p k t a disp => some (p, ⟨64#7, k, t, a, disp⟩, none)
  | .ldSQ p k t a disp => some (p, ⟨65#7, k, t, a, disp⟩, none)
  | .ldCB p k t a disp => some (p, ⟨66#7, k, t, a, disp⟩, none)
  | .ldCH p k t a disp => some (p, ⟨67#7, k, t, a, disp⟩, none)
  | .ldCW p k t a disp => some (p, ⟨68#7, k, t, a, disp⟩, none)
  | .ldCD p k t a disp => some (p, ⟨69#7, k, t, a, disp⟩, none)
  | .ldCQ p k t a disp => some (p, ⟨70#7, k, t, a, disp⟩, none)
  | .ldLB p k t a disp => some (p, ⟨71#7, k, t, a, disp⟩, none)
  | .ldLH p k t a disp => some (p, ⟨72#7, k, t, a, disp⟩, none)
  | .ldLW p k t a disp => some (p, ⟨73#7, k, t, a, disp⟩, none)
  | .ldLD p k t a disp => some (p, ⟨74#7, k, t, a, disp⟩, none)
  | .ldLQ p k t a disp => some (p, ⟨75#7, k, t, a, disp⟩, none)
  | .stGB p k t a disp => some (p, ⟨76#7, k, t, a, disp⟩, none)
  | .stGH p k t a disp => some (p, ⟨77#7, k, t, a, disp⟩, none)
  | .stGW p k t a disp => some (p, ⟨78#7, k, t, a, disp⟩, none)
  | .stGD p k t a disp => some (p, ⟨79#7, k, t, a, disp⟩, none)
  | .stGQ p k t a disp => some (p, ⟨80#7, k, t, a, disp⟩, none)
  | .stSB p k t a disp => some (p, ⟨81#7, k, t, a, disp⟩, none)
  | .stSH p k t a disp => some (p, ⟨82#7, k, t, a, disp⟩, none)
  | .stSW p k t a disp => some (p, ⟨83#7, k, t, a, disp⟩, none)
  | .stSD p k t a disp => some (p, ⟨84#7, k, t, a, disp⟩, none)
  | .stSQ p k t a disp => some (p, ⟨85#7, k, t, a, disp⟩, none)
  | .stLB p k t a disp => some (p, ⟨86#7, k, t, a, disp⟩, none)
  | .stLH p k t a disp => some (p, ⟨87#7, k, t, a, disp⟩, none)
  | .stLW p k t a disp => some (p, ⟨88#7, k, t, a, disp⟩, none)
  | .stLD p k t a disp => some (p, ⟨89#7, k, t, a, disp⟩, none)
  | .stLQ p k t a disp => some (p, ⟨90#7, k, t, a, disp⟩, none)
  | .ldGAcqW p k t a sc disp => some (p, ⟨91#7, k, t, a, sc ++ disp⟩, none)
  | .ldGAcqD p k t a sc disp => some (p, ⟨92#7, k, t, a, sc ++ disp⟩, none)
  | .ldSAcqW p k t a sc disp => some (p, ⟨93#7, k, t, a, sc ++ disp⟩, none)
  | .ldSAcqD p k t a sc disp => some (p, ⟨94#7, k, t, a, sc ++ disp⟩, none)
  | .stGRelW p k t a sc disp => some (p, ⟨95#7, k, t, a, sc ++ disp⟩, none)
  | .stGRelD p k t a sc disp => some (p, ⟨96#7, k, t, a, sc ++ disp⟩, none)
  | .stSRelW p k t a sc disp => some (p, ⟨97#7, k, t, a, sc ++ disp⟩, none)
  | .stSRelD p k t a sc disp => some (p, ⟨98#7, k, t, a, sc ++ disp⟩, none)
  | .atomGW p k t a sc op => some (p, ⟨99#7, k, t, a, sc ++ op⟩, none)
  | .atomGD p k t a sc op => some (p, ⟨100#7, k, t, a, sc ++ op⟩, none)
  | .atomSW p k t a sc op => some (p, ⟨101#7, k, t, a, sc ++ op⟩, none)
  | .atomSD p k t a sc op => some (p, ⟨102#7, k, t, a, sc ++ op⟩, none)
  | .redmGW p k t a sc op => some (p, ⟨103#7, k, t, a, sc ++ op⟩, none)
  | .redmGD p k t a sc op => some (p, ⟨104#7, k, t, a, sc ++ op⟩, none)
  | .ldv p k t a g w h => some (p, ⟨105#7, k, t, a, g ++ w ++ h⟩, none)
  | .stv p k t a g w h => some (p, ⟨106#7, k, t, a, g ++ w ++ h⟩, none)
  | .prf k a disp => some (none, ⟨107#7, k, 0#7, a, disp⟩, none)
  | .cwb k a disp => some (none, ⟨107#7, k, 1#7, a, disp⟩, none)
  | .cinv k a disp => some (none, ⟨107#7, k, 2#7, a, disp⟩, none)
  | .waitc l a path => some (none, ⟨108#7, 0#4, 0#7, a, 0#4 ++ path⟩, l)
  | .segrd d lim g => some (none, ⟨108#7, 1#4, d, 0#7, 0#3 ++ lim ++ g⟩, none)
  | .fence sc => some (none, ⟨108#7, 2#4, 0#7, 0#7, 0#4 ++ sc⟩, none)
  | _ => none

/-- The words of a group instruction: F-P word, main word, literal (R30). Fates encode as the words they hold. -/
def encode (i : Instr) : Option (List Word) :=
  match i with
  | .illegal (.group p w l) | .juryrig (.group p w l) | .vendorTest (.group p w l) => some (p.toList ++ [w] ++ l.toList)
  | _ => i.words?.map (fun x => (x.1.map Pfx.toWord).toList ++ [x.2.1.toWord] ++ x.2.2.toList)

/-- The bytes of a list of words, each little-endian, in address order (R3). -/
def wordBytes : List Word → List Byte
  | [] => []
  | w :: ws => w.extractLsb' 0 8 :: w.extractLsb' 8 8 :: w.extractLsb' 16 8 :: w.extractLsb' 24 8 :: wordBytes ws

/-- The F-X word of a stream word (R64, R65, R316). -/
def encodeStream : Instr → Option DWord
  | .mlda f ab ls st off => some (0x01#6 ++ f ++ ab ++ ls ++ st ++ off ++ 0#18)
  | .mma af bf at' sl ab bb ovw => some (0x02#6 ++ af ++ bf ++ at' ++ sl ++ ab ++ bb ++ ovw ++ 0#40)
  | .mzero at' sl => some (0x03#6 ++ 0#10 ++ at' ++ sl ++ 0#43)
  | .mdrain f => some (0x04#6 ++ f.ofmt ++ f.rnd ++ 0#2 ++ f.atype ++ f.slot ++ f.lsel ++ f.doff ++ f.dstride ++ f.mscope
      ++ f.maxen ++ f.srsel ++ f.clr ++ 0#2)
  | .marrb n => some (0x05#6 ++ n ++ 0#54)
  | .mwaitb n => some (0x06#6 ++ n ++ 0#54)
  | .mloop c b => some (0x07#6 ++ c ++ b ++ 0#32)
  | .mscale e at' sl => some (0x08#6 ++ e ++ 0#2 ++ at' ++ sl ++ 0#43)
  | .mend => some (0x09#6 ++ 0#58)
  | .maccRdStream sl off => some (0x0A#6 ++ 0#12 ++ sl ++ 0#2 ++ off ++ 0#25)
  | .maccWrStream sl off => some (0x0B#6 ++ 0#12 ++ sl ++ 0#2 ++ off ++ 0#25)
  | .illegal (.stream w) | .juryrig (.stream w) | .vendorTest (.stream w) => some w
  | _ => none

/-- The instruction the decoder reads from the low `nbits` of `w`, later words zero (the host's entry). -/
def decodeTableWord (_nbits w : Nat) : Option Instr :=
  match decodeWords (BitVec.ofNat 32 w) (some (BitVec.ofNat 32 (w >>> 32))) (some (BitVec.ofNat 32 (w >>> 64))) with
  | .ok (i, _) => some i
  | .error _ => none

end Sys2Proof
end

