-- ==== Sys2Proof/Machine/Integer.lean ====
section
/-!
DEFINITION. The integer, compare, logic, bit, address and move instructions, and IDIV and IREM (R128-R143).
-/
namespace Sys2Proof.Machine

/-- SAT of the issuing group (R125). -/
def Iss.sat (q : Iss) : Bool := mrSat q.g.mr

/-- IADD (R128). -/
def execIadd (x : Ext) (d a b : Code) (s : State) := issueOk (.iadd x d a b) (fun q => q.result (fun i => opIadd q.etype q.sat (q.a i) (q.b i))) s
/-- ISUB (R128). -/
def execIsub (x : Ext) (d a b : Code) (s : State) := issueOk (.isub x d a b) (fun q => q.result (fun i => opIsub q.etype q.sat (q.a i) (q.b i))) s
/-- IMUL (R128). -/
def execImul (x : Ext) (d a b : Code) (s : State) := issueOk (.imul x d a b) (fun q => q.result (fun i => opImul q.etype q.sat (q.a i) (q.b i))) s
/-- IMULH (R128). -/
def execImulh (x : Ext) (d a b : Code) (s : State) := issueOk (.imulh x d a b) (fun q => q.result (fun i => opImulh q.etype (q.a i) (q.b i))) s
/-- IMAD (R126, R128). -/
def execImad (x : Ext) (d a b : Code) (s : State) :=
  issueOk (.imad x d a b) (fun q => q.result (fun i => opImad q.etype q.sat (q.a i) (q.b i) (q.cVal i))) s
/-- IMADW: ILLEGAL at issue under a 16- or 8-bit type (R129). -/
def execImadw (x : Ext) (d a b : Code) (s : State) :=
  issue (.imadw x d a b) (fun q =>
    if etWidth q.etype ≠ 32 then .trap (q.trap clsIllegal)
    else .ok (q.result64 (fun i => opImadw (etSigned q.etype) q.sat (q.a i) (q.b i) (q.c64 i)))) s
/-- INEG (R128). -/
def execIneg (x : Ext) (d a : Code) (s : State) := issueOk (.ineg x d a) (fun q => q.result (fun i => opIneg q.etype q.sat (q.a i))) s
/-- IABS (R128). -/
def execIabs (x : Ext) (d a : Code) (s : State) := issueOk (.iabs x d a) (fun q => q.result (fun i => opIabs q.etype q.sat (q.a i))) s
/-- IMIN (R128). -/
def execImin (x : Ext) (d a b : Code) (s : State) := issueOk (.imin x d a b) (fun q => q.result (fun i => opImin q.etype q.sat (q.a i) (q.b i))) s
/-- IMAX (R128). -/
def execImax (x : Ext) (d a b : Code) (s : State) := issueOk (.imax x d a b) (fun q => q.result (fun i => opImax q.etype q.sat (q.a i) (q.b i))) s
/-- ISEL: selected by L0 before its shift (R128). -/
def execIsel (x : Ext) (d a b : Code) (s : State) :=
  issueOk (.isel x d a b) (fun q => q.result (fun i => opIsel q.etype (q.rd (.l 0) i) (q.a i) (q.b i))) s
/-- SAD (R130). -/
def execSad (x : Ext) (d a b : Code) (s : State) :=
  issueOk (.sad x d a b) (fun q => q.result (fun i => opSad q.etype q.sat (q.a i) (q.b i) (q.cVal i))) s
/-- DOT4: ILLEGAL at issue under a 32-bit type (R130). -/
def execDot4 (x : Ext) (d a b : Code) (s : State) :=
  issue (.dot4 x d a b) (fun q =>
    if etWidth q.etype = 32 then .trap (q.trap clsIllegal)
    else .ok (q.result (fun i => opDot4 q.etype q.sat (q.a i) (q.b i) (q.cVal i)))) s
/-- LEA (R138). -/
def execLea (x : Ext) (d a b : Code) (s : State) := issueOk (.lea x d a b) (fun q => q.result64 (fun i => opLea q.etype (q.a64 i) (q.b i))) s
/-- AADD (R138). -/
def execAadd (x : Ext) (d a b : Code) (s : State) := issueOk (.aadd x d a b) (fun q => q.result64 (fun i => opAadd (q.a64 i) (q.b i))) s
/-- ICMP (R131). -/
def execIcmp (x : Ext) (c : BitVec 4) (d a b : Code) (s : State) :=
  issueOk (.icmp x c d a b) (fun q => q.result (fun i => opIcmp q.etype c.toNat (q.a i) (q.b i))) s
/-- AND (R132). -/
def execAnd (x : Ext) (d a b : Code) (s : State) := issueOk (.and x d a b) (fun q => q.result (fun i => q.a i &&& q.b i)) s
/-- OR (R132). -/
def execOr (x : Ext) (d a b : Code) (s : State) := issueOk (.or x d a b) (fun q => q.result (fun i => q.a i ||| q.b i)) s
/-- XOR (R132). -/
def execXor (x : Ext) (d a b : Code) (s : State) := issueOk (.xor x d a b) (fun q => q.result (fun i => q.a i ^^^ q.b i)) s
/-- NOT (R132). -/
def execNot (x : Ext) (d a : Code) (s : State) := issueOk (.not x d a) (fun q => q.result (fun i => ~~~ q.a i)) s
/-- ANDN (R132). -/
def execAndn (x : Ext) (d a b : Code) (s : State) := issueOk (.andn x d a b) (fun q => q.result (fun i => q.a i &&& ~~~ q.b i)) s
/-- SHL (R133). -/
def execShl (x : Ext) (d a b : Code) (s : State) := issueOk (.shl x d a b) (fun q => q.result (fun i => opShl q.etype (q.a i) (q.b i))) s
/-- SHR (R133). -/
def execShr (x : Ext) (d a b : Code) (s : State) := issueOk (.shr x d a b) (fun q => q.result (fun i => opShr q.etype (q.a i) (q.b i))) s
/-- SAR (R133). -/
def execSar (x : Ext) (d a b : Code) (s : State) := issueOk (.sar x d a b) (fun q => q.result (fun i => opSar q.etype (q.a i) (q.b i))) s
/-- ROL (R133). -/
def execRol (x : Ext) (d a b : Code) (s : State) := issueOk (.rol x d a b) (fun q => q.result (fun i => opRol q.etype (q.a i) (q.b i))) s
/-- SHF (R134). -/
def execShf (x : Ext) (d a b : Code) (s : State) := issueOk (.shf x d a b) (fun q => q.result (fun i => opShf (q.a i) (q.b i) (q.cVal i))) s
/-- POPC (R135). -/
def execPopc (x : Ext) (d a : Code) (s : State) := issueOk (.popc x d a) (fun q => q.result (fun i => opPopc q.etype (q.a i))) s
/-- CLZ (R135). -/
def execClz (x : Ext) (d a : Code) (s : State) := issueOk (.clz x d a) (fun q => q.result (fun i => opClz q.etype (q.a i))) s
/-- CTZ (R135). -/
def execCtz (x : Ext) (d a : Code) (s : State) := issueOk (.ctz x d a) (fun q => q.result (fun i => opCtz q.etype (q.a i))) s
/-- BREV (R135). -/
def execBrev (x : Ext) (d a : Code) (s : State) := issueOk (.brev x d a) (fun q => q.result (fun i => opBrev q.etype (q.a i))) s
/-- BFE (R136). -/
def execBfe (x : Ext) (d a b : Code) (s : State) := issueOk (.bfe x d a b) (fun q => q.result (fun i => opBfe (etSigned q.etype) (q.a i) (q.b i))) s
/-- BFI (R136). -/
def execBfi (x : Ext) (d a b : Code) (s : State) := issueOk (.bfi x d a b) (fun q => q.result (fun i => opBfi (q.a i) (q.b i) (q.cVal i))) s
/-- BYTESEL (R137). -/
def execBytesel (x : Ext) (d a b : Code) (s : State) :=
  issueOk (.bytesel x d a b) (fun q => q.result (fun i => opBytesel (q.a i) (q.b i) (q.cVal i))) s
/-- MOV (R139). -/
def execMov (x : Ext) (d a : Code) (s : State) := issueOk (.mov x d a) (fun q => q.result (fun i => q.a i)) s
/-- S2V (R139). -/
def execS2v (d a : Code) (s : State) := issueOk (.s2v d a) (fun q => q.result (fun i => q.a i)) s
/-- V2S: from the lane of EXEC with the lowest LANEIX; nothing when EXEC is empty (R139). -/
def execV2s (l : Option Word) (d a : Code) (s : State) :=
  issueOk (.v2s l d a) (fun q =>
    match q.lanes.head? with
    | some m => q.modGroup (fun g => g.setS d.toNat (q.a m))
    | none => q.s) s
/-- MOVI (R140). -/
def execMovi (p : Option Pfx) (d sh : Code) (imm : BitVec 11) (s : State) :=
  issueOk (.movi p d sh imm) (fun q => q.result (fun _ => (imm.signExtend 32) <<< sh.toNat)) s

/-- Whether the part enables a major that the V780 disables (R63). -/
def State.skuOn (s : State) (major : Nat) : Bool := s.fuses.sku.contains major

/-- The JURYRIG fate of a group word: the handler is entered, or EMUL_DEPTH or JURYRIG is raised (R60, R63, R351, R352). -/
def Iss.juryrig (q : Iss) : Eff :=
  if q.f.jr.length ≥ 2 then .trap (q.trap clsEmul)
  else if handlerReady q.t q.g then
    .ok (q.modTeam (fun t => t.enterHandler q.c.g q.c.f q.ex (fun d => windowWords q.c q.g.mr d (q.ex == 0)) q.c.addr
      (q.c.addr + BitVec.ofNat 64 q.c.len) false))
  else .trap (q.trap clsJuryrig)

/-- Issue an instruction of a major the V780 disables: its effect where the part enables the major, else the JURYRIG fate (R63). -/
def issueFate (i : Instr) (major : Nat) (eff : Iss → Eff) (s : State) : Host.Outcome State Fault Refusal :=
  if s.skuOn major then issue i eff s else issueWith i (fun _ => []) Iss.accountFate Iss.juryrig s

/-- IDIV: on the V780 the JURYRIG fate, on a part that enables major 0x06 the quotient (R63, R143). -/
def execIdiv (x : Ext) (d a b : Code) (s : State) :=
  issueFate (.idiv x d a b) 6 (fun q => .ok (q.result (fun i => opIdiv q.etype q.sat (q.a i) (q.b i)))) s
/-- IREM (R63, R143). -/
def execIrem (x : Ext) (d a b : Code) (s : State) :=
  issueFate (.irem x d a b) 6 (fun q => .ok (q.result (fun i => opIrem q.etype (q.a i) (q.b i)))) s

end Sys2Proof.Machine
end

