-- ==== Sys2Proof/Machine/Fates.lean ====
section
/-!
DEFINITION. The fates of words that name no instruction: JURYRIG (R63, R66, R351, R357), ILLEGAL (R60, R66) and vendor test (R62).
-/
namespace Sys2Proof.Machine

/-- The form of a raw group word: its major and its prefix, which EXEC reads (R351, R352). -/
def rawForm (p : Option Word) (m : Word) : Form :=
  { major := bitsOf m 31 25, flds := [], pfx := p.map Pfx.ofWord, dagger := none, ddagger := false, noXb := false, lk := none, lk15 := false,
    valOk := true, lit := none }

/-! ### JURYRIG -/

/-- The fragment that holds the team's lowest live lid: its group and its index (R183, R357). -/
def Team.lowestLive (t : Team) : Option (Nat × Nat) :=
  let l := t.body.groups.zipIdx.flatMap (fun g =>
    (g.1.frags.zipIdx.filter (fun f => f.1.isLive && !t.trapped (f.1.lowest g.1))).map (fun f => (f.1.lowest g.1, g.2, f.2)))
  (minBy (fun x => x.1) l).map (·.2)

/-- A JURYRIG stream word: the handler of the fragment of the lowest live lid serves it, else it is reported (R357). -/
def SIss.juryrig (q : SIss) : SEff :=
  let served := q.t.lowestLive.bind (fun x =>
    match (q.t.body.groups[x.1]?).bind (fun g => (g.frags[x.2]?).map (fun f => (g, f))) with
    | some (g, f) => if handlerReady q.t g && decide (f.jr.length < 2) then some (x.1, x.2, g, f) else none
    | none => none)
  match served with
  | none => .trap (q.trap clsJuryrig)
  | some (gi, fi, g, f) =>
    let w := cat64 q.c.litW q.c.mainW
    let s := q.s.modTeam q.c.team (fun t =>
      (t.enterHandler gi fi f.mask (fun d => streamWindowWords w g.mr d false) q.c.addr (q.c.addr + 8) true).modStream
        (fun st => { st with st := .jrPending }))
    .jump (s.modGroup q.c.team gi Group.fixSlots)

/-- JURYRIG (R63, R66, R351, R357). -/
def execJuryrig (w : RawWord) (s : State) : Host.Outcome State Fault Refusal :=
  match w with
  | .group p m _ => issueForm (rawForm p m) false (fun _ => true) (fun _ => []) Iss.accountFate Iss.juryrig s
  | .stream _ => streamWord 0 SIss.juryrig s

/-! ### ILLEGAL -/

/-- ILLEGAL: the trap, with no effect (R60, R66). -/
def execIllegal (w : RawWord) (s : State) : Host.Outcome State Fault Refusal :=
  match w with
  | .group p m _ => issueForm (rawForm p m) false (fun _ => false) (fun _ => []) Iss.account (fun q => .ok q.s) s
  | .stream _ => streamWord 0 (fun q => .trap (q.trap clsIllegal)) s

/-! ### Vendor test (R62): in RETURN, free values in the team's own state (log 15, DESIGN CHOICE) -/

/-- A store of n free values from a place of a draw. -/
def freeCells (w draw base n : Nat) : Cells w :=
  (List.range n).filterMap (fun k =>
    let v : BitVec w := (Config.vendorWord draw (base + k)).setWidth w
    if v = 0 then none else some (k, v))

/-- A bank frame of free values, of a role of a V budget (R119). -/
def freeFrame (d base budget : Nat) : Frame :=
  { v := (freeCells 32 d base 256).keep (fun n => decide (budget - 16 ≤ n) && decide (n < budget)), q := freeCells 32 d (base + 256) 16,
    l := freeCells 32 d (base + 272) 4 }

/-- The places of the draws for one lane, and for one group. -/
def vendorLane : Nat := 1024
def vendorGroup : Nat := 66

/-- Free registers of a lane, those of its bank frames and result holds among them. -/
def Lane.vendor (ln : Lane) (d base budget : Nat) : Lane :=
  { ln with v := freeCells 32 d base 256, q := freeCells 32 d (base + 256) 16, l := freeCells 32 d (base + 272) 4, ue := [],
            frame1 := freeFrame d (base + 276) budget, frame2 := freeFrame d (base + 552) budget,
            hold1 := Config.vendorWord d (base + 828), hold2 := Config.vendorWord d (base + 829),
            x1 := (Config.vendorWord d (base + 830)).getLsbD 0, x2 := (Config.vendorWord d (base + 830)).getLsbD 1 }

/-- A free mode register: no reserved code or bit, and DET, which nothing writes, as it was (R45, R46). -/
def vendorMr (mr x : Word) : Word :=
  BitVec.ofNat 32 (bitsOf x 2 0 + 2 ^ 3 * (bitsOf x 6 3 % 9) + 2 ^ 7 * (bitsOf x 9 7 % 6) + 2 ^ 10 * bitsOf x 18 10) ||| (mr &&& 0x80000000)

/-- Free S registers, mode register and flags of a group. -/
def Group.vendor (g : Group) (d base : Nat) : Group :=
  let g := { g with flags := (Config.vendorWord d base).toNat % 32, mr := vendorMr g.mr (Config.vendorWord d (base + 65)) }
  (List.range 64).foldl (fun g n => g.setS n (Config.vendorWord d (base + 1 + n))) g

/-- Free state of a team: registers, sticky flags, scratchpad of `pool` bytes, accumulator store (R62). The segment registers, which programs
only read (R239), stay (log 15, DESIGN CHOICE). -/
def Team.vendor (t : Team) (d pool : Nat) : Team :=
  let budget := fun (lid : Nat) => ((t.body.groups.find? (fun g => decide (g.first ≤ lid) && decide (lid < g.first + g.count))).map
    (fun g => t.hdr.budget g.role)).getD 0
  let base := t.body.lanes.length * vendorLane
  let base' := base + t.body.groups.length * vendorGroup
  (t.modBody (fun b =>
    { b with lanes := b.lanes.zipIdx.map (fun l => l.1.vendor d (l.2 * vendorLane) (budget l.2)),
             groups := b.groups.zipIdx.map (fun g => g.1.vendor d (base + g.2 * vendorGroup)),
             scratch := freeCells 8 d base' pool })).modStream
    (fun st => { st with acc := freeCells 32 d (base' + pool) 32768 })

/-- The place of the draws for memory, past every register. -/
def vendorMemory : Nat := 2 ^ 32

/-- A free number of bytes that the team's translations reach in the part's own memory, each with a free value: host memory lies in no
partition (R27, R62). -/
def State.vendorMem (s : State) (tid d : Nat) : State :=
  (List.range (Config.vendorWord d vendorMemory).toNat).foldl (fun s k =>
    match s.team? tid with
    | none => s
    | some t =>
      let w := fun j => Config.vendorWord d (vendorMemory + 1 + 3 * k + j)
      match s.translate t.core? t.tenant t.ctx (cat64 (w 1) (w 0)).toNat ⟨.load, false, 1⟩ with
      | (s, .ok (pa, _)) => if inAperture pa then s else s.physWrite pa 1 ((w 2).toNat % 256)
      | (s, .error _) => s) s

/-- A vendor operation of a team (R62). -/
def State.vendor (s : State) (tid : Nat) : State :=
  let d := s.freeCount
  match s.team? tid with
  | none => s
  | some t =>
    let pool := match t.core?.bind (fun c => s.cores[c]?) with
      | some c => (c.pb2 - c.pb1) * 1024
      | none => 0
    { (s.modTeam tid (fun t => t.vendor d pool)).vendorMem tid d with freeCount := d + 1 }

/-- VENDOR_TEST: ILLEGAL but in the life-cycle state RETURN (R62, R433). -/
def execVendorTest (w : RawWord) (s : State) : Host.Outcome State Fault Refusal :=
  match w with
  | .group p m _ =>
    issueForm (rawForm p m) false (fun _ => decide (s.fuses.lcs = 3)) (fun _ => []) Iss.account (fun q => .ok (q.s.vendor q.c.team)) s
  | .stream _ => streamWord 0 (fun q => if q.s.fuses.lcs = 3 then .ok (q.s.vendor q.c.team) else .trap (q.trap clsIllegal)) s

end Sys2Proof.Machine
end

