-- ==== Sys2Proof/Machine/Flags.lean ====
section
/-!
DEFINITION. The sticky flags and FP_TRAP: how a float instruction's per-element results become its result, its flags or its trap
(R161, R162, R166), and the random value of stochastic rounding (R158, R160).
-/
namespace Sys2Proof.Machine

/-- The result of one element: pattern, flags, operand patterns for the report (R162). -/
structure ElemRes where
  bits : Nat
  fl : Nat
  ops : List Nat
  deriving DecidableEq, Repr

/-- FTZ of the issuing group (R154). -/
def Iss.ftz (q : Iss) : Bool := mrFtz q.g.mr

/-- A word of the mixer for a coordinate at the issuing instruction (R160). -/
def Iss.mixWord (q : Iss) (coord w : Nat) : Word :=
  (mix q.t.seed (siteOf q.c.addr) q.t.body.srCtr coord (mrSrsel q.g.mr)).getD w 0

/-- rv of a lane and sub-element (R158). -/
def Iss.rv (q : Iss) (i k : Nat) : Nat := bitsOf (q.mixWord (8 * q.lid i + k) 0) 15 0

/-- The rounding context of a lane and element in a format. -/
def Iss.rctx (q : Iss) (f : Fmt) (i k : Nat) : RCtx := { f := f, mode := q.rnd, rv := q.rv i k, ftz := q.ftz }

/-- All flags that per-lane element results raise. -/
def allFlags (r : List (Nat × List ElemRes)) : Nat := r.foldl (fun a p => p.2.foldl (fun a e => a ||| e.fl) a) 0

/-- The first lane and element that raised an enabled flag (R162). -/
def firstEnabled (en : Nat) (r : List (Nat × List ElemRes)) : Option (Nat × Nat × ElemRes) :=
  r.findSome? (fun p => (p.2.zipIdx.find? (fun e => e.1.fl &&& en != 0)).map (fun e => (p.1, e.2, e.1)))

/-- The FP_TRAP of per-lane results, where an enabled flag is raised (R162). -/
def Iss.fpTrap (q : Iss) (r : List (Nat × List ElemRes)) : Option Trap :=
  (firstEnabled (mrExcen q.g.mr) r).map (fun x =>
    { q.trapAt clsFp x.1 with
        elem := x.2.1, flags := allFlags r,
        words := (x.2.2.ops.map (BitVec.ofNat 32) ++ [0, 0, 0]).take 3 })

/-- OR flags into the sticky flags of a group (R161). -/
def Team.raise (t : Team) (gi fl : Nat) : Team := t.modGroup gi (fun g => { g with flags := g.flags ||| fl })

/-- A short-latency float instruction of `cnt` elements per lane, `words` making its result words of the element patterns: its
result and flags, or FP_TRAP (R161, R162). -/
def Iss.floatRes (q : Iss) (n cnt : Nat) (words : Nat → List Nat → List Word) (f : Nat → Nat → ElemRes) : Eff :=
  let r := q.lanes.map (fun i => (i, (List.range cnt).map (f i)))
  match q.fpTrap r with
  | some t => .trap t
  | none =>
    .ok (q.modTeam (fun _ =>
      (q.laneResult n (fun i => words i ((List.range cnt).map (fun k => (f i k).bits)))).raise q.c.g (allFlags r)))

/-- The word of elements of an ETYPE's width. -/
def packElems (e : Nat) (l : List Nat) : Word := BitVec.ofNat 32 (ofElems (etWidth e) l)

/-- A float instruction under MR.ETYPE: ILLEGAL at issue under an integer type (R166). -/
def Iss.floatOp (q : Iss) (f : Nat → Nat → ElemRes) : Eff :=
  if etFloat q.etype then q.floatRes 1 (etCount q.etype) (fun _ l => [packElems q.etype l]) f
  else .trap (q.trap clsIllegal)

/-- Element k of the a, b and c operands in a lane, as a pattern of the type's width. -/
def Iss.ea (q : Iss) (i k : Nat) : Nat := elemNat (etWidth q.etype) (q.a i) k
def Iss.eb (q : Iss) (i k : Nat) : Nat := elemNat (etWidth q.etype) (q.b i) k
def Iss.ec (q : Iss) (i k : Nat) : Nat := elemNat (etWidth q.etype) (q.cVal i) k

/-- The format of ETYPE. -/
def Iss.fmt (q : Iss) : Fmt := etFmt q.etype

end Sys2Proof.Machine
end

