-- ==== Sys2Proof/Machine/Float.lean ====
section
/-!
DEFINITION. The float, compare, conversion, packing, random-number and flag instructions (R166-R170, R175-R182), and LDI (R141).
-/
namespace Sys2Proof.Machine

/-- Two-operand arithmetic on each element (R167). -/
def Iss.farith (q : Iss) (op : RCtx → FVal → FVal → Nat × Nat) : Eff :=
  q.floatOp (fun i k =>
    let r := op (q.rctx q.fmt i k) (q.fmt.input q.ftz (q.ea i k)) (q.fmt.input q.ftz (q.eb i k))
    ⟨r.1, r.2, [q.ea i k, q.eb i k]⟩)

/-- FADD (R167). -/
def execFadd (x : Ext) (d a b : Code) (s : State) := issue (.fadd x d a b) (fun q => q.farith RCtx.add) s
/-- FSUB (R167). -/
def execFsub (x : Ext) (d a b : Code) (s : State) := issue (.fsub x d a b) (fun q => q.farith (fun c u v => c.add u v.negate)) s
/-- FMUL (R167). -/
def execFmul (x : Ext) (d a b : Code) (s : State) := issue (.fmul x d a b) (fun q => q.farith RCtx.mul) s
/-- FFMA (R126, R167). -/
def execFfma (x : Ext) (d a b : Code) (s : State) :=
  issue (.ffma x d a b) (fun q => q.floatOp (fun i k =>
    let r := (q.rctx q.fmt i k).fma (q.fmt.input q.ftz (q.ea i k)) (q.fmt.input q.ftz (q.eb i k)) (q.fmt.input q.ftz (q.ec i k))
    ⟨r.1, r.2, [q.ea i k, q.eb i k, q.ec i k]⟩)) s

/-- FMIN, FMAX and their .num forms (R168). -/
def Iss.fminmaxOp (q : Iss) (isMax num : Bool) : Eff :=
  q.floatOp (fun i k =>
    let r := fminmax q.fmt q.ftz isMax num (q.ea i k) (q.eb i k)
    ⟨r.1, r.2, [q.ea i k, q.eb i k]⟩)

/-- FMIN (R168). -/
def execFmin (x : Ext) (d a b : Code) (s : State) := issue (.fmin x d a b) (fun q => q.fminmaxOp false false) s
/-- FMAX (R168). -/
def execFmax (x : Ext) (d a b : Code) (s : State) := issue (.fmax x d a b) (fun q => q.fminmaxOp true false) s
/-- FMIN.num (R168). -/
def execFminNum (x : Ext) (d a b : Code) (s : State) := issue (.fminNum x d a b) (fun q => q.fminmaxOp false true) s
/-- FMAX.num (R168). -/
def execFmaxNum (x : Ext) (d a b : Code) (s : State) := issue (.fmaxNum x d a b) (fun q => q.fminmaxOp true true) s
/-- FABS: clears the sign bit, NaNs included (R169). -/
def execFabs (x : Ext) (d a : Code) (s : State) :=
  issue (.fabs x d a) (fun q => q.floatOp (fun i k => ⟨q.ea i k % 2 ^ (etWidth q.etype - 1), 0, [q.ea i k]⟩)) s
/-- FNEG: inverts the sign bit, NaNs included (R169). -/
def execFneg (x : Ext) (d a : Code) (s : State) :=
  issue (.fneg x d a) (fun q => q.floatOp (fun i k => ⟨q.ea i k ^^^ 2 ^ (etWidth q.etype - 1), 0, [q.ea i k]⟩)) s
/-- FRND (R167). -/
def execFrnd (x : Ext) (d a : Code) (s : State) :=
  issue (.frnd x d a) (fun q => q.floatOp (fun i k =>
    let r := (q.rctx q.fmt i k).integral (q.fmt.input q.ftz (q.ea i k))
    ⟨r.1, r.2, [q.ea i k]⟩)) s
/-- FCLASS (R169). -/
def execFclass (x : Ext) (d a : Code) (s : State) :=
  issue (.fclass x d a) (fun q => q.floatOp (fun i k => ⟨fclassMask q.fmt (q.ea i k), 0, [q.ea i k]⟩)) s
/-- FSCALE: by the signed integer element of b (R167). -/
def execFscale (x : Ext) (d a b : Code) (s : State) :=
  issue (.fscale x d a b) (fun q => q.floatOp (fun i k =>
    let r := (q.rctx q.fmt i k).scale (q.fmt.input q.ftz (q.ea i k)) (sextNat (etWidth q.etype) (q.eb i k))
    ⟨r.1, r.2, [q.ea i k, q.eb i k]⟩)) s
/-- FCMP (R58, R170). -/
def execFcmp (x : Ext) (c : BitVec 4) (d a b : Code) (s : State) :=
  issue (.fcmp x c d a b) (fun q => q.floatOp (fun i k =>
    let r := fcond c.toNat (q.fmt.input q.ftz (q.ea i k)) (q.fmt.input q.ftz (q.eb i k))
    ⟨if r.1 then 2 ^ etWidth q.etype - 1 else 0, r.2, [q.ea i k, q.eb i k]⟩)) s

/-- CVT.F2I from float types into integer types of the same width; any other pair traps ILLEGAL at issue (R175, R176). -/
def execCvtF2i (x : Ext) (d a : Code) (e : BitVec 4) (s : State) :=
  issue (.cvtF2i x d a e) (fun q =>
    let dt := e.toNat
    if (q.etype = 2 && (dt = 0 || dt = 1)) || ((q.etype = 3 || q.etype = 4) && (dt = 5 || dt = 6)) then
      q.floatRes 1 (etCount q.etype) (fun _ l => [packElems q.etype l]) (fun i k =>
        let r := fToInt (etWidth dt) (etSigned dt) q.rnd (q.rv i k) (mrSat q.g.mr) (q.fmt.input q.ftz (q.ea i k))
        ⟨r.1, r.2, [q.ea i k]⟩)
    else .trap (q.trap clsIllegal)) s

/-- CVT.I2F (R175, R177). -/
def execCvtI2f (x : Ext) (d a : Code) (e : BitVec 4) (s : State) :=
  issue (.cvtI2f x d a e) (fun q =>
    let dt := e.toNat
    if ((q.etype = 0 || q.etype = 1) && dt = 2) || ((q.etype = 5 || q.etype = 6) && (dt = 3 || dt = 4)) then
      q.floatRes 1 (etCount q.etype) (fun _ l => [packElems q.etype l]) (fun i k =>
        let r := intToF (etFmt dt) q.rnd (q.rv i k) (mrSat q.g.mr) q.ftz (elemVal q.etype (q.a i) k)
        ⟨r.1, r.2, [q.ea i k]⟩)
    else .trap (q.trap clsIllegal)) s

/-- CVT.F2F: into or from one half, or between the 16-bit types (R175, R177). -/
def execCvtF2f (x : Ext) (d a : Code) (h : BitVec 1) (e : BitVec 4) (s : State) :=
  issue (.cvtF2f x d a h e) (fun q =>
    let st := q.etype
    let dt := e.toNat
    let sat := mrSat q.g.mr
    let half := h.toNat
    if st = 2 && (dt = 3 || dt = 4) then
      q.floatRes 1 1
        (fun i l =>
          let old := q.rd q.opD i
          let v := l.headD 0
          [BitVec.ofNat 32 (if half = 1 then v * 2 ^ 16 + old.toNat % 2 ^ 16 else old.toNat / 2 ^ 16 * 2 ^ 16 + v)])
        (fun i _ =>
          let r := fconvert (etFmt dt) q.rnd (q.rv i half) sat q.ftz (fp32.input q.ftz (q.a i).toNat)
          ⟨r.1, r.2, [(q.a i).toNat]⟩)
    else if (st = 3 || st = 4) && dt = 2 then
      q.floatRes 1 1 (fun _ l => [BitVec.ofNat 32 (l.headD 0)]) (fun i _ =>
        let r := fconvert fp32 q.rnd (q.rv i 0) sat q.ftz (q.fmt.input q.ftz (q.ea i half))
        ⟨r.1, r.2, [q.ea i half]⟩)
    else if ((st = 3 && dt = 4) || (st = 4 && dt = 3)) && half = 0 then
      q.floatRes 1 2 (fun _ l => [packElems dt l]) (fun i k =>
        let r := fconvert (etFmt dt) q.rnd (q.rv i k) sat q.ftz (q.fmt.input q.ftz (q.ea i k))
        ⟨r.1, r.2, [q.ea i k]⟩)
    else .trap (q.trap clsIllegal)) s

/-- QNT (R178). -/
def execQnt (x : Ext) (d a : Code) (fmt : BitVec 5) (s : State) :=
  issue (.qnt x d a fmt) (fun q => q.floatRes 1 1 (fun _ l => [BitVec.ofNat 32 (l.headD 0)]) (fun i _ =>
    let r := qnt fmt.toNat q.rnd (q.rv i 0) (mrSat q.g.mr) q.ftz (q.a i).toNat
    ⟨r.1, r.2, [(q.a i).toNat]⟩)) s
/-- DQNT: raises no flag (R178). -/
def execDqnt (x : Ext) (d a : Code) (fmt : BitVec 5) (s : State) :=
  issueOk (.dqnt x d a fmt) (fun q => q.result (fun i => BitVec.ofNat 32 (dqnt fmt.toNat (q.a i).toNat))) s
/-- MXSC (R179). -/
def execMxsc (x : Ext) (d a : Code) (fmt : BitVec 5) (s : State) :=
  issue (.mxsc x d a fmt) (fun q => q.floatRes 1 1 (fun _ l => [BitVec.ofNat 32 (l.headD 0)]) (fun i _ =>
    let r := mxscCode fmt.toNat (fp32.input q.ftz (q.a i).toNat)
    ⟨r.1, r.2, [(q.a i).toNat]⟩)) s
/-- PACK: a into the low half (R180). -/
def execPack (x : Ext) (d a b : Code) (s : State) :=
  issue (.pack x d a b) (fun q =>
    if q.etype = 3 || q.etype = 4 then
      q.floatRes 1 2 (fun _ l => [packElems q.etype l]) (fun i k =>
        let v := if k = 0 then (q.a i).toNat else (q.b i).toNat
        let r := fconvert q.fmt q.rnd (q.rv i k) (mrSat q.g.mr) q.ftz (fp32.input q.ftz v)
        ⟨r.1, r.2, [(q.a i).toNat, (q.b i).toNat]⟩)
    else .trap (q.trap clsIllegal)) s
/-- UNPK: each half exactly, the low half into d (R180). -/
def execUnpk (x : Ext) (d a : Code) (s : State) :=
  issue (.unpk x d a) (fun q =>
    if q.etype = 3 || q.etype = 4 then
      q.floatRes 2 2 (fun _ l => l.map (BitVec.ofNat 32)) (fun i k =>
        let v := q.fmt.input q.ftz (q.ea i k)
        ⟨toFp32 v, flagIf v.snan flIV, [q.ea i k]⟩)
    else .trap (q.trap clsIllegal)) s
/-- RNG: a draw of the mixer (R181). -/
def execRng (x : Ext) (d a : Code) (s : State) :=
  issueOk (.rng x d a) (fun q =>
    let w := bitsOf (q.uni .a) 1 0
    q.result (fun i =>
      if q.etype = 2 then
        BitVec.ofNat 32 (fp32.round 0 0 false false false (bitsOf (q.mixWord (8 * q.lid i) w) 31 8) (-24)).1
      else if q.etype = 3 then
        packElems 3 ([0, 1].map (fun k => (fp16.round 0 0 false false false (bitsOf (q.mixWord (8 * q.lid i + k) w) 31 21) (-11)).1))
      else if q.etype = 4 then
        packElems 4 ([0, 1].map (fun k => (bf16.round 0 0 false false false (bitsOf (q.mixWord (8 * q.lid i + k) w) 31 24) (-8)).1))
      else q.mixWord (8 * q.lid i) w)) s
/-- FLAGS: reads the sticky flags into the lanes of EXEC, then clears those that a names (R182). -/
def execFlags (l : Option Word) (d a : Code) (s : State) :=
  issueOk (.flags l d a) (fun q =>
    let fl := q.g.flags % 32
    q.modTeam (fun _ =>
      (q.laneResult 1 (fun _ => [BitVec.ofNat 32 fl])).modGroup q.c.g (fun g =>
        { g with flags := fl &&& (31 - bitsOf (q.uni .a) 4 0) }))) s

/-- LDI: a small typed constant in every element; SR reads as RNE and no flag is raised (R141). -/
def execLdi (p : Option Pfx) (d : Code) (imm : BitVec 11) (s : State) :=
  issueOk (.ldi p d imm) (fun q =>
    let v := imm.toInt
    let mode := if q.rnd = 5 then 0 else q.rnd
    let e := q.etype
    q.result (fun _ =>
      if etFloat e then mapElems (etWidth e) (fun _ => (intToF (etFmt e) mode 0 false q.ftz v).1)
      else mapElems (etWidth e) (fun _ => fit e (mrSat q.g.mr) v))) s

end Sys2Proof.Machine
end

