-- ==== Sys2Proof/Machine/Flow.lean ====
section
/-!
DEFINITION. The flow instructions (R188-R196).
-/
namespace Sys2Proof.Machine

/-- The target of a 21-bit word offset (R188). -/
def Iss.target (q : Iss) (off : BitVec 21) : DWord := q.c.addr + off.signExtend 64 * 4

/-- The address after a number of words. -/
def Iss.next (q : Iss) (n : Nat) : DWord := q.c.addr + BitVec.ofNat 64 n

/-- T of a branch: EXEC, or EXEC and the triple its condition names (R59, R189). -/
def Iss.taken (q : Iss) (c : BitVec 4) : Mask := if c = 0 then q.ex else q.ex &&& q.g.triple (8 + 3 * (c.toNat - 1))

/-- The lowest position of a mask. -/
def lowPos (m : Mask) : Nat := ((maskList m).head?).getD 0

/-- The whole fragment goes on at an address. -/
def Iss.goto (q : Iss) (pc : DWord) : State := q.modFrag (fun f => { f with pc := pc })

/-- Put parts in the issuing fragment's place, by lowest lid (R190, R194). -/
def Iss.splitInto (q : Iss) (parts : List Frag) : State :=
  q.modGroup (fun g => (g.spread q.c.f (sortBy (fun f => lowPos f.mask) parts)).fixSlots)

/-- BRA (R190). -/
def execBra (c : BitVec 4) (off : BitVec 21) (s : State) :=
  issueOk (.bra c off) (fun q => if q.taken c = 0 then q.s else q.goto (q.target off)) s

/-- BRZ (R190). -/
def execBrz (c : BitVec 4) (off : BitVec 21) (s : State) :=
  issueOk (.brz c off) (fun q => if q.taken c = 0 then q.goto (q.target off) else q.s) s

/-- BRX (R190). -/
def execBrx (c : BitVec 4) (off : BitVec 21) (s : State) :=
  issueOk (.brx c off) (fun q =>
    let t := q.taken c
    if t = 0 then q.s
    else if t = q.f.mask then q.goto (q.target off)
    else q.splitInto [{ q.f with mask := t, pc := q.target off }, { q.f with mask := q.f.mask &&& ~~~t }]) s

/-- A BRK_DEPTH trap with its detail (R340). -/
def Iss.brk (q : Iss) (detail : Nat) : Eff := .trap { q.trap clsBrk with detail := detail }

/-- The deepest a join chain may be (R184). -/
def maxDepth : Nat := 31

/-- JOIN (R191). -/
def execJoin (off : BitVec 21) (s : State) :=
  issue (.join off) (fun q =>
    if maxDepth ≤ q.f.chain.length then q.brk 0
    else .ok (q.modGroup (fun g =>
      { (g.modFrag q.c.f (fun f =>
          { f with chain := { id := g.nextId, jaddr := q.target off, key := q.lid (lowPos f.mask), callEnt := false } :: f.chain }))
        with nextId := g.nextId + 1 }))) s

/-- The lanes of EXEC leave the fragment, as parked fragments or as new youngest ones; the others go on in its place (R189, R192-R196). -/
def Iss.depart (q : Iss) (out : List Frag) : State :=
  let rest := q.f.mask &&& ~~~q.ex
  let stay := if rest = 0 then [] else [{ q.f with mask := rest }]
  let parts := (stay ++ out).zipIdx.map (fun p => p.1.splitWins q.g (stay ++ out) p.2)
  (q.modGroup (fun g => (g.spread q.c.f (parts.take stay.length)).placeYoungest (parts.drop stay.length))).settle q.c.team q.c.g

/-- The lanes of EXEC as a parked fragment (R185). -/
def Iss.parkedPart (q : Iss) (chain : List JEntry) (pc : DWord) (p : Park) : Frag :=
  { q.f with mask := q.ex, chain := chain, pc := pc, park := p, slot := none, count := 0 }

/-- LEAVE (R192). -/
def execLeave (n : BitVec 4) (s : State) :=
  issue (.leave n) (fun q =>
    if q.f.chain.length < n.toNat || (q.f.chain.take n.toNat).any (·.callEnt) then q.brk n.toNat
    else if q.ex = 0 then .ok q.s
    else
      let chain := q.f.chain.drop (n.toNat - 1)
      .ok (q.depart [q.parkedPart chain ((chain.head?.map (·.jaddr)).getD 0) .exitArrived])) s

/-- CONT (R193). -/
def execCont (off : BitVec 21) (s : State) :=
  issue (.cont off) (fun q =>
    match q.f.chain with
    | [] => q.brk 0
    | e :: _ =>
      if e.callEnt then q.brk 0
      else if q.ex = 0 then .ok q.s
      else .ok (q.depart [q.parkedPart q.f.chain (q.target off) (.contArrived (q.target off))])) s

/-- Push a call entry for the lanes of EXEC and send them to their targets as fragments (R194). -/
def Iss.callTo (q : Iss) (groups : List (DWord × Mask)) : State :=
  let e : JEntry := { id := q.g.nextId, jaddr := q.next 4, key := q.lid (lowPos q.ex), callEnt := true }
  let rest := q.f.mask &&& ~~~q.ex
  let parts := groups.map (fun p => { q.f with mask := p.2, pc := p.1, chain := e :: q.f.chain })
    ++ (if rest = 0 then [] else [{ q.f with mask := rest }])
  q.modGroup (fun g => ({ g with nextId := g.nextId + 1 }.spread q.c.f (sortBy (fun f => lowPos f.mask) parts)).fixSlots)

/-- CALL (R194). -/
def execCall (off : BitVec 21) (s : State) :=
  issue (.call off) (fun q =>
    if maxDepth ≤ q.f.chain.length then q.brk 0
    else if q.ex = 0 then .ok q.s
    else .ok (q.callTo [(q.target off, q.ex)])) s

/-- A code address that CALLI accepts (R194). -/
def callTargetOk (x : DWord) : Bool := bitsOf x 1 0 == 0 && bitsOf x 63 52 == 0

/-- The lanes of EXEC by equal target, in ascending lane order (R194). -/
def Iss.targetGroups (q : Iss) : List (DWord × Mask) :=
  q.lanes.foldl (fun acc i =>
    match acc.findIdx? (fun p => p.1 == q.a64 i) with
    | some k => listModify acc k (fun p => (p.1, p.2 ||| maskBit i))
    | none => acc ++ [(q.a64 i, maskBit i)]) []

/-- CALLI (R194). -/
def execCalli (a : Code) (s : State) :=
  issue (.calli a) (fun q =>
    match q.lanes.find? (fun i => !callTargetOk (q.a64 i)) with
    | some i => .trap (q.trapAt clsIllegal i)
    | none =>
      if maxDepth ≤ q.f.chain.length then q.brk 0
      else if q.ex = 0 then .ok q.s
      else .ok (q.callTo q.targetGroups)) s

/-- RET (R194). -/
def execRet (s : State) :=
  issue .ret (fun q =>
    match q.f.chain.dropWhile (fun e => !e.callEnt) with
    | [] => q.brk 0
    | e :: rest =>
      if q.ex = 0 then .ok q.s
      else .ok (q.depart [q.parkedPart (e :: rest) e.jaddr .exitArrived])) s

/-- YIELD (R195). -/
def execYield (s : State) := issueOk .yield (fun q => q.modGroup (fun g => g.rotate q.f.mask)) s

/-- A lane after EXIT with a successor: the V registers of the kept blocks, no Q or L register (R196). -/
def Lane.restart (ln : Lane) (keep : Word) : Lane :=
  { ln with v := ln.v.keep (fun n => keep.getLsbD (n / 8)), q := [], l := [],
            ue := ln.ue.filter (fun r => match r with
              | .v n => keep.getLsbD (n / 8)
              | _ => false) }

/-- EXIT (R196). -/
def execExit (l : Option Word) (a b : Code) (s : State) :=
  issue (.exit l a b) (fun q =>
    if q.f.jr.length ≠ 0 then .trap (q.trap clsIllegal)
    else if q.ex = 0 then .ok q.s
    else
      let succ := q.uni .a
      let keep := q.uni .b
      let s := q.modTeam (fun t => q.lanes.foldl (fun t i => t.modLane (q.lid i) (fun ln =>
        if succ = 0 then { ln with exited := true } else ln.restart keep)) t)
      let q := { q with s := s }
      .ok (q.depart (if succ = 0 then [] else [{ mask := q.ex, pc := q.c.addr + succ.signExtend 64 * 4 }]))) s

/-- NOP (R195). -/
def execNop (s : State) := issueOk .nop (fun q => q.s) s

end Sys2Proof.Machine
end

