-- ==== Sys2Proof/Machine/Power.lean ====
section
/-!
DEFINITION. Rails, reef levels and clocks (R422-R429), the charge record (R215), the working-set estimator of the L2 (R257), and bring-up,
the life cycle and firmware (R430-R435).
-/
namespace Sys2Proof.Machine

/-! ### Votes and levels (R424-R427) -/

/-- The mounting cap (R424). -/
def Fuses.cap (f : Fuses) : Nat := if f.mount = 0 then 0 else 3

/-- Some group of a partition can issue: it has not stopped, no trap parks it, and a fragment of it waits for nothing (R425). -/
def State.canIssue (s : State) (p : Nat) : Bool :=
  s.teams.any (fun t => s.partOf t == p && t.core?.isSome
    && t.body.groups.any (fun g => !g.stopped && !t.parked g && g.frags.any (fun f => f.isLive && f.wait == .none)))

/-- A card of the partition runs. -/
def State.cardRuns (s : State) (p : Nat) : Bool := s.cards.any (fun c => c.part == p && c.tenant < 16 && c.engine.isSome)

/-- The vote of a partition (R425). Where a card runs and no group can issue, the spec names no level: a free one (log 31, DESIGN CHOICE). -/
def State.vote (s : State) (p : Nat) : Option Nat :=
  let team := s.teams.any (fun t => s.partOf t == p && t.core?.isSome)
  let card := s.cardRuns p
  if !team && !card then none
  else if s.canIssue p then some 0
  else if card then some (Config.cardVote p s.freeCount % 7) else some 5

/-- The partitions that vote, with their votes. -/
def State.votes (s : State) : List (Partition × Nat) :=
  s.parts.zipIdx.filterMap (fun p => if p.1.en then (s.vote p.2).map (fun v => (p.1, v)) else none)

/-- Clusters of a rail (R19). -/
def railClusters (r : Nat) : List Nat := [4 * r, 4 * r + 1, 4 * r + 2, 4 * r + 3]

/-- The level L of a rail (R425). -/
def railLevel (votes : List (Partition × Nat)) (r : Nat) : Nat :=
  (minBy (fun v => v) ((votes.filter (fun v => (railClusters r).any v.1.hasCluster)).map (·.2))).getD 6

/-- The thermal step that counts for a cluster: the larger one of a paired slot (R426). -/
def State.thermalOf (s : State) (k : Nat) : Nat :=
  let th := fun c => ((s.clusters[c]?).map (·.thermal)).getD 0
  if s.hm.pairs.any (fun p => p.1 == k / 2) then max (th (k / 2 * 2)) (th (k / 2 * 2 + 1)) else th k

/-- The level a cluster is to run at (R426). -/
def State.wantLevel (s : State) (votes : List (Partition × Nat)) (k : Nat) : Nat :=
  min 6 (max (railLevel votes (k / 4)) s.fuses.cap + s.thermalOf k)

/-- The voltage of a reef level, in millivolts (R423). -/
def levelMv (l : Nat) : Nat := [780, 740, 700, 660, 620, 580, 550].getD l 550

/-- The voltage of the retention rail while any cluster clock runs (R422). -/
def retentionMv : Nat := 750

/-- The highest clock that a rail's voltage allows: the lowest-numbered level whose voltage it reaches (R423, R427). -/
def Rail.volt (r : Rail) : Nat := ((List.range 7).find? (fun l => decide (levelMv l ≤ r.mv))).getD 6

/-- A rail's controller meets a required level: a raise starts at once, from wherever the rail stands, and cancels a lowering; a lowering
waits; a raise that has begun settles before a lower level counts (R427; log 11, DESIGN CHOICE). -/
def Rail.seek (r : Rail) (req : Nat) : Rail :=
  if r.raising && decide (r.sought ≤ req) then r
  else if r.mv < levelMv req then { r with sought := req, raising := true, hold := false, falling := false }
  else if levelMv req < r.mv then
    (if r.falling && r.sought == req then r else { r with sought := req, raising := false, hold := true, falling := false })
  else { r with sought := req, raising := false, hold := false, falling := false }

/-- The level a cluster runs at: the one it is to run at, within what its rail's voltage allows; while the rail rises its clock does not
(R427). -/
def Cluster.follow (k : Cluster) (want : Nat) (r : Rail) : Nat := max want (max r.volt (if r.raising then k.level else 0))

/-- Every rail and cluster follows the votes (R425-R427). -/
def State.revote (s : State) : State :=
  if s.boot.phase ≠ 4 || s.hm.thermalDown then s
  else
    let votes := s.votes
    let rails := s.rails.zipIdx.map (fun r => r.1.seek ((minBy (fun v => v) ((railClusters r.2).map (s.wantLevel votes))).getD 6))
    { s with
      rails := rails,
      clusters := s.clusters.zipIdx.map (fun k =>
        { k.1 with level := k.1.follow (s.wantLevel votes k.2) ((rails[k.2 / 4]?).getD {}),
                   gated := !(votes.any (fun v => v.1.hasCluster k.2)) }) }

/-- Change one rail. -/
def State.modRail (s : State) (r : Nat) (f : Rail → Rail) : State := { s with rails := listModify s.rails r f }

/-- RAIL_RAISE_SETTLED: the rail stands at the level it sought, and the clusters may raise their clocks (R427). -/
def execRailRaiseSettled (rail : Nat) (s : State) : Host.Outcome State Fault Refusal :=
  match s.rails[rail]? with
  | some r => if r.raising then .next (s.modRail rail (fun r => { r with mv := levelMv r.sought, raising := false })).revote else .refused .notDue
  | none => .refused .notDue

/-- RAIL_LOWER_HOLD_EXPIRY: the level has stayed unchanged for 4,096 controller cycles, and the voltage begins to fall (R427; log 11,
DESIGN CHOICE). -/
def execRailLowerHoldExpiry (rail : Nat) (s : State) : Host.Outcome State Fault Refusal :=
  match s.rails[rail]? with
  | some r => if r.hold then .next (s.modRail rail (fun r => { r with hold := false, falling := true })).revote else .refused .notDue
  | none => .refused .notDue

/-- A falling rail comes down to a voltage on its way, or to its end (R427; log 11, DESIGN CHOICE). -/
def State.railFall (s : State) (rail mv : Nat) : State :=
  s.modRail rail (fun r =>
    if r.falling && decide (levelMv r.sought ≤ mv) && decide (mv < r.mv) then { r with mv := mv, falling := decide (levelMv r.sought < mv) } else r)

/-- Every falling rail reaches its end. -/
def State.railsDown (s : State) : State :=
  { s with rails := s.rails.map (fun r => if r.falling then { r with mv := levelMv r.sought, falling := false } else r) }

/-- The steps that a temperature raises to (R426). -/
def thermalUp (celsius : Int) : Nat := if 115 ≤ celsius then 3 else if 110 ≤ celsius then 2 else if 105 ≤ celsius then 1 else 0

/-- A step falls while the temperature is below its threshold (R426). -/
def thermalFall (celsius : Int) : Nat → Nat
  | 0 => 0
  | k + 1 => if celsius < 95 + 5 * (Int.ofNat k + 1) then thermalFall celsius k else k + 1

/-- Powered and running. -/
def State.up (s : State) : Bool := s.boot.phase == 4 && !s.hm.thermalDown

/-- THERMAL_STEP: a sensor's reading below 125 °C (R426). -/
def execThermalStep (cluster : Nat) (celsius : Int) (s : State) : Host.Outcome State Fault Refusal :=
  if s.up && decide (celsius < 125) && decide (cluster < 48) then
    .next (s.modCluster cluster (fun k => { k with thermal := max (thermalUp celsius) (thermalFall celsius k.thermal) })).revote
  else .refused .notDue

/-- The retention rail and every logic rail stand at voltages. -/
def State.setRails (s : State) (ret logic : Nat) : State := { s with retention := ret, rails := s.rails.map (fun r => { r with mv := logic }) }

/-- The steps of the joint ramp from 0.75 V and 0.55 V down to 0: of 0.02 V at most, the retention rail never more than 0.22 V above a
logic rail (R429, R430). -/
def rampDown : List (Nat × Nat) := (List.range 39).map (fun k => (retentionMv - 20 * k, levelMv 6 - 20 * k))

/-- The joint ramp at power-up (R430). -/
def rampUp : List (Nat × Nat) := rampDown.reverse

/-- Every cluster clock stops (R429, R430). -/
def State.clocksOff (s : State) : State := { s with clusters := s.clusters.map (fun k => { k with gated := true, level := 6 }) }

/-- Every cluster clock stops, and then every rail goes down: each logic rail to 0.55 V, and then all together (R429). -/
def State.powerOff (s : State) : State :=
  let s := { s.clocksOff with
    rails := s.rails.map (fun r => { r with mv := min r.mv (levelMv 6), sought := 6, hold := false, raising := false, falling := false }) }
  rampDown.foldl (fun s v => s.setRails v.1 v.2) s

/-- What the Harbourmaster keeps without its module's power: the trap log in the MRAM, and a record whose head is still to be written; a
brownout stands until power goes (R14, R398, R400). -/
def Harbour.kept (h : Harbour) : Harbour :=
  { seq := h.seq, log := h.log, heads := h.heads, headDue := h.headDue, cycle := h.cycle, brownout := h.brownout }

/-- What is left once no SRAM, register or LPDDR6 keeps anything: the trap log, the fuses and the firmware slots. Host memory is another
machine's, and the rails stand where they stood; the agenda and the model's own counters go on (R422, R429; log 16, DESIGN CHOICE). -/
def State.blank (s : State) : State :=
  { State.reset with
    hostMem := s.hostMem, zeroed := s.zeroed.keep inAperture, fuses := s.fuses, agenda := s.agenda, freeCount := s.freeCount, cycles := s.cycles, nextId := s.nextId, stamp := s.stamp,
    rails := s.rails, retention := s.retention, hm := s.hm.kept, boot := s.boot }

/-- THERMAL_SHUTDOWN: a class-4 record, then every clock stops and every rail goes off, and nothing but the trap log is kept (R429). -/
def execThermalShutdown (cluster : Nat) (s : State) : Host.Outcome State Fault Refusal :=
  if s.hm.thermalDown || decide (48 ≤ cluster) then .refused .notDue
  else
    let s := (s.commitRecord { cls := 4, outcome := 4, core := 2 * cluster }).writeHead.powerOff.blank
    .next { s with hm := { s.hm with thermalDown := true } }

/-- BROWNOUT: a class-5 record, and no further record (R400). -/
def execBrownout (s : State) : Host.Outcome State Fault Refusal :=
  if s.hm.brownout then .refused .notDue
  else
    let s := s.commitRecord { cls := 5, outcome := 4 }
    .next { s with hm := { s.hm with brownout := true } }

/-! ### The charge record (R215) -/

/-- CHARGE_RECORD_UPDATE: a cluster cycle: CR := max(0, CR + C − B), and what the pipes and ports still hold falls by one (R210, R215). -/
def execChargeRecordUpdate (cluster : Nat) (s : State) : Host.Outcome State Fault Refusal :=
  if decide (48 ≤ cluster) then .refused .notDue
  else
    let tick := fun (c : Core) => { c with pipeBusy := c.pipeBusy.map (· - 1), portBusy := c.portBusy.map (· - 1), heavy := false, late := [] }
    .next (((s.modCore (2 * cluster) tick).modCore (2 * cluster + 1) tick).modCluster cluster (fun k =>
      { k with cr := k.cr + k.charge - Config.budgetB k.level, charge := 0 }))

/-! ### The working-set estimator (R257) -/

/-- A way holds a version copy. -/
def Bank.wayVersioned (b : Bank) (w : Nat) : Bool := b.lines.any (fun x => x.way == w && x.owner.isSome)

/-- Gate ways: their lines leave (data is held in memory). -/
def Bank.gate (b : Bank) (ws : List Nat) : Bank :=
  { b with ways := ws.foldl (fun m w => m &&& ~~~(BitVec.ofNat 16 (2 ^ w))) b.ways, lines := b.lines.filter (fun x => !ws.contains x.way) }

/-- The end of a window of m misses (R257). -/
def Bank.windowEnd (b : Bank) (m : Nat) : Bank :=
  let on := (List.range 16).filter (fun w => b.ways.getLsbD w)
  if m < 1024 && 4 < on.length then b.gate ((on.reverse.filter (fun w => !b.wayVersioned w)).take 2)
  else if 8192 ≤ m then
    { b with ways := (((List.range 16).filter (fun w => !b.ways.getLsbD w)).take 2).foldl (fun m w => m ||| BitVec.ofNat 16 (2 ^ w)) b.ways }
  else b

/-- L2_WINDOW: a bank acts on its oldest window of 65,536 lookups that has ended (R257). -/
def execL2Window (bank : Nat) (s : State) : Host.Outcome State Fault Refusal :=
  match s.banks[bank]? with
  | none => .refused .notDue
  | some b =>
    match b.windows with
    | [] => .refused .notDue
    | m :: rest => .next (s.modBank bank (fun b => { b.windowEnd m with windows := rest }))

/-! ### Bring-up (R430-R435) -/

/-- The magic of a staged bundle at physical address 0 (R435). -/
def bundleMagic : Nat := 0x42554E44

/-- The life-cycle state FIELD (R433). -/
def lcsField : Nat := 2

/-- The vendor root's signature of a slot's bundle verifies; the factory's is the vendor's (R434; log 16, DESIGN CHOICE). -/
def FwSlot.vendorSigned (x : FwSlot) : Bool := x.factory || !x.bundle.isEmpty && Config.vendorSigned x.bundle

/-- The owner root's signature of a slot's bundle verifies, under a fused hash; the factory's is of the owner that is fused at reset (R434; log 16,
DESIGN CHOICE). -/
def FwSlot.ownerSigned (x : FwSlot) (owner : Option (BitVec 512)) : Bool :=
  if x.factory then owner == factoryOwner else owner.any (fun k => Config.ownerSigned k x.bundle)

/-- A slot's bundle verifies, under the fuses as they are: the vendor root has signed it, and in FIELD the owner root as well (R434). -/
def Fuses.verifies (f : Fuses) (x : FwSlot) : Bool := x.vendorSigned && (f.lcs != lcsField || x.ownerSigned f.owner)

/-- Step 1: a staged bundle goes into the slot that is not running, or ERR becomes 3 (R430, R435). -/
def State.stageBundle (s : State) : State :=
  if s.mem.readNat 0 4 = bundleMagic then
    let b : FwSlot := { bundle := s.mem.keep (fun a => decide (a < 2 ^ 24)) }
    if s.fuses.verifies b then { s with boot := { s.boot with slots := listModify s.boot.slots (1 - s.boot.slot) (fun _ => b) } }
    else { s with boot := { s.boot with err := 3 } }
  else s

/-- The slots that verify, at or above the rollback counter (R434). -/
def State.bootSlots (s : State) : List (Nat × FwSlot) :=
  (s.boot.slots.zipIdx.filter (fun x =>
    s.fuses.verifies x.1 && (s.fuses.rollback == 0 || decide (s.fuses.rollback ≤ (Config.bundleVersion x.1.bundle).toNat)))).map (fun x => (x.2, x.1))

/-- The slot of the highest version; the lower slot number among equals (R434; log 16, DESIGN CHOICE). -/
def bestSlot (l : List (Nat × FwSlot)) : Option (Nat × FwSlot) := minBy (fun x => 2 ^ 32 - (Config.bundleVersion x.2.bundle).toNat) l

/-- The next life-cycle state (R433). -/
def nextLcs (l : Nat) : Nat := if l = 3 then 0 else l + 1

/-- The signatures that the next transition needs: the vendor root's of each; the owner root's as well into FIELD, of the owner whose hash the record
fuses, and out of FIELD, of the owner that is fused (R433). -/
def Fuses.transitionSigned (f : Fuses) (bundle : List (Nat × Byte)) : Bool :=
  Config.recordVendorSigned bundle
  && (if f.lcs = 1 then Config.recordOwnerSigned (Config.ownerHash bundle) bundle
      else if f.lcs = lcsField then f.owner.any (fun k => Config.recordOwnerSigned k bundle)
      else true)

/-- What a life-cycle transition does besides (R394, R433). MOUNT has two bits (R431). -/
def State.lifeCycle (s : State) (b : FwSlot) (mount : Nat) : State :=
  let l := s.fuses.lcs
  let f := { s.fuses with lcs := nextLcs l }
  if l = 0 then { s with fuses := { f with identity := true, mount := mount % 4 } }
  else if l = 1 then { s with fuses := { f with owner := some (Config.ownerHash b.bundle) } }
  else if l = 2 then { s with fuses := f }
  else { s with fuses := { f with identity := false, owner := none }, hm := { s.hm with log := [], heads := [[], []], headDue := false, seq := 1 } }

/-- A partition as it is when it is created (R299, R301). -/
def Partition.fresh (p : Partition) : Partition :=
  { p with graphs := [], cond := [], starts := [], runs := [], ready := [], wTail := 0, wSeq := 0, wErrPos := BitVec.allOnes 64, wErrCode := 0, rr := 63,
           leaving := [] }

/-- Pools, shadow arrays, L2, engine buffers, Pilot's SRAM and LPDDR6 are wiped; the Harbourmaster and the register blocks are not (R430,
R433). -/
def State.wipeAll (s : State) : State :=
  { s.blank with
    hm := s.hm, tenants := s.tenants, parts := s.parts.map Partition.fresh, vfs := s.vfs.map (fun r => { r with reports := [] }),
    pfRegs := { s.pfRegs with reports := [] }, quay := s.quay.map (fun q => { q with arrived := [] }) }

/-- Step 2: the booted bundle's version and transition record (R433, R434); whether a transition was applied. A record that names the state
the part is in has been applied before (log 16, DESIGN CHOICE). -/
def State.bootBundle (s : State) (n : Nat) (b : FwSlot) : State × Bool :=
  let s := { s with boot := { s.boot with slot := n } }
  let s := if !b.factory && Config.bundleRaises b.bundle then
      { s with fuses := { s.fuses with rollback := max s.fuses.rollback (Config.bundleVersion b.bundle).toNat } } else s
  match (if b.factory then none else Config.bundleTransition b.bundle) with
  | none => (s, false)
  | some (to', mount) =>
    if to' = s.fuses.lcs then (s, false)
    else if to' = nextLcs s.fuses.lcs && s.fuses.transitionSigned b.bundle then ((s.lifeCycle b mount).wipeAll, true)
    else ({ s with boot := { s.boot with err := 4 } }, false)

/-- Steps 3 to 5: everything wiped, every register block at its reset value, Pilot ready; the newest record is found from the heads (R398,
R430, R431). Host memory, fuses, firmware slots, the MRAM and the brownout of a part that has not lost power since stay (R400). -/
def State.wiped (s : State) : State :=
  { s.blank with
    rails := s.rails.map (fun r => { mv := r.mv }),
    hm := { seq := s.hm.newest + 1, log := s.hm.log, heads := s.hm.heads, brownout := s.hm.brownout },
    boot := { s.boot with phase := 4, attested := false, count := s.boot.count + 1 } }

/-- Bring-up halts in step 2, before anything is wiped: no firmware runs (R430, R431). -/
def State.haltBoot (s : State) (err : Nat) : State := { s with boot := { s.boot with phase := 7, err := err, slot := 0 } }

/-- Steps 1 to 5. The device resets once more after a transition, at most once for each life-cycle state here (R430, R433; log 16, DESIGN
CHOICE). -/
def State.bootPass : Nat → State → State
  | 0, s => s.wiped
  | k + 1, s =>
    let s := State.stageBundle { s with boot := { s.boot with err := 0 } }
    if s.boot.slots.all (fun x => !s.fuses.verifies x) then s.haltBoot 1
    else
      match bestSlot s.bootSlots with
      | none => s.haltBoot 2
      | some (n, b) =>
        match s.bootBundle n b with
        | (s, true) => State.bootPass k s
        | (s, false) => s.wiped

/-- Bring-up: the cluster clocks stand still, the rails stand at level 6, the head of a record that had begun is written, and the steps
follow (R398, R400, R430). -/
def State.bringUp (s : State) : State :=
  State.bootPass 4 { (s.writeHead.clocksOff.setRails retentionMv (levelMv 6)) with hm := { s.writeHead.hm with thermalDown := false } }

/-- Power is lost, and everything with it but the trap log, the fuses and the firmware slots. A record that had begun is committed within the
hold-up (R14, R400, R422). When power is applied, all rails rise together from 0 (R430). -/
def State.powerLost (s : State) : State :=
  let s := s.writeHead.blank
  rampUp.foldl (fun s v => s.setRails v.1 v.2)
    { s with hm := { s.hm with brownout := false }, boot := { slots := s.boot.slots, count := s.boot.count } }

/-- POWER_UP: power is applied, after it was lost where the part was running (R422, R429, R430). -/
def execPowerUp (s : State) : Host.Outcome State Fault Refusal := .next s.powerLost.bringUp

/-- PF_FLR: a device reset, with bring-up over the memory as it stands (R421, R430, R435). -/
def execPfFlr (s : State) : Host.Outcome State Fault Refusal :=
  if decide (s.boot.phase < 4) || s.hm.thermalDown then .refused .notDue else .next s.bringUp

end Sys2Proof.Machine
end

