-- ==== Sys2Proof/Machine/Preempt.lean ====
section
/-!
DEFINITION. Pre-emption (R368-R381): requests, victims, grace, the save of contexts and the resize of partitions. The resume is in
PlaceTeam.lean.
-/
namespace Sys2Proof.Machine

/-! ### Requests (R368, R369) -/

/-- The fields of a request (R368). -/
structure Request where
  part : Nat
  kind : Nat
  ncores : Nat
  grace : Nat
  hold : Bool
  clmask : Nat
  /-- a reserved bit is set -/
  rsv : Bool
  deriving DecidableEq, Repr

/-- The request of a command (R368, R413). -/
def Command.request (c : Command) : Request :=
  let a := recArg c.words 0
  let b := recArg c.words 1
  { part := natBits a 7 0, kind := natBits a 15 8, ncores := natBits a 22 16, grace := natBits a 47 32, hold := a.testBit 48,
    clmask := natBits b 47 0, rsv := natBits a 31 23 != 0 || natBits a 63 49 != 0 || natBits b 63 48 != 0 }

/-- The clusters of a mask. -/
def maskClusters (m : Nat) : List Nat := (List.range 48).filter m.testBit

/-- The cores of some clusters. -/
def clusterCores (l : List Nat) : List Nat := l.flatMap (fun k => [2 * k, 2 * k + 1])

/-- The cores of a partition. -/
def Partition.cores (p : Partition) : List Nat := (List.range 96).filter p.hasCore

/-- Pilot refuses a request (R369). -/
def State.refuses (s : State) (r : Request) : Bool :=
  match s.parts[r.part]? with
  | none => true
  | some p =>
    r.rsv || decide (2 < r.kind) || !p.en
    || (if r.kind = 0 then r.ncores == 0 || decide (p.cores.length < r.ncores) || r.clmask != 0 else r.ncores != 0)
    || !((maskClusters r.clmask).all p.hasCluster)
    || (r.kind == 1 && ((List.range 48).filter p.hasCluster).all r.clmask.testBit)

/-- A request of the partition is in progress (R369). -/
def State.preempting (s : State) (part : Nat) : Bool := s.preempts.any (fun p => p.part == part)

/-! ### Victims (R370) -/

/-- The teams that run on a core, the level-2 teams it trails among them (R387). -/
def State.teamsAt (s : State) (c : Nat) : List Team :=
  s.teams.filter (fun t => t.core? == some c || (t.hdr.level == 2 && t.core?.map (· + 2) == some c))

/-- The place of a core in the order of the choice: no team, no level-2 team, fewer groups, higher numbers first (R370). -/
def State.victimKey (s : State) (c : Nat) : Nat :=
  let ts := s.teamsAt c
  (if ts.isEmpty then 0 else 1) * 2 ^ 20 + (if ts.any (fun t => t.hdr.level == 2) then 1 else 0) * 2 ^ 19
  + (ts.map (fun t => t.body.groups.length)).sum * 2 ^ 8 + (255 - c)

/-- The partner core of a checked pair, where the core holds a level-2 team. -/
def State.partner (s : State) (c : Nat) : List Nat :=
  if (s.teamsAt c).any (fun t => t.hdr.level == 2) then [if c % 4 < 2 then c + 2 else c - 2] else []

/-- Take victims in order until some number is reached, partners with their cores (R370). -/
def State.takeVictims (s : State) (n : Nat) : List Nat → List Nat → List Nat
  | acc, [] => acc
  | acc, c :: rest =>
    if n ≤ acc.length then acc
    else if acc.contains c then s.takeVictims n acc rest
    else s.takeVictims n (acc ++ (c :: s.partner c).filter (fun x => !acc.contains x)) rest

/-- The victims of a vacate (R370). -/
def State.victimsOf (s : State) (p : Partition) (n : Nat) : List Nat :=
  s.takeVictims n [] (sortBy s.victimKey (p.cores.filter (fun c => !((s.cores[c]?).map (·.held)).getD true)))

/-- Teams on victim cores. -/
def State.victimTeams (s : State) (victims : List Nat) : List Team :=
  s.teams.filter (fun t => victims.any (fun c => (s.teamsAt c).any (fun x => x.id == t.id)))

/-- A request begins (R370, R371). -/
def State.beginPreempt (s : State) (c : Command) (r : Request) (victims : List Nat) : State :=
  let p : Preempt := { part := r.part, victims := victims, grace := r.grace, hold := r.hold, remove := r.clmask, command := c.id }
  let s := ({ s with preempts := s.preempts ++ [p] } : State).modCmd c.id (fun x => { x with started := true })
  (s.victimTeams victims).foldl (fun s t => s.grant t.id r.grace) s

/-- A PREEMPT command of the same partition was accepted before one and is not done (R369). -/
def State.preemptBefore (s : State) (c : Command) : Bool :=
  (s.cmds.takeWhile (fun x => x.id != c.id)).any (fun x => recOpcode x.words == 0x20 && x.code.isNone && x.request.part == c.request.part)

/-- A PREEMPT command of a kind that may begin now, in the order of arrival (R369). -/
def State.preemptCmd (s : State) (cmd : Nat) (kind : Nat → Bool) : Option (Command × Request) :=
  (s.cmdOf cmd 0x20).bind (fun c =>
    let r := c.request
    if kind r.kind && !s.preempting r.part && !s.preemptBefore c then some (c, r) else none)

/-- PREEMPT_VACATE (R368-R371). A kind that names no request is refused here (R369). -/
def execPreemptVacate (cmd : Nat) (s : State) : Host.Outcome State Fault Refusal :=
  match s.preemptCmd cmd (fun k => k == 0 || decide (2 < k)) with
  | none => .refused .notDue
  | some (c, r) =>
    if s.refuses r then .next (s.finishCmd cmd 7 0)
    else .next (s.beginPreempt c r (s.victimsOf ((s.parts[r.part]?).getD {}) r.ncores))

/-- Some cores with the partners of those that hold level-2 teams (R370). -/
def State.withPartners (s : State) (l : List Nat) : List Nat := l ++ (l.flatMap s.partner).filter (fun c => !l.contains c)

/-- PREEMPT_RESIZE (R370, R381). -/
def execPreemptResize (cmd : Nat) (s : State) : Host.Outcome State Fault Refusal :=
  match s.preemptCmd cmd (fun k => k == 1) with
  | none => .refused .notDue
  | some (c, r) => if s.refuses r then .next (s.finishCmd cmd 7 0) else .next (s.beginPreempt c r (s.withPartners (clusterCores (maskClusters r.clmask))))

/-- Hold or free some cores. -/
def State.setHeld (s : State) (l : List Nat) (h : Bool) : State := l.foldl (fun s c => s.modCore c (fun k => { k with held := h })) s

/-- PREEMPT_RELEASE_HOLD (R379). -/
def execPreemptReleaseHold (cmd : Nat) (s : State) : Host.Outcome State Fault Refusal :=
  match s.preemptCmd cmd (fun k => k == 2) with
  | none => .refused .notDue
  | some (_, r) =>
    if s.refuses r then .next (s.finishCmd cmd 7 0)
    else .next ((s.setHeld (clusterCores (maskClusters r.clmask)) false).finishCmd cmd 0 0)

/-- PREEMPT_GRACE_EXPIRY: a victim group has used up its grace (R371). -/
def execPreemptGraceExpiry (tid gi : Nat) (s : State) : Host.Outcome State Fault Refusal :=
  match s.group? tid gi with
  | none => .refused .notDue
  | some g => if g.grace = some 0 && !g.stopped then .next (s.modGroup tid gi (fun g => { g with stopped := true })) else .refused .notDue

/-! ### The save (R372-R377) -/

/-- The context that a save of number n writes for a core: with no snapshots in its image the whole pool and state, else the parts of the
level-0 teams (R375). -/
def State.contextOf (s : State) (n c : Nat) : SavedContext :=
  let ts := s.teamsOn c
  let low := ts.filter (fun t => t.hdr.level == 0)
  let stream := low.any (fun t => t.hdr.mstream != 0)
  let whole := ts.all (fun t => t.hdr.level == 0)
  { save := n, whole := whole,
    bytes := if low.isEmpty then 0
      else if whole then contextBytes (((s.cores[c]?).getD {}).pb3) stream
      else (low.map (fun t => t.hdr.partBytes t.body.grant)).sum + 32 * 1024 + (if stream then 144 * 1024 else 0) }

/-- The level-0 context of a core fits the room that snapshots and standing contexts leave in its image (R375, R377). -/
def State.imageFits (s : State) (c : Nat) : Bool :=
  decide ((s.contextOf s.nextId c).bytes + s.snapUse c s.nextId + s.imageUse c s.nextId ≤ 2 ^ 21)

/-- A victim team has stopped: nothing of it is about to happen before the save (R371, R374, R380). -/
def Team.stoppedWhole (t : Team) : Bool :=
  t.body.groups.all (·.stopped) && t.boundary.isNone && t.reslice.isNone && t.mismatch.isNone && t.rollback.isNone

/-- Clear bits of the cluster mask of a partition. -/
def Partition.dropClusters (p : Partition) (m : Nat) : Partition :=
  { p with clu := [p.clu.getD 0 0 &&& ~~~(BitVec.ofNat 32 m), p.clu.getD 1 0 &&& ~~~(BitVec.ofNat 32 (m / 2 ^ 32))] }

/-- Clusters leave a partition: the images on them move to the save area, holds end, and they are wiped (R377, R379, R381, R408). -/
def State.removeClusters (s : State) (part m : Nat) : State :=
  let gone := maskClusters m
  let s := (clusterCores gone).foldl State.moveImage s
  let s := { s with teams := s.teams.map (fun (t : Team) => match t.place with
      | .shadow c => if gone.contains (c / 2) then { t with place := .saved } else t
      | _ => t) }
  let s := (clusterCores gone).foldl (fun s c => s.modCore c (fun k => { k.wipe with held := false })) s
  let s := gone.foldl (fun s k => s.modCluster k (fun c => { c with tlb := [] })) s
  s.modPart part (fun p => p.dropClusters m)

/-- CONTEXT_SAVE: every victim has stopped and no pair that it stands on is halted by a mismatch: they are drained and their contexts are
written out, and the request is done. A trap that the drain raises in a task at levels 1 and 2 is served first (R372-R377, R381, R385, R392). -/
def execContextSave (part : Nat) (s : State) : Host.Outcome State Fault Refusal :=
  match s.preempts.find? (fun p => p.part == part) with
  | none => .refused .notDue
  | some p =>
    let vs := s.victimTeams p.victims
    if !vs.all (fun t => t.stoppedWhole && !s.pairHalted t) then .refused .notDue
    else
      let s := vs.foldl (fun s t => (s.withdraw t.id).drainTeam t.id) s
      if s.teams.any (fun t => t.rollback.isSome && vs.any (fun v => v.id == t.id)) then .next s
      else
        let room := s.imageFits
        let ctx := s.contextOf s.nextId
        let owner := (((s.parts[part]?).map (fun (x : Partition) => x.owner)).getD 0)
        let areas := (p.victims.filter (fun c => !room c)).map (fun c =>
          (s.saveAt owner c, contextData s.freeCount (ctx c) ((s.teamsOn c).filter (fun t => t.hdr.level == 0))))
        let s := vs.foldl (fun s t => s.saveVictim room ctx t.id) { s with nextId := s.nextId + 1 }
        let s := areas.foldl (fun s a => s.writeSave a.1 a.2) s
        let s := { s with preempts := s.preempts.filter (fun x => x.part != part) }
        let s := if p.remove = 0 then (if p.hold then s.setHeld p.victims true else s) else s.removeClusters part p.remove
        .next (s.finishCmd p.command 0 0)

end Sys2Proof.Machine
end

