-- ==== Sys2Proof/Machine/Sha3.lean ====
section
/-!
DEFINITION. SHA3-512, which R433, R434 and R436 name without giving it: Keccak as FIPS 202 has it (log 18, PRESUMED).
-/
namespace Sys2Proof.Machine

/-- A sponge at work: its 25 lanes, lane (x, y) at 5y + x, and the register whose low bit is the next bit of the round constants. -/
structure Sponge where
  lanes : List DWord := List.replicate 25 0
  lfsr : BitVec 8 := 1
  deriving DecidableEq, Repr

/-- The lane at a place, the coordinates taken mod 5. -/
def Sponge.lane (p : Sponge) (x y : Nat) : DWord := p.lanes.getD (5 * (y % 5) + x % 5) 0

/-- Every lane computed from its coordinates. -/
def Sponge.each (p : Sponge) (f : Nat → Nat → DWord) : Sponge := { p with lanes := (List.range 25).map (fun k => f (k % 5) (k / 5)) }

/-- The parity of a column. -/
def Sponge.column (p : Sponge) (x : Nat) : DWord := (List.range 5).foldl (fun v y => v ^^^ p.lane x y) 0

/-- Theta. -/
def Sponge.mixColumns (p : Sponge) : Sponge :=
  let c := (List.range 5).map p.column
  p.each (fun x y => p.lane x y ^^^ c.getD ((x + 4) % 5) 0 ^^^ (c.getD ((x + 1) % 5) 0).rotateLeft 1)

/-- Rho and pi in one walk over the 24 lanes other than (0, 0): from (x, y) to (y, 2x + 3y), the t-th lane turned by t (t + 1) / 2. -/
def Sponge.walk (p : Sponge) : Sponge :=
  ((List.range 24).foldl (fun (w : Sponge × Nat × Nat) t =>
    let (q, x, y) := w
    let y' := (2 * x + 3 * y) % 5
    ({ q with lanes := q.lanes.set (5 * y' + y) ((p.lane x y).rotateLeft ((t + 1) * (t + 2) / 2 % 64)) }, y, y')) (p, 1, 0)).1

/-- Chi. -/
def Sponge.mixRows (p : Sponge) : Sponge := p.each (fun x y => p.lane x y ^^^ (~~~p.lane (x + 1) y &&& p.lane (x + 2) y))

/-- The register after one bit, modulo x^8 + x^6 + x^5 + x^4 + 1. -/
def lfsrNext (r : BitVec 8) : BitVec 8 := if r.msb then r <<< 1 ^^^ 0x71 else r <<< 1

/-- Iota: the next seven bits of the register go to bits 2^j - 1 of lane (0, 0). -/
def Sponge.mark (p : Sponge) : Sponge :=
  (List.range 7).foldl (fun q j =>
    { lanes := if q.lfsr.getLsbD 0 then q.lanes.set 0 (q.lane 0 0 ^^^ BitVec.twoPow 64 (2 ^ j - 1)) else q.lanes, lfsr := lfsrNext q.lfsr }) p

/-- The permutation of 24 rounds, each of theta, rho and pi, chi and iota. -/
def Sponge.permute (p : Sponge) : Sponge := (List.range 24).foldl (fun q _ => q.mixColumns.walk.mixRows.mark) { p with lfsr := 1 }

/-- A block of 72 bytes goes in. -/
def Sponge.take (p : Sponge) (block : List Byte) : Sponge :=
  (p.each (fun x y => p.lane x y ^^^ BitVec.ofNat 64 (natOfBytes ((block.drop (8 * (5 * y + x))).take 8)))).permute

/-- The padding of a message to whole blocks: 0x06, zeros and 0x80, or both in one byte. -/
def sha3Padding (len : Nat) : List Byte :=
  match 71 - len % 72 with
  | 0 => [0x86]
  | n + 1 => 0x06 :: (List.replicate n 0 ++ [0x80])

/-- The 64 bytes of the SHA3-512 digest of a message. -/
def sha3 (m : List Byte) : List Byte :=
  let msg := m ++ sha3Padding m.length
  let p := (List.range (msg.length / 72)).foldl (fun (p : Sponge) k => p.take ((msg.drop (72 * k)).take 72)) {}
  (p.lanes.take 8).flatMap (fun l => bytesOfNat 8 l.toNat)

end Sys2Proof.Machine
end

