-- ==== Sys2Proof/Machine/HostRegs.lean ====
section
/-!
DEFINITION. The host-visible registers: what they read (R5, R6, R26, R403-R410, R431, R432) and what a write of each does (R399, R405, R406,
R408, R415, R416, R420, R436, R445), partitions that start (R408), and the FLR of a VF (R421).
-/
namespace Sys2Proof.Machine

/-! ### Words of registers -/

/-- Replace the low or the high word of a 64-bit register. -/
def setHalf (x : DWord) (hi : Bool) (v : Word) : DWord := if hi then cat64 v (lo32 x) else cat64 (hi32 x) v

/-- The word of a 64-bit register. -/
def halfOf (x : DWord) (hi : Bool) : Word := if hi then hi32 x else lo32 x

/-- Bits `hi` down to `lo` of a 64-bit field register. -/
def fieldMask (hi lo : Nat) : DWord := BitVec.ofNat 64 (2 ^ (hi + 1) - 2 ^ lo)

/-- A register write reaches the device: nothing but the identity block answers before PHASE is 4 (R432). The spec names no size for a host
access: a write is of one 32-bit word, a 64-bit field is written and takes effect half by half, and a write at an offset that is no multiple
of 4 is none of the model's (log 44, DESIGN CHOICE). -/
def State.hostWrite (s : State) (f : State → State) : Host.Outcome State Fault Refusal := .next (if s.up then f s else s)

/-! ### Queue and report registers (R410, R415-R417, R436) -/

/-- KICK (R416, R417). -/
def State.kicked (s : State) (fn : Fn) (q : Nat) : State :=
  let en := match fn with
    | .pf => true
    | .vf t => ((s.tenants[t]?).map (fun (x : Tenant) => x.en)).getD false
  if s.qcbAddr fn q = 0 || !en then s
  else
    let at' := match fn with
      | .pf => none
      | .vf t => s.berths.findIdx? (fun b => b.queue == some (t, q))
    match at', s.qcb fn q with
    | some b, some c => (s.fnRead fn (c.pa + 16) 4).modBerth b (fun k => { k with tail := c.tail })
    | some _, none => s
    | none, _ => s.modFn fn (fun r => { r with pending := if r.pending.contains q then r.pending else r.pending ++ [q] })

/-- KICK: a write of the register (R416). -/
def execKick (fn : Fn) (v : Word) (s : State) : Host.Outcome State Fault Refusal := s.hostWrite (fun s => s.kicked fn (bitsOf v 7 0))

/-- BOOT_STAT (R431). -/
def State.bootStat (s : State) : Word :=
  BitVec.ofNat 32 (s.boot.phase + 2 ^ 4 * (s.fuses.lcs % 4) + 2 ^ 6 * (s.fuses.mount % 4) + 2 ^ 8 * s.boot.err + 2 ^ 16 * s.boot.slot)

/-- A word of the identity block, which always answers (R26, R431). -/
def State.identity (s : State) (off : Nat) : Word :=
  if off = 0x0 then s.idPart
  else if off = 0x4 then BitVec.ofNat 32 (0x2000 + (if s.fuses.partX then 8 else 4))
  else if off = 0x8 || off = 0xC || off = 0x10 then
    let k := (off - 8) / 4
    BitVec.ofNat 32 (((List.range 32).map (fun i => if s.fmax (32 * k + i) = 96 then 2 ^ i else 0)).sum)
  else if off = 0x14 then s.bootStat
  else 0

/-- The first 64 bytes of the attestation report: the magic, LCS, SLOT, the version of the firmware that runs, the boot count, and the
wall-time word, in whole words; zeros after them (R436; the places are log 18, DESIGN CHOICE). -/
def State.attestHead (s : State) : List Byte :=
  let b := (s.boot.slots[s.boot.slot]?).getD {}
  padTo 64 (bytesOfNat 4 0x54545341 ++ bytesOfNat 4 s.fuses.lcs ++ bytesOfNat 4 s.boot.slot ++ bytesOfNat 4 (Config.bundleVersion b.bundle).toNat
    ++ bytesOfNat 4 s.boot.count ++ bytesOfNat 8 s.hm.wall.toNat)

/-- The four measurements: of the Harbourmaster and the Pilot image of the firmware that runs, of the identity block with BOOT_STAT, and of
the rollback counter, in little-endian words (R436; log 18, DESIGN CHOICE). -/
def State.measurements (s : State) : List Byte :=
  let b := ((s.boot.slots[s.boot.slot]?).getD {}).bundle
  sha3 (Config.bundleImage 0 b) ++ sha3 (Config.bundleImage 1 b)
    ++ sha3 ((List.range 6).flatMap (fun k => bytesOfNat 4 (s.identity (4 * k)).toNat)) ++ sha3 (bytesOfNat 4 s.fuses.rollback)

/-- The attestation report: its head, the measurements, the signature over the digest of both, and zeros (R436; log 18, DESIGN CHOICE). -/
def State.attestation (s : State) : List Byte :=
  let l := s.attestHead ++ s.measurements
  let d := sha3 l
  l ++ (List.range (0x1353 - 0x140)).map (fun k => Config.attestByte d s.freeCount k) ++ List.replicate (0x1380 - 0x1353) 0

/-- One record of the attestation report (R436). -/
def attestRecord (l : List Byte) (k : Nat) : List Byte :=
  bytesOfNat 2 0x80 ++ bytesOfNat 2 k ++ List.replicate 12 0 ++ (l.drop (48 * k)).take 48

/-- Pilot attests at the first write of the PF's REPBASE after a bring-up (R436). -/
def State.attest (s : State) : State :=
  if s.boot.attested then s
  else
    let l := s.attestation
    { s with freeCount := s.freeCount + 1, boot := { s.boot with attested := true },
             pfRegs := { s.pfRegs with reports := s.pfRegs.reports ++ (List.range 104).map (attestRecord l) } }

/-- REPBASE: a write of its low or high word (R410, R436). -/
def execRepbase (fn : Fn) (hi : Bool) (v : Word) (s : State) : Host.Outcome State Fault Refusal :=
  s.hostWrite (fun s =>
    let s := s.modFn fn (fun r => { r with repBase := setHalf r.repBase hi v &&& fieldMask 45 6 })
    if fn = .pf then s.attest else s)

/-- REPHEAD: the driver has consumed reports (R410, R415). -/
def execRephead (fn : Fn) (v : Word) (s : State) : Host.Outcome State Fault Refusal :=
  s.hostWrite (fun s => s.modFn fn (fun r => { r with repHead := v }))

/-! ### The Harbourmaster's registers (R399, R406, R445) -/

/-- HM_WALL_HI (R399). -/
def execHmWallHi (v : Word) (s : State) : Host.Outcome State Fault Refusal :=
  s.hostWrite (fun s => { s with hm := { s.hm with wall := cat64 v s.hm.wallLo } })

/-- A pair slot lies in a tenant's partitions (R28, R406). -/
def State.tenantSlot (s : State) (ten j : Nat) : Bool := s.parts.any (fun p => p.en && p.owner == ten && p.hasSlot j)

/-- VAL: ILPOL of the tenant in TEN, refused where SPARE names a slot outside its partitions (R382, R406). -/
def execVal (v : Word) (s : State) : Host.Outcome State Fault Refusal :=
  s.hostWrite (fun s =>
    let ten := bitsOf s.hm.mbTen 3 0
    let bad := (List.range 24).any (fun j => v.getLsbD (8 + j) && !s.tenantSlot ten j)
    let s := { s with hm := { s.hm with mbDone := true, mbRefused := bad } }
    if bad then s else { s with tenants := listModify s.tenants ten (fun (t : Tenant) => { t with ilpol := v &&& 0xFFFFFF07 }) })

/-- HM_INJ_CTL: only ARM may change while ARM is 1; arming starts the count (R445, R446). -/
def execHmInjCtl (v : Word) (s : State) : Host.Outcome State Fault Refusal :=
  s.hostWrite (fun s =>
    let old := s.hm.injCtl
    let new := if old.getLsbD 0 then (old &&& ~~~1) ||| (v &&& 1) else v &&& 0x1F3F7F01
    { s with hm := { s.hm with injCtl := new, injCount := if !old.getLsbD 0 && new.getLsbD 0 then 0 else s.hm.injCount } })

/-! ### Tenant blocks (R404, R405) -/

/-- Change a tenant block. -/
def State.modTenant (s : State) (t : Nat) (f : Tenant → Tenant) : State := { s with tenants := listModify s.tenants t f }

/-- A refused write (R405). -/
def State.tenantError (s : State) (t : Nat) : State := s.modTenant t (fun x => { x with cfgerr := true })

/-- An accepted write. -/
def State.tenantSet (s : State) (t : Nat) (f : Tenant → Tenant) : State := s.modTenant t (fun x => { f x with cfgerr := false })

/-- The write of EN and WCEIL (R405). -/
def State.writeTenCtl (s : State) (t : Nat) (x : Tenant) (v : Word) : State :=
  let en := v.getLsbD 0
  let w := bitsOf v 15 8
  if (x.en && w ≠ x.wceil) || (en && !([32, 64, 96].contains w)) || (x.en && !en && s.parts.any (fun p => p.owner == t)) then s.tenantError t
  else s.tenantSet t (fun x => { x with en := en, wceil := w })

/-- The write of a 64-bit field that is fixed while EN is 1 (R405). -/
def State.writeFixed (s : State) (t : Nat) (x : Tenant) (old new : DWord) (put : Tenant → DWord → Tenant) : State :=
  if x.en && old ≠ new then s.tenantError t else s.tenantSet t (fun x => put x new)

/-- TENANT_BLOCK_WRITE: a word of a tenant block (R404, R405). -/
def execTenantBlockWrite (t off : Nat) (v : Word) (s : State) : Host.Outcome State Fault Refusal :=
  s.hostWrite (fun s =>
    match s.tenants[t]? with
    | none => s
    | some x =>
      if off = 0x00 then s.writeTenCtl t x v
      else if off = 0x04 then s.tenantSet t (fun x => { x with cardq := bitsOf v 10 0 })
      else if off = 0x08 then s.tenantSet t (fun x => { x with verq := v.toNat })
      else if off = 0x0C then s.tenantSet t (fun x => { x with hvScope := bitsOf v 1 0 })
      else if off = 0x10 || off = 0x14 then
        s.writeFixed t x x.s2root (setHalf x.s2root (off == 0x14) v &&& fieldMask 45 10) (fun x d => { x with s2root := d })
      else if off = 0x18 || off = 0x1C then
        s.writeFixed t x x.save (setHalf x.save (off == 0x1C) v &&& fieldMask 45 21) (fun x d => { x with save := d })
      else if off = 0x20 || off = 0x24 then
        s.writeFixed t x x.ialim (setHalf x.ialim (off == 0x24) v &&& fieldMask 45 21) (fun x d => { x with ialim := d })
      else s)

/-! ### Partition blocks (R407, R408) -/

/-- Two words share a bit. -/
def wordsMeet (a b : List Word) : Bool := (a.zip b).any (fun p => p.1 &&& p.2 != 0)

/-- Another enabled partition holds a block of these masks (R27). -/
def State.blocksTaken (s : State) (p : Nat) (clu : List Word) (chan : Word) (berth : List Word) : Bool :=
  s.parts.zipIdx.any (fun x => x.2 != p && x.1.en && (wordsMeet x.1.clu clu || x.1.chan &&& chan != 0 || wordsMeet x.1.berth berth))

/-- A write that sets EN is refused (R27, R408). -/
def State.enableBad (s : State) (p : Nat) (x : Partition) (owner : Nat) : Bool :=
  x.clu.all (· == 0) || x.chan == 0 || x.berth.all (· == 0) || s.blocksTaken p x.clu x.chan x.berth
  || !((s.tenants[owner]?).map (fun (t : Tenant) => t.en)).getD false

/-- Opcodes of the commands that bring teams or graphs into their partition: LAUNCH, SYSLAUNCH, GRLOAD, GRSTART (R413). -/
def Command.entersPart (c : Command) : Bool := [0x01, 0x02, 0x09, 0x0A].contains (recOpcode c.words) && c.code.isNone && !c.started

/-- A team of the partition is resident, saved or waiting for placement, or one stands on its clusters. The teams of a launch that has been
accepted and not run yet count as waiting, and so do graphs that are to be loaded or started (R27, R408; log 44, DEDUCED). -/
def State.partBusy (s : State) (p : Nat) : Bool :=
  s.teams.any (fun t => t.part == p || s.partOf t == p) || s.grids.any (fun (g : Grid) => g.part == p && decide (g.placed < g.teams))
  || s.cmds.any (fun c => c.part == p && c.entersPart)

/-- The channels of a mask become idle: their L2 lines are dropped, their memory is zeroed, and no TLB maps them any more (R27, R408).
Aperture lines that their banks combine are nobody's channel and stay. -/
def State.wipeChannels (s : State) (m : Word) : State :=
  let mine := fun pa => match s.channelOf pa with
    | some n => m.getLsbD n
    | none => false
  let stays := fun (e : TlbEntry) => !mine (e.ppage * 2 ^ e.size)
  { s with mem := s.mem.keep (fun a => !mine a), zeroed := s.zeroed.keep (fun a => !mine a), poison := s.poison.filter (fun w => !mine (8 * w)),
           cores := s.cores.map (fun (c : Core) => { c with tlb := c.tlb.filter stays }),
           clusters := s.clusters.map (fun (c : Cluster) => { c with tlb := c.tlb.filter stays }),
           banks := s.banks.zipIdx.map (fun b => if m.getLsbD (b.2 / 2) then { b.1 with lines := [], wc := b.1.wc.filter (fun e => !mine (e.line * 256)) } else b.1) }

/-- The clusters of a partition become idle (R408). -/
def State.wipeClusters (s : State) (p : Partition) : State :=
  { s with cores := s.cores.zipIdx.map (fun c => if p.hasCore c.2 then { c.1.wipe with held := false } else c.1),
           clusters := s.clusters.zipIdx.map (fun c => if p.hasCluster c.2 then { c.1 with tlb := [] } else c.1) }

/-- The berths of a partition become idle (R408). -/
def State.wipeBerths (s : State) (p : Partition) : State :=
  { s with berths := s.berths.zipIdx.map (fun b => if p.hasBerth b.2 then {} else b.1) }

/-- A refused write (R408). -/
def State.partError (s : State) (p : Nat) : State := s.modPart p (fun x => { x with cfgerr := true })

/-- The write of EN and OWNER (R408). -/
def State.writePCtl (s : State) (p : Nat) (x : Partition) (v : Word) : State :=
  let en := v.getLsbD 0
  let owner := bitsOf v 7 4
  if !x.en && en then
    if s.enableBad p x owner then s.partError p
    else s.modPart p (fun x => { x.fresh with en := true, owner := owner, cfgerr := false, busy := true })
  else if x.en && en then
    (if owner ≠ x.owner then s.partError p else s.modPart p (fun x => { x with cfgerr := false }))
  else if x.en then
    (if owner ≠ x.owner || s.partBusy p then s.partError p
     else (((s.wipeChannels x.chan).wipeClusters x).wipeBerths x).modPart p (fun x => { x.fresh with en := false, busy := false, cfgerr := false }))
  else s.modPart p (fun x => { x with owner := owner, cfgerr := false })

/-- A word of a mask after a write, while EN is 1: bits are gained, none leave by the write (R408). -/
def gainWord (old v : Word) : Word := old ||| v

/-- The write of a mask word, by a function that sets it; while EN is 1 it may gain idle blocks only (R408). -/
def State.writeMask (s : State) (p : Nat) (x : Partition) (old v : Word) (put : Partition → Word → Partition) : State :=
  if !x.en then s.modPart p (fun x => { put x v with cfgerr := false })
  else
    let y := put x (gainWord old v)
    if s.blocksTaken p y.clu y.chan y.berth then s.partError p else s.modPart p (fun x => { put x (gainWord old v) with cfgerr := false })

/-- Berths that a write clears leave at once where they hold no queue, and else once Pilot has unmapped it (R408). A write that would leave
the partition no berth clears none (R27; log 44, DESIGN CHOICE). -/
def State.clearBerths (s : State) (p k : Nat) (v : Word) : State :=
  let x := (s.parts[p]?).getD {}
  let gone := (List.range 32).filter (fun i => (x.berth.getD k 0).getLsbD i && !v.getLsbD i)
  let left := (List.range 64).any (fun b => x.hasBerth b && !x.leaving.contains b && !(b / 32 == k && gone.contains (b % 32)))
  if !x.en || !left then s
  else
    gone.foldl (fun s i =>
      let b := 32 * k + i
      match (s.berths[b]?).bind (·.queue) with
      | none => s.modPart p (fun x => x.dropBerth b)
      | some _ => s.modPart p (fun x => { x with leaving := x.leaving.filter (· != b) ++ [b] })) s

/-- PARTITION_BLOCK_WRITE: a word of a partition block (R407, R408). -/
def execPartitionBlockWrite (p off : Nat) (v : Word) (s : State) : Host.Outcome State Fault Refusal :=
  s.hostWrite (fun s =>
    match s.parts[p]? with
    | none => s
    | some x =>
      if off = 0x00 then s.writePCtl p x v
      else if off = 0x08 || off = 0x0C then
        let k := (off - 8) / 4
        let v := if k = 1 then v &&& 0xFFFF else v
        s.writeMask p x (x.clu.getD k 0) v (fun x w => { x with clu := listModify x.clu k (fun _ => w) })
      else if off = 0x10 then s.writeMask p x x.chan v (fun x w => { x with chan := w })
      else if off = 0x18 || off = 0x1C then
        let k := (off - 0x18) / 4
        (s.writeMask p x (x.berth.getD k 0) v (fun x w => { x with berth := listModify x.berth k (fun _ => w) })).clearBerths p k v
      else s)

/-- PARTITION_START: every block of the partition has been wiped (R408). -/
def execPartitionStart (p : Nat) (s : State) : Host.Outcome State Fault Refusal :=
  match s.parts[p]? with
  | none => .refused .notDue
  | some x => if x.en && x.busy then .next (s.modPart p (fun x => { x with busy := false })) else .refused .notDue

/-! ### Quay ports (R420) -/

/-- QUAY_PORT_WRITE: EN, and OWNER while no card of the port runs (R420). -/
def execQuayPortWrite (q : Nat) (v : Word) (s : State) : Host.Outcome State Fault Refusal :=
  s.hostWrite (fun s =>
    let busy := s.cards.any (fun c => c.engine == some q && cardClass c.words == some 3)
    s.modPort q (fun p => { p with en := v.getLsbD 0, owner := if busy then p.owner else bitsOf v 7 4 }))

/-! ### Registers without a behaviour of their own (R5, R6) -/

/-- The write of a word of a function's queue and report registers that only holds it (R410). -/
def State.writeQueueReg (s : State) (fn : Fn) (off : Nat) (v : Word) : State :=
  if off = 0x10 then s.modFn fn (fun r => { r with repLog2 := bitsOf v 3 0 })
  else if 0x1000 ≤ off && off < 0x1800 then
    s.modFn fn (fun r =>
      let q := (off - 0x1000) / 8
      { r with qcb := r.qcb.set q (setHalf (r.qcb.get q) (off % 8 == 4) v &&& fieldMask 45 6) })
  else s

/-- An offset whose write is an event of its own. -/
def ownEvent (fn : Fn) (off : Nat) : Bool :=
  let queue := fun o => [0x0, 0x8, 0xC, 0x18].contains o
  match fn with
  | .vf _ => queue off
  | .pf =>
    [0x104, 0x204, 0x210, 0x400, 0x404].contains off || (decide (0x10000 ≤ off) && decide (off < 0x10400))
    || (decide (0x20000 ≤ off) && decide (off < 0x20600)) || (decide (0x40000 ≤ off) && queue (off - 0x40000))

/-- REGISTER_WRITE: of an aligned 32-bit word (R5, R6, R399, R406, R410, R445; log 44, DESIGN CHOICE). -/
def execRegisterWrite (fn : Fn) (off : Nat) (v : Word) (s : State) : Host.Outcome State Fault Refusal :=
  if ownEvent fn off || off % 4 ≠ 0 then .refused .notDue
  else
    s.hostWrite (fun s =>
      match fn with
      | .vf _ => s.writeQueueReg fn off v
      | .pf =>
        if off = 0x100 then { s with hm := { s.hm with wallLo := v } }
        else if off = 0x200 then { s with hm := { s.hm with mbTen := v &&& 0xF } }
        else if off = 0x214 then (if s.hm.injCtl.getLsbD 0 then s else { s with hm := { s.hm with injSel := v } })
        else if 0x40000 ≤ off then s.writeQueueReg .pf (off - 0x40000) v
        else s)

/-! ### FLR of a VF (R421) -/

/-- VF_FLR: the tenant's grids end, its queues and report registers are cleared (R421). -/
def execVfFlr (v : Nat) (s : State) : Host.Outcome State Fault Refusal :=
  if v = 0 || 16 < v || !s.up then .refused .notDue
  else
    let t := v - 1
    let mine := s.grids.filter (fun (g : Grid) => g.tenant == t)
    let s := mine.foldl (fun s g => s.killGrid g.id clsIllegal) s
    let s := { s with berths := s.berths.map (fun (b : Berth) => if b.queue.any (fun (q : Nat × Nat) => q.1 == t) then {} else b) }
    .next (s.modFn (.vf t) (fun _ => {}))

/-! ### What registers read (R5, R6, R26, R403-R410, R431, R432) -/

/-- A word of a function's queue and report registers (R410). -/
def FnRegs.read (r : FnRegs) (off : Nat) : Word :=
  if off = 0x8 || off = 0xC then halfOf r.repBase (off == 0xC)
  else if off = 0x10 then BitVec.ofNat 32 (min r.repLog2 12)
  else if off = 0x18 then r.repHead
  else if off = 0x20 then r.repTail
  else if 0x1000 ≤ off && off < 0x1800 then halfOf (r.qcb.get ((off - 0x1000) / 8)) (off % 8 == 4)
  else 0

/-- A word of a tenant block (R404). -/
def Tenant.read (t : Tenant) (off : Nat) : Word :=
  if off = 0x0 then BitVec.ofNat 32 (t.en.toNat + 2 ^ 8 * t.wceil + 2 ^ 16 * t.cfgerr.toNat)
  else if off = 0x4 then BitVec.ofNat 32 t.cardq
  else if off = 0x8 then BitVec.ofNat 32 t.verq
  else if off = 0xC then BitVec.ofNat 32 t.hvScope
  else if off = 0x10 || off = 0x14 then halfOf t.s2root (off == 0x14)
  else if off = 0x18 || off = 0x1C then halfOf t.save (off == 0x1C)
  else if off = 0x20 || off = 0x24 then halfOf t.ialim (off == 0x24)
  else 0

/-- A word of a partition block (R407). -/
def Partition.read (p : Partition) (off : Nat) : Word :=
  if off = 0x0 then BitVec.ofNat 32 (p.en.toNat + 2 ^ 4 * p.owner + 2 ^ 16 * p.cfgerr.toNat + 2 ^ 17 * p.busy.toNat)
  else if off = 0x8 || off = 0xC then p.clu.getD ((off - 8) / 4) 0
  else if off = 0x10 then p.chan
  else if off = 0x18 || off = 0x1C then p.berth.getD ((off - 0x18) / 4) 0
  else 0

/-- A word of a Quay port's register (R420). -/
def QuayPort.read (q : QuayPort) : Word := BitVec.ofNat 32 (q.en.toNat + 2 ^ 4 * q.owner + 2 ^ 16 * q.up.toNat)

/-- What a host read of a word returns: zero for what no table names, for write-only fields, and, but for the identity block, before PHASE
is 4 (R5, R6, R403, R432). -/
def State.hostRead (s : State) (fn : Fn) (off : Nat) : Word :=
  match fn with
  | .vf t => if s.up then ((s.vfs[t]?).map (fun (r : FnRegs) => r.read off)).getD 0 else 0
  | .pf =>
    if off < 0x100 then s.identity off
    else if !s.up then 0
    else if off = 0x200 then s.hm.mbTen
    else if off = 0x208 then BitVec.ofNat 32 (s.hm.mbDone.toNat + 2 * s.hm.mbRefused.toNat)
    else if off = 0x210 then s.hm.injCtl
    else if off = 0x214 then s.hm.injSel
    else if off = 0x400 || off = 0x404 then ((s.quay[(off - 0x400) / 4]?).map QuayPort.read).getD 0
    else if 0x10000 ≤ off && off < 0x10400 then ((s.tenants[(off - 0x10000) / 0x40]?).map (fun (t : Tenant) => t.read ((off - 0x10000) % 0x40))).getD 0
    else if 0x20000 ≤ off && off < 0x20600 then ((s.parts[(off - 0x20000) / 0x40]?).map (fun (p : Partition) => p.read ((off - 0x20000) % 0x40))).getD 0
    else if 0x40000 ≤ off then s.pfRegs.read (off - 0x40000)
    else 0

end Sys2Proof.Machine
end

