-- ==== Sys2Proof/Machine/SfuMath.lean ====
section
/-!
DEFINITION. The SFU functions: their special values (R172), the bounds of R173 kept around a free value (R171, log 8, DESIGN CHOICE), and the
identities of R174.
-/
namespace Sys2Proof.Machine

/-! ### Approximations in fixed point: an approximation (neg, m, e) stands for a value within 2^12 × 2^e of (-1)^neg × m × 2^e -/

/-- ln 2, log2 e and pi, times 2^96, truncated. -/
def ln2c : Nat := 54916777467707473351141471128
def log2ec : Nat := 114302077158074026402637675936
def pic : Nat := 248902613312231085230521944622

/-- floor of the square root, by Newton steps from above. -/
def sqrtNat : Nat → Nat → Nat → Nat
  | 0, _, x => x
  | f + 1, n, x =>
    let y := (x + n / x) / 2
    if x ≤ y then x else sqrtNat f n y

/-- floor(sqrt n). -/
def isqrt (n : Nat) : Nat := if n = 0 then 0 else sqrtNat 400 n (2 ^ (log2Nat n / 2 + 1))

/-- The sum of t^k / k! in units of 2^-96, for t < 2^96. -/
def expSeries : Nat → Nat → Nat → Nat → Nat
  | 0, _, _, _ => 0
  | f + 1, k, t, term => term + expSeries f (k + 1) t (term * t / 2 ^ 96 / (k + 1))

/-- 2^f in units of 2^-96, for f in units of 2^-96 below 1. -/
def exp2Frac (f : Nat) : Nat := expSeries 40 0 (f * ln2c / 2 ^ 96) (2 ^ 96)

/-- 2^(x × 2^-96) as a mantissa and exponent. -/
def exp2Fix (x : Int) : Nat × Int := (exp2Frac (x % Int.ofNat (2 ^ 96)).toNat, x / Int.ofNat (2 ^ 96) - 96)

/-- An exact dyadic in units of 2^-96, toward minus infinity. -/
def toFix (neg : Bool) (m : Nat) (e : Int) : Int :=
  let k := e + 96
  let a : Int := if neg then - Int.ofNat m else Int.ofNat m
  if 0 ≤ k then a * Int.ofNat (2 ^ k.toNat) else a / Int.ofNat (2 ^ (-k).toNat)

/-- The sum of z^(2k+1) / (2k+1) in units of 2^-96. -/
def atanhSeries : Nat → Nat → Nat → Nat → Nat
  | 0, _, _, _ => 0
  | f + 1, k, z2, p => p / (2 * k + 1) + atanhSeries f (k + 1) z2 (p * z2 / 2 ^ 96)

/-- log2 of m × 2^e, in units of 2^-96. -/
def log2Fix (m : Nat) (e : Int) : Int :=
  let lg := log2Nat m
  let y := m * 2 ^ 96 / 2 ^ lg
  let z := (y - 2 ^ 96) * 2 ^ 96 / (y + 2 ^ 96)
  (Int.ofNat lg + e) * Int.ofNat (2 ^ 96) + Int.ofNat (2 * atanhSeries 40 0 (z * z / 2 ^ 96) z * log2ec / 2 ^ 96)

/-- The alternating sum of t2^k / (2k+1)! in units of 2^-96, for t2 in units of 2^-96. -/
def sincSeries : Nat → Nat → Int → Int → Int
  | 0, _, _, _ => 0
  | f + 1, k, t2, term =>
    term + sincSeries f (k + 1) t2 (-(term * t2 / Int.ofNat (2 ^ 96)) / Int.ofNat ((2 * k + 2) * (2 * k + 3)))

/-- sin(pi r) for a dyadic 0 ≤ r ≤ 1/2, as mantissa and exponent. -/
def sinpiApprox (m : Nat) (e : Int) : Nat × Int :=
  let r := (toFix false m e).toNat
  let t := r * pic / 2 ^ 96
  let sc := (sincSeries 30 0 (Int.ofNat (t * t / 2 ^ 96)) (Int.ofNat (2 ^ 96))).toNat
  (m * (sc * pic / 2 ^ 96) / 2 ^ 40, e - 56)

/-! ### Bounds -/

/-- |(-1)^n1 m1 2^e1 - (-1)^n2 m2 2^e2| ≤ m 2^e. -/
def within (n1 : Bool) (m1 : Nat) (e1 : Int) (n2 : Bool) (m2 : Nat) (e2 : Int) (m : Nat) (e : Int) : Bool :=
  let lo := min (min e1 e2) e
  let a : Int := (if n1 then -1 else 1) * Int.ofNat (m1 * 2 ^ (e1 - lo).toNat)
  let b : Int := (if n2 then -1 else 1) * Int.ofNat (m2 * 2 ^ (e2 - lo).toNat)
  decide ((a - b).natAbs ≤ m * 2 ^ (e - lo).toNat)

/-- A bound of R173. -/
inductive Bound where
  /-- units in the last place of the exact result -/
  | ulps (n : Nat)
  /-- 2^-k -/
  | abs (k : Nat)
  deriving DecidableEq, Repr

/-- The free value of a function on an input where it meets the bound about the approximation, else the nearest FP32 value (R171,
R173; log 8, DESIGN CHOICE). -/
def boundedValue (fn : Nat) (x : Word) (b : Bound) (neg : Bool) (m : Nat) (e : Int) : Nat :=
  let near := (fp32.round 0 0 false false neg m e).1
  let y := (Config.sfuValue fn x).toNat
  let (bm, be) := match b with
    | .ulps n => (n, max (Int.ofNat (log2Nat m) + e) (-126) - 23)
    | .abs k => (1, - Int.ofNat k)
  match fp32.decode y with
  | .fin yn ym ye =>
    -- the approximation's own error, 2^12 units, is kept inside the bound
    let lo := min be e
    let slack := bm * 2 ^ (be - lo).toNat - 2 ^ 12 * 2 ^ (e - lo).toNat
    if 2 ^ 12 * 2 ^ (e - lo).toNat ≤ bm * 2 ^ (be - lo).toNat && within yn ym ye neg m e slack lo then y else near
  | _ => near

/-- Flags of an inexact finite result. No rule says whether a bounded result is tiny by the exact function value or by the value delivered:
the delivered pattern decides (R155, R171; log 8, DESIGN CHOICE). -/
def inexactFlags (y : Nat) : Nat := flNX + flagIf (decide (y % 2 ^ 31 < 2 ^ 23)) flUF

/-- A result within a bound, with NX; overflow by RNE (R157, R172). -/
def boundedRes (fn : Nat) (x : Word) (b : Bound) (neg : Bool) (m : Nat) (e : Int) : Nat × Nat :=
  let r := fp32.round 0 0 false false neg m e
  if r.2 &&& flOF != 0 then r
  else
    let y := boundedValue fn x b neg m e
    (y, inexactFlags y)

/-- m × 2^e is a power of two: its exponent. -/
def pow2Exp (m : Nat) (e : Int) : Option Int := if m = 2 ^ log2Nat m then some (Int.ofNat (log2Nat m) + e) else none

/-- An exact FP32 pattern of a dyadic. -/
def exactBits (neg : Bool) (m : Nat) (e : Int) : Nat := (fp32.round 0 0 false false neg m e).1

/-! ### The functions on nonzero finite inputs -/

/-- RCP where R173 lists no exact result. -/
def rcpBounded (x : Word) (neg : Bool) (m : Nat) (e : Int) : Nat × Nat :=
  boundedRes 0 x (.ulps 1) neg (2 ^ (160 + log2Nat m) / m) (-e - 160 - Int.ofNat (log2Nat m))

/-- RCP: exact for a power of two whose reciprocal is normal (R173). -/
def sfuRcp (x : Word) (neg : Bool) (m : Nat) (e : Int) : Nat × Nat :=
  match pow2Exp m e with
  | some n => if n ≤ 126 && -127 ≤ n then (exactBits neg 1 (-n), 0) else rcpBounded x neg m e
  | none => rcpBounded x neg m e

/-- The mantissa made to have an even exponent, and enough bits for a root. -/
def rootArg (m : Nat) (e : Int) : Nat × Int :=
  let e' := e - 200
  let m' := m * 2 ^ 200
  if e' % 2 = 0 then (m', e') else (m' * 2, e' - 1)

def sfuRsq (x : Word) (m : Nat) (e : Int) : Nat × Nat :=
  match pow2Exp m e with
  | some n => if n % 2 = 0 then (exactBits false 1 (-(n / 2)), 0)
      else
        let (m', e') := rootArg m e
        boundedRes 1 x (.ulps 1) false (2 ^ 250 / isqrt m' / 2 ^ 40) (-(e' / 2) - 210)
  | none =>
    let (m', e') := rootArg m e
    boundedRes 1 x (.ulps 1) false (2 ^ 250 / isqrt m' / 2 ^ 40) (-(e' / 2) - 210)

/-- SQRT is correctly rounded under RNE (R171): a lost remainder is kept as a last odd bit. -/
def sfuSqrt (m : Nat) (e : Int) : Nat × Nat :=
  let (m', e') := rootArg m e
  let r := isqrt m'
  if r * r = m' then fp32.round 0 0 false false false r (e' / 2)
  else fp32.round 0 0 false false false (2 * r + 1) (e' / 2 - 1)

/-- An integral dyadic as an integer. -/
def dyInt (neg : Bool) (m : Nat) (e : Int) : Option Int :=
  let s : Int := if neg then -1 else 1
  if 0 ≤ e then some (s * Int.ofNat (m * 2 ^ (min e 200).toNat))
  else if m % 2 ^ (-e).toNat = 0 then some (s * Int.ofNat (m / 2 ^ (-e).toNat)) else none

def sfuEx2 (x : Word) (neg : Bool) (m : Nat) (e : Int) : Nat × Nat :=
  match dyInt neg m e with
  | some n => fp32.round 0 0 false false false 1 (clampInt (-400) 400 n)
  | none =>
    let r := exp2Fix (toFix neg m e)
    boundedRes 3 x (if toFix neg m e < -126 * Int.ofNat (2 ^ 96) then .abs 149 else .ulps 2) false r.1 r.2

def sfuLg2 (x : Word) (m : Nat) (e : Int) : Nat × Nat :=
  match pow2Exp m e with
  | some n => (exactBits (decide (n < 0)) n.natAbs 0, 0)
  | none =>
    let v := log2Fix m e
    let near1 := decide (v.natAbs ≤ 2 ^ 96)
    boundedRes 4 x (if near1 then .abs 22 else .ulps 2) (decide (v < 0)) v.natAbs (-96)

/-- |x| mod 2 brought into [-1, 1]: whether it turned negative, and its size in units of 2^e, for e ≤ 0 (R174). -/
def reduce2 (m : Nat) (e : Int) : Bool × Nat :=
  if 1 < e then (false, 0)
  else
    let one := 2 ^ (-(min e 0)).toNat
    let m' := if e = 1 then m * 2 else m
    let r := m' % (2 * one)
    if one < r then (true, 2 * one - r) else (false, r)

/-- sin(pi r) for 0 ≤ r ≤ 1: r = m / 2^k. -/
def sinVal (m k : Nat) : Nat × Nat :=
  let one := 2 ^ k
  let x : Word := BitVec.ofNat 32 (exactBits false m (-(Int.ofNat k)))
  if m = 0 then (0, 0)
  else if m = one then
    -- an exact zero whose sign R172 to R174 leave open
    (if (Config.sfuValue 5 x).toNat = 2 ^ 31 then 2 ^ 31 else 0, 0)
  else if 2 * m = one then (exactBits false 1 0, 0)
  else
    let r := if 2 * m < one then m else one - m
    let a := sinpiApprox r (-(Int.ofNat k))
    let b : Bound := if 4 * m ≤ one then .ulps 1 else .abs 24
    let y := boundedValue 5 x b false a.1 a.2
    -- every result lies in [-1, 1] (R174)
    let y := if y % 2 ^ 31 ≤ exactBits false 1 0 then y else exactBits false 1 0
    (y, inexactFlags y)

/-- cos(pi r) for 0 ≤ r ≤ 1: by the identity with SINPI where 1/2 - r is exact (R174). -/
def cosVal (m k : Nat) : Nat × Nat :=
  let one := 2 ^ k
  let x : Word := BitVec.ofNat 32 (exactBits false m (-(Int.ofNat k)))
  if m = 0 then (exactBits false 1 0, 0)
  else if m = one then (exactBits true 1 0, 0)
  else if 2 * m = one then (0, 0)
  else
    let h := one - 2 * m
    let ex := fp32.round 0 0 false false false h (-(Int.ofNat k) - 1)
    if 2 * m < one && ex.2 = 0 then sinVal h (k + 1)
    else
      let d := if 2 * m < one then h else 2 * m - one
      let a := sinpiApprox d (-(Int.ofNat k) - 1)
      let y := boundedValue 6 x (.abs 24) (decide (one < 2 * m)) a.1 a.2
      let y := if y % 2 ^ 31 ≤ exactBits false 1 0 then y else exactBits (decide (one < 2 * m)) 1 0
      (y, inexactFlags y)

/-- The sign of an FP32 pattern inverted. -/
def flipSign (c : Bool) (r : Nat × Nat) : Nat × Nat := if c then (r.1 ^^^ 2 ^ 31, r.2) else r

def sfuSinpi (neg : Bool) (m : Nat) (e : Int) : Nat × Nat :=
  let r := reduce2 m e
  flipSign (neg != r.1) (sinVal r.2 (-(min e 0)).toNat)

def sfuCospi (m : Nat) (e : Int) : Nat × Nat :=
  let r := reduce2 m e
  cosVal r.2 (-(min e 0)).toNat

/-- e^y for y in units of 2^-96, as mantissa and exponent. -/
def expFix (y : Int) : Nat × Int := exp2Fix (y * Int.ofNat log2ec / Int.ofNat (2 ^ 96))

def sfuTanh (x : Word) (neg : Bool) (m : Nat) (e : Int) : Nat × Nat :=
  let lg := Int.ofNat (log2Nat m) + e
  if 5 ≤ lg || Int.ofNat (2 ^ 96 * 73 / 8) ≤ toFix false m e then (exactBits neg 1 0, 0)
  else if lg < -12 then (x.toNat, 0)
  else
    let t := expFix (2 * toFix false m e)
    let u := (t.1 * 2 ^ (t.2 + 200).toNat) / 2 ^ 104
    boundedRes 7 x (.ulps 2) neg ((u - 2 ^ 96) * 2 ^ 96 / (u + 2 ^ 96)) (-96)

def sfuSigm (x : Word) (neg : Bool) (m : Nat) (e : Int) : Nat × Nat :=
  let lg := Int.ofNat (log2Nat m) + e
  if !neg && (6 ≤ lg || Int.ofNat (2 ^ 96 * 35 / 2) ≤ toFix false m e) then (exactBits false 1 0, 0)
  else if neg && 10 ≤ lg then
    let y := boundedValue 8 x (.abs 149) false 1 (-300)
    (y, inexactFlags y)
  else
    -- 1 / (1 + 2^k t): numerator and denominator scaled by 2^1600
    let t := expFix (if neg then toFix false m e else toFix true m e)
    let den := 2 ^ 1600 + t.1 * 2 ^ (t.2 + 1600).toNat
    let qv := 2 ^ 3400 / den
    boundedRes 8 x (if neg && 87 * Int.ofNat (2 ^ 96) < toFix false m e then .abs 149 else .ulps 2) false (qv / 2 ^ (log2Nat qv - 90))
      (-1800 + Int.ofNat (log2Nat qv) - 90)

/-- An SFU function of an FP32 pattern (R171-R174): 0 RCP, 1 RSQ, 2 SQRT, 3 EX2, 4 LG2, 5 SINPI, 6 COSPI, 7 TANH, 8 SIGM (R57). -/
def sfu32 (fn : Nat) (x : Word) : Nat × Nat :=
  let one := exactBits false 1 0
  let pinf := fp32.infPat
  let ninf := fp32.signed true fp32.infPat
  let nz := fp32.signed true 0
  let nan := fp32.nan
  match fp32.decode x.toNat with
  | .nan sg => (nan, flagIf sg flIV)
  | .inf n =>
    if fn = 0 then (if n then nz else 0, 0)
    else if fn = 1 then (if n then (nan, flIV) else (0, 0))
    else if fn = 2 then (if n then (nan, flIV) else (pinf, 0))
    else if fn = 3 then (if n then (0, 0) else (pinf, 0))
    else if fn = 4 then (if n then (nan, flIV) else (pinf, 0))
    else if fn = 5 || fn = 6 then (nan, flIV)
    else if fn = 7 then (exactBits n 1 0, 0)
    else (if n then 0 else one, 0)
  | .fin n m e =>
    if m = 0 then
      if fn = 0 || fn = 1 then (if n then ninf else pinf, flDZ)
      else if fn = 2 then (x.toNat, 0)
      else if fn = 3 then (one, 0)
      else if fn = 4 then (ninf, flDZ)
      else if fn = 5 then (x.toNat, 0)
      else if fn = 6 then (one, 0)
      else if fn = 7 then (x.toNat, 0)
      else (exactBits false 1 (-1), 0)
    else if n && (fn = 1 || fn = 2 || fn = 4) then (nan, flIV)
    else if fn = 0 then sfuRcp x n m e
    else if fn = 1 then sfuRsq x m e
    else if fn = 2 then sfuSqrt m e
    else if fn = 3 then sfuEx2 x n m e
    else if fn = 4 then sfuLg2 x m e
    else if fn = 5 then sfuSinpi n m e
    else if fn = 6 then sfuCospi m e
    else if fn = 7 then sfuTanh x n m e
    else sfuSigm x n m e

/-- An SFU function of an element of a float format, FTZ acting on its input and output (R154, R171). -/
def sfuElem (fn : Nat) (f : Fmt) (ftz : Bool) (x : Nat) : Nat × Nat :=
  let xi := f.ftzIn ftz x
  if f = fp32 then
    let r := sfu32 fn (BitVec.ofNat 32 xi)
    if ftz && fp32.subnormal r.1 then (r.1 / 2 ^ 31 * 2 ^ 31, r.2 ||| (flUF + flNX)) else r
  else
    let v := f.decode xi
    let r := sfu32 fn (BitVec.ofNat 32 (match v with
      | .nan true => fp32.infPat + 1
      | w => toFp32 w))
    let y := fconvert f 0 0 false ftz (fp32.decode r.1)
    (y.1, r.2 ||| y.2)

end Sys2Proof.Machine
end

