-- ==== Sys2Proof/Machine/LaneOps.lean ====
section
/-!
DEFINITION. The SFU instructions (R171-R174) and the cross-lane instructions: lane reads, votes, identity, width requests, MATCH,
reductions, scans and CSAMP (R91-R113).
-/
namespace Sys2Proof.Machine

/-! ### Results of long-latency instructions that finish at once (log 11, DESIGN CHOICE) -/

/-- The lookahead of an SFU, reduction or MATCH word: 0 while an exception is enabled, in majors 0x13 and 0x16 (R163). -/
def Iss.lookahead (q : Iss) (k : BitVec 4) : Nat :=
  if mrExcen q.g.mr != 0 && (q.fm.major == 0x13 || q.fm.major == 0x16) then 0 else k.toNat

/-- The state after a long-latency instruction opens its window with its result already pending (R49). -/
def Iss.openDone (q : Iss) (look : Nat) (pend : List PWrite) (triple : Option (Nat × List Nat × List Nat)) (fl : Nat) : State :=
  q.modGroup (fun g =>
    { (g.openWindow q.c.f
        { id := g.nextId, addr := q.c.addr, path := none, remaining := look, lk15 := false, younger := 0, issued := 0,
          dst := q.fm.targets, pend := pend, triple := triple, done := true, flags := fl }) with nextId := g.nextId + 1 })

/-! ### SFU -/

/-- An SFU instruction: ILLEGAL under an integer type, FP_TRAP at issue, else a window with the results (R162, R163, R166, R171). -/
def Iss.sfu (q : Iss) (fn : Nat) (k : BitVec 4) : Eff :=
  if etFloat q.etype then
    let f := fun i e => let r := sfuElem fn q.fmt q.ftz (q.ea i e); (⟨r.1, r.2, [q.ea i e]⟩ : ElemRes)
    let r := q.lanes.map (fun i => (i, (List.range (etCount q.etype)).map (f i)))
    match q.fpTrap r with
    | some t => .trap t
    | none =>
      .ok (q.openDone (q.lookahead k)
        (q.pending 1 (fun i => [packElems q.etype ((List.range (etCount q.etype)).map (fun e => (f i e).bits))]) ++ q.pendingZeros 1)
        none (allFlags r))
  else .trap (q.trap clsIllegal)

/-- RCP (R172, R173). -/
def execRcp (p : Option Pfx) (k : BitVec 4) (d a : Code) (s : State) := issue (.rcp p k d a) (fun q => q.sfu 0 k) s
/-- RSQ (R172, R173). -/
def execRsq (p : Option Pfx) (k : BitVec 4) (d a : Code) (s : State) := issue (.rsq p k d a) (fun q => q.sfu 1 k) s
/-- SQRT (R171-R173). -/
def execSqrt (p : Option Pfx) (k : BitVec 4) (d a : Code) (s : State) := issue (.sqrt p k d a) (fun q => q.sfu 2 k) s
/-- EX2 (R172, R173). -/
def execEx2 (p : Option Pfx) (k : BitVec 4) (d a : Code) (s : State) := issue (.ex2 p k d a) (fun q => q.sfu 3 k) s
/-- LG2 (R172, R173). -/
def execLg2 (p : Option Pfx) (k : BitVec 4) (d a : Code) (s : State) := issue (.lg2 p k d a) (fun q => q.sfu 4 k) s
/-- SINPI (R172-R174). -/
def execSinpi (p : Option Pfx) (k : BitVec 4) (d a : Code) (s : State) := issue (.sinpi p k d a) (fun q => q.sfu 5 k) s
/-- COSPI (R172-R174). -/
def execCospi (p : Option Pfx) (k : BitVec 4) (d a : Code) (s : State) := issue (.cospi p k d a) (fun q => q.sfu 6 k) s
/-- TANH (R172, R173). -/
def execTanh (p : Option Pfx) (k : BitVec 4) (d a : Code) (s : State) := issue (.tanh p k d a) (fun q => q.sfu 7 k) s
/-- SIGM (R172, R173). -/
def execSigm (p : Option Pfx) (k : BitVec 4) (d a : Code) (s : State) := issue (.sigm p k d a) (fun q => q.sfu 8 k) s

/-! ### Lane reads and votes -/

/-- The lane read of R105: the value of a at position j, or the lane's own. -/
def Iss.laneRead (q : Iss) (i : Nat) (j : Int) : Word := q.a (q.source i j)

/-- LREAD.AT (R105). -/
def execLreadAt (x : Ext) (d a b : Code) (s : State) :=
  issueOk (.lreadAt x d a b) (fun q => q.result (fun i => q.laneRead i (Far.at_.pos i (q.b i)))) s
/-- LREAD.BACK (R105). -/
def execLreadBack (x : Ext) (d a b : Code) (s : State) :=
  issueOk (.lreadBack x d a b) (fun q => q.result (fun i => q.laneRead i (Far.back.pos i (q.b i)))) s
/-- LREAD.FWD (R105). -/
def execLreadFwd (x : Ext) (d a b : Code) (s : State) :=
  issueOk (.lreadFwd x d a b) (fun q => q.result (fun i => q.laneRead i (Far.fwd.pos i (q.b i)))) s
/-- LREAD.FLIP (R105). -/
def execLreadFlip (x : Ext) (d a b : Code) (s : State) :=
  issueOk (.lreadFlip x d a b) (fun q => q.result (fun i => q.laneRead i (Far.flip.pos i (q.b i)))) s
/-- BCAST (R106). -/
def execBcast (x : Ext) (d a b : Code) (s : State) :=
  issueOk (.bcast x d a b) (fun q => q.result (fun i => q.laneRead i (Far.at_.pos i (q.uni .b)))) s

/-- The lanes of EXEC whose predicate is true (R107). -/
def Iss.preds (q : Iss) : Mask := maskOfList (q.lanes.filter (fun i => q.a i != 0))

/-- The state after a triple result of a short-latency instruction, when MDST is set (R94, R107). -/
def Iss.tripleResult (q : Iss) (d : Code) (m : Mask) : State := q.modGroup (fun g => g.setTriple d.toNat m)

/-- VOTE.ANY (R107). -/
def execVoteAny (x : Ext) (d a : Code) (s : State) :=
  issueOk (.voteAny x d a) (fun q =>
    if q.fm.p.mdst then q.tripleResult d q.preds
    else q.result (fun _ => if q.preds = 0 then 0 else 1)) s
/-- VOTE.ALL (R107). -/
def execVoteAll (x : Ext) (d a : Code) (s : State) :=
  issueOk (.voteAll x d a) (fun q =>
    if q.fm.p.mdst then q.tripleResult d (q.ex &&& ~~~ q.preds)
    else q.result (fun _ => if q.preds = q.ex then 1 else 0)) s
/-- VOTE.BAL (R107). -/
def execVoteBal (x : Ext) (d a b : Code) (s : State) :=
  issueOk (.voteBal x d a b) (fun q =>
    let k := (q.uni .b).toNat
    q.result (fun _ => if k < 3 then (q.preds >>> (32 * k)).setWidth 32 else 0)) s
/-- LANE: the lid (R99). -/
def execLane (d : Code) (s : State) := issueOk (.lane d) (fun q => q.result (fun i => BitVec.ofNat 32 (q.lid i))) s
/-- GRPID: the team-wide group index (R99). -/
def execGrpid (d : Code) (s : State) := issueOk (.grpid d) (fun q => q.result (fun _ => BitVec.ofNat 32 q.c.g)) s
/-- GETW: grant, standing request and generation (R98). -/
def execGetw (d : Code) (s : State) :=
  issueOk (.getw d) (fun q => q.result (fun _ =>
    BitVec.ofNat 32 (q.t.body.grant % 256 + 2 ^ 8 * (q.t.body.request % 256) + 2 ^ 16 * (q.t.body.gen % 2 ^ 16)))) s
/-- SETW: records a width request; ILLEGAL for a value other than 32, 64 or 96 and in a COMPAT16 kernel (R91, R96). -/
def execSetw (l : Option Word) (a : Code) (s : State) :=
  issue (.setw l a) (fun q =>
    let w := (q.uni .a).toNat
    if q.t.hdr.compat16 || !(w = 32 || w = 64 || w = 96) then .trap (q.trap clsIllegal)
    else .ok (q.modGroup (fun g => { g with widthReq := some w }))) s

/-- MATCH (R108). -/
def execMatchLanes (p : Option Pfx) (k : BitVec 4) (d a : Code) (s : State) :=
  issueOk (.matchLanes p k d a) (fun q =>
    let lanes := q.lanes
    if q.fm.p.mdst then
      let m := match lanes.head? with
        | some f => (lanes.filter (fun i => q.a i = q.a f)).map q.lid
        | none => []
      q.openDone (q.lookahead k) [] (some (d.toNat, m, q.g.lids q.g.exist)) 0
    else
      q.openDone (q.lookahead k)
        (q.pending 1 (fun i => [BitVec.ofNat 32 ((lanes.find? (fun m => q.a m = q.a i)).getD i)]) ++ q.pendingZeros 1) none 0) s

/-! ### Reductions and scans -/

/-- One level of the tree: positions 2j and 2j+1 combine into j; a lone node passes through (R110). -/
def treeLevel {α : Type} (op : α → α → α) : List (Nat × α) → List (Nat × α)
  | (p, x) :: (r, y) :: rest =>
    if p / 2 = r / 2 then (p / 2, op x y) :: treeLevel op rest else (p / 2, x) :: treeLevel op ((r, y) :: rest)
  | [(p, x)] => [(p / 2, x)]
  | [] => []

/-- `n` levels of the tree. -/
def treeLevels {α : Type} (op : α → α → α) : Nat → List (Nat × α) → List (Nat × α)
  | 0, l => l
  | n + 1, l => treeLevels op n (treeLevel op l)

/-- The reduction of the values at ascending positions (R110); none when no lane takes part. -/
def treeReduce {α : Type} (op : α → α → α) (l : List (Nat × α)) : Option α := (treeLevels op 11 l).head?.map (·.2)

/-- The position of a lane in the tree: its lid under DET, else its LANEIX (R110). -/
def Iss.pos (q : Iss) (i : Nat) : Nat := if mrDet q.g.mr then q.lid i else i

/-- A node: an element pattern with the flags raised so far. -/
abbrev Node := Nat × Nat

/-- op(x, y) of a reduction function on elements: 0 ADD, 1 MIN, 2 MAX (R109). -/
def redOp (fn e : Nat) (sat ftz : Bool) (mode : Mode) (x y : Node) : Node :=
  let n := etWidth e
  if etFloat e then
    let f := etFmt e
    let r := if fn = 0 then ({ f := f, mode := mode, rv := 0, ftz := ftz } : RCtx).add (f.input ftz x.1) (f.input ftz y.1)
      else fminmax f ftz (fn == 2) false x.1 y.1
    (r.1, x.2 ||| y.2 ||| r.2)
  else
    let v := fun (p : Nat) => if etSigned e then sextNat n p else Int.ofNat p
    let r := if fn = 0 then fitN n (etSigned e) sat (v x.1 + v y.1)
      else if fn = 1 then (if v x.1 ≤ v y.1 then x.1 else y.1)
      else (if v x.1 ≤ v y.1 then y.1 else x.1)
    (r, 0)

/-- A bitwise node operation: 3 and, 4 or, 5 xor (R109). -/
def redBit (fn : Nat) (x y : Node) : Node :=
  (if fn = 3 then x.1 &&& y.1 else if fn = 4 then x.1 ||| y.1 else x.1 ^^^ y.1, 0)

/-- The mode of a reduction: SR reads as RNE (R109). -/
def Iss.redMode (q : Iss) : Mode := if q.rnd = 5 then 0 else q.rnd

/-- The lanes of EXEC with their positions, ascending. -/
def Iss.posLanes (q : Iss) : List (Nat × Nat) := q.lanes.map (fun i => (q.pos i, i))

/-- The result of element k in a lane: over EXEC, or over the lanes at or below it for a scan (R111). -/
def Iss.redElem (q : Iss) (scan : Bool) (op : Node → Node → Node) (val : Nat → Nat) (i : Nat) : Node :=
  let l := if scan then q.posLanes.filter (fun p => decide (p.1 ≤ q.pos i)) else q.posLanes
  (treeReduce op (l.map (fun p => (p.1, (val p.2, 0))))).getD (0, 0)

/-- A reduction or scan by a function code (R57, R109-R111). A trap names the lowest lid in EXEC (R109); where that lane's own scan raised
nothing, its element and operands are those of the first lane of EXEC that raised an enabled flag (log 48, DEDUCED). -/
def Iss.reduce (q : Iss) (fn : Nat) (scan : Bool) (k : BitVec 4) : Eff :=
  let bitwise := decide (3 ≤ fn) && decide (fn ≤ 5)
  let w := if bitwise then 32 else etWidth q.etype
  let op := if bitwise then redBit fn else redOp fn q.etype (mrSat q.g.mr) q.ftz q.redMode
  let f := fun i e =>
    let r := q.redElem scan op (fun j => elemNat w (q.a j) e) i
    (⟨r.1, r.2, [elemNat w (q.a i) e]⟩ : ElemRes)
  let r := q.lanes.map (fun i => (i, (List.range (32 / w)).map (f i)))
  -- the report names the lowest lid in EXEC (R109)
  match q.fpTrap r with
  | some t => .trap { t with lid := q.lid (q.lanes.headD 0) }
  | none =>
    .ok (q.openDone (q.lookahead k)
      (q.pending 1 (fun i => [BitVec.ofNat 32 (ofElems w ((List.range (32 / w)).map (fun e => (f i e).bits)))]) ++ q.pendingZeros 1)
      none (allFlags r))

/-- RED.ADD (R109-R111). -/
def execRedAdd (p : Option Pfx) (k : BitVec 4) (d a : Code) (s : State) := issue (.redAdd p k d a) (fun q => q.reduce 0 false k) s
/-- RED.MIN (R109-R111). -/
def execRedMin (p : Option Pfx) (k : BitVec 4) (d a : Code) (s : State) := issue (.redMin p k d a) (fun q => q.reduce 1 false k) s
/-- RED.MAX (R109-R111). -/
def execRedMax (p : Option Pfx) (k : BitVec 4) (d a : Code) (s : State) := issue (.redMax p k d a) (fun q => q.reduce 2 false k) s
/-- RED.BIT.and (R109-R111). -/
def execRedBitAnd (p : Option Pfx) (k : BitVec 4) (d a : Code) (s : State) := issue (.redBitAnd p k d a) (fun q => q.reduce 3 false k) s
/-- RED.BIT.or (R109-R111). -/
def execRedBitOr (p : Option Pfx) (k : BitVec 4) (d a : Code) (s : State) := issue (.redBitOr p k d a) (fun q => q.reduce 4 false k) s
/-- RED.BIT.xor (R109-R111). -/
def execRedBitXor (p : Option Pfx) (k : BitVec 4) (d a : Code) (s : State) := issue (.redBitXor p k d a) (fun q => q.reduce 5 false k) s
/-- SCAN.ADD (R109-R111). -/
def execScanAdd (p : Option Pfx) (k : BitVec 4) (d a : Code) (s : State) := issue (.scanAdd p k d a) (fun q => q.reduce 0 true k) s
/-- SCAN.MAX (R109-R111). -/
def execScanMax (p : Option Pfx) (k : BitVec 4) (d a : Code) (s : State) := issue (.scanMax p k d a) (fun q => q.reduce 2 true k) s

/-- The weight of a lane in CSAMP and the flag it raises (R112). -/
def csampWeight (ftz : Bool) (x : Word) : Node :=
  let p := fp32.ftzIn ftz x.toNat
  match fp32.decode p with
  | .nan _ => (0, flIV)
  | .inf _ => (0, flIV)
  | .fin n m _ => if m = 0 then (0, 0) else if n then (0, flIV) else (p, 0)

/-- CSAMP (R112). -/
def execCsamp (p : Option Pfx) (k : BitVec 4) (d a : Code) (s : State) :=
  issue (.csamp p k d a) (fun q =>
    let op := redOp 0 2 false q.ftz 0
    let tot := fun i => q.redElem true op (fun j => (csampWeight q.ftz (q.a j)).1) i
    let iv := q.lanes.foldl (fun f i => f ||| (csampWeight q.ftz (q.a i)).2 ||| (tot i).2) 0
    let last := (q.lanes.getLast?).getD 0
    let sm := (tot last).1
    let none' := q.lanes.isEmpty || sm == 0 || sm == fp32.infPat
    let fl := iv ||| flagIf (!q.lanes.isEmpty && sm == fp32.infPat) flOF
    let u := bitsOf (q.mixWord (8 * q.lid (q.lanes.headD 0)) 0) 23 0
    let th := match fp32.decode sm with
      | .fin _ m e => (fp32.round 1 0 false false false (u * m) (e - 24)).1
      | _ => 0
    let drawn := q.lanes.find? (fun i => decide (0 < fcompare (fp32.decode (tot i).1) (fp32.decode th)))
    let out : Word := if none' then BitVec.allOnes 32
      else match drawn with
        | some i => BitVec.ofNat 32 (q.lid i)
        | none => BitVec.allOnes 32
    -- a trapping draw names the lowest lid of EXEC, as R109 states for this major
    match q.fpTrap (q.lanes.take 1 |>.map (fun i => (i, [⟨0, fl, [(q.a i).toNat]⟩]))) with
    | some t => .trap t
    | none => .ok (q.openDone (q.lookahead k) (q.pending 1 (fun _ => [out]) ++ q.pendingZeros 1) none fl)) s

end Sys2Proof.Machine
end

