-- ==== Sys2Proof/Machine/Masks.lean ====
section
/-!
DEFINITION. The mask instructions (R204, R205).
-/
namespace Sys2Proof.Machine

/-- A triple source: a triple, or ZERO (R204). -/
def Iss.tri (q : Iss) (c : Code) : Mask := if c.toNat = 0x74 then 0 else q.g.triple c.toNat

/-- The state after a triple is written (R8, R86). -/
def Iss.putTriple (q : Iss) (d : Code) (m : Mask) : State := q.modGroup (fun g => g.setTriple d.toNat m)

/-- MAND (R205). -/
def execMand (d a b : Code) (s : State) := issueOk (.mand d a b) (fun q => q.putTriple d (q.tri a &&& q.tri b)) s
/-- MOR (R205). -/
def execMor (d a b : Code) (s : State) := issueOk (.mor d a b) (fun q => q.putTriple d (q.tri a ||| q.tri b)) s
/-- MXOR (R205). -/
def execMxor (d a b : Code) (s : State) := issueOk (.mxor d a b) (fun q => q.putTriple d (q.tri a ^^^ q.tri b)) s
/-- MNOT (R205). -/
def execMnot (d a : Code) (s : State) := issueOk (.mnot d a) (fun q => q.putTriple d (~~~(q.tri a) &&& q.g.exist)) s
/-- MANDN (R205). -/
def execMandn (d a b : Code) (s : State) := issueOk (.mandn d a b) (fun q => q.putTriple d (q.tri a &&& ~~~(q.tri b))) s

/-- MPOP (R205). -/
def execMpop (d a : Code) (s : State) :=
  issueOk (.mpop d a) (fun q => q.modGroup (fun g => g.setS d.toNat (BitVec.ofNat 32 (maskList (q.tri a)).length))) s

/-- MFFS (R205). -/
def execMffs (d a : Code) (s : State) :=
  issueOk (.mffs d a) (fun q => q.modGroup (fun g => g.setS d.toNat
    (match (maskList (q.tri a)).head? with
     | some i => BitVec.ofNat 32 i
     | none => BitVec.allOnes 32))) s

/-- MCUR (R205). -/
def execMcur (d : Code) (s : State) := issueOk (.mcur d) (fun q => q.putTriple d q.f.mask) s

/-- MSPILL (R205). -/
def execMspill (d a : Code) (s : State) := issueOk (.mspill d a) (fun q => q.result (fun i => wordOfBool ((q.tri a).getLsbD i))) s

/-- MFILL (R205). -/
def execMfill (l : Option Word) (d a : Code) (s : State) :=
  issueOk (.mfill l d a) (fun q =>
    q.putTriple d ((q.g.triple d.toNat &&& ~~~q.ex) ||| maskOfList (q.lanes.filter (fun i => q.a i != 0)))) s

end Sys2Proof.Machine
end

