-- ==== Sys2Proof/Machine/Scalar.lean ====
section
/-!
DEFINITION. The S-forms: scalar arithmetic, select, move and compare (R144-R146).
-/
namespace Sys2Proof.Machine

/-- The state after an S-form writes its destination; ZERO discards (R144). -/
def Iss.scalar (q : Iss) (x : Word) : State :=
  match q.opD with
  | .s n => q.modGroup (fun g => g.setS n x)
  | _ => q.s

/-- SADD (R145). -/
def execSadd (l : Option Word) (d a b : Code) (s : State) := issueOk (.sadd l d a b) (fun q => q.scalar (q.uni .a + q.uni .b)) s
/-- SSUB (R145). -/
def execSsub (l : Option Word) (d a b : Code) (s : State) := issueOk (.ssub l d a b) (fun q => q.scalar (q.uni .a - q.uni .b)) s
/-- SMUL (R145). -/
def execSmul (l : Option Word) (d a b : Code) (s : State) := issueOk (.smul l d a b) (fun q => q.scalar (q.uni .a * q.uni .b)) s
/-- SSHL (R145). -/
def execSshl (l : Option Word) (d a b : Code) (s : State) := issueOk (.sshl l d a b) (fun q => q.scalar (opSshl (q.uni .a) (q.uni .b))) s
/-- SSHR (R145). -/
def execSshr (l : Option Word) (d a b : Code) (s : State) := issueOk (.sshr l d a b) (fun q => q.scalar (opSshr (q.uni .a) (q.uni .b))) s
/-- SAND (R145). -/
def execSand (l : Option Word) (d a b : Code) (s : State) := issueOk (.sand l d a b) (fun q => q.scalar (q.uni .a &&& q.uni .b)) s
/-- SOR (R145). -/
def execSor (l : Option Word) (d a b : Code) (s : State) := issueOk (.sor l d a b) (fun q => q.scalar (q.uni .a ||| q.uni .b)) s
/-- SXOR (R145). -/
def execSxor (l : Option Word) (d a b : Code) (s : State) := issueOk (.sxor l d a b) (fun q => q.scalar (q.uni .a ^^^ q.uni .b)) s
/-- SSEL: a when the old value of d is not zero, else b (R145). -/
def execSsel (l : Option Word) (d a b : Code) (s : State) :=
  issueOk (.ssel l d a b) (fun q => q.scalar (if q.uni .d = 0 then q.uni .b else q.uni .a)) s
/-- SMOV (R145). -/
def execSmov (l : Option Word) (d a : Code) (s : State) := issueOk (.smov l d a) (fun q => q.scalar (q.uni .a)) s
/-- SCMP (R146). -/
def execScmp (l : Option Word) (c : BitVec 4) (d a b : Code) (s : State) :=
  issueOk (.scmp l c d a b) (fun q => q.scalar (wordOfBool (intCond 32 c.toNat (q.uni .a).toNat (q.uni .b).toNat))) s

end Sys2Proof.Machine
end

