-- ==== Sys2Proof/Machine/Dispatch.lean ====
section
/-!
DEFINITION. The dispatch of exec: one arm per constructor of Instr, each one direct call of the instruction's meaning.
-/
namespace Sys2Proof.Machine

def exec (i : Instr) (s : State) : Host.Outcome State Fault Refusal :=
  match i with
  | .iadd x d a b => Sys2Proof.Machine.execIadd x d a b s
  | .isub x d a b => Sys2Proof.Machine.execIsub x d a b s
  | .imul x d a b => Sys2Proof.Machine.execImul x d a b s
  | .imulh x d a b => Sys2Proof.Machine.execImulh x d a b s
  | .imad x d a b => Sys2Proof.Machine.execImad x d a b s
  | .imadw x d a b => Sys2Proof.Machine.execImadw x d a b s
  | .ineg x d a => Sys2Proof.Machine.execIneg x d a s
  | .iabs x d a => Sys2Proof.Machine.execIabs x d a s
  | .imin x d a b => Sys2Proof.Machine.execImin x d a b s
  | .imax x d a b => Sys2Proof.Machine.execImax x d a b s
  | .isel x d a b => Sys2Proof.Machine.execIsel x d a b s
  | .sad x d a b => Sys2Proof.Machine.execSad x d a b s
  | .dot4 x d a b => Sys2Proof.Machine.execDot4 x d a b s
  | .lea x d a b => Sys2Proof.Machine.execLea x d a b s
  | .aadd x d a b => Sys2Proof.Machine.execAadd x d a b s
  | .icmp x c d a b => Sys2Proof.Machine.execIcmp x c d a b s
  | .and x d a b => Sys2Proof.Machine.execAnd x d a b s
  | .or x d a b => Sys2Proof.Machine.execOr x d a b s
  | .xor x d a b => Sys2Proof.Machine.execXor x d a b s
  | .not x d a => Sys2Proof.Machine.execNot x d a s
  | .andn x d a b => Sys2Proof.Machine.execAndn x d a b s
  | .shl x d a b => Sys2Proof.Machine.execShl x d a b s
  | .shr x d a b => Sys2Proof.Machine.execShr x d a b s
  | .sar x d a b => Sys2Proof.Machine.execSar x d a b s
  | .rol x d a b => Sys2Proof.Machine.execRol x d a b s
  | .shf x d a b => Sys2Proof.Machine.execShf x d a b s
  | .popc x d a => Sys2Proof.Machine.execPopc x d a s
  | .clz x d a => Sys2Proof.Machine.execClz x d a s
  | .ctz x d a => Sys2Proof.Machine.execCtz x d a s
  | .brev x d a => Sys2Proof.Machine.execBrev x d a s
  | .bfe x d a b => Sys2Proof.Machine.execBfe x d a b s
  | .bfi x d a b => Sys2Proof.Machine.execBfi x d a b s
  | .bytesel x d a b => Sys2Proof.Machine.execBytesel x d a b s
  | .mov x d a => Sys2Proof.Machine.execMov x d a s
  | .s2v d a => Sys2Proof.Machine.execS2v d a s
  | .v2s l d a => Sys2Proof.Machine.execV2s l d a s
  | .idiv x d a b => Sys2Proof.Machine.execIdiv x d a b s
  | .irem x d a b => Sys2Proof.Machine.execIrem x d a b s
  | .movi p d sh imm => Sys2Proof.Machine.execMovi p d sh imm s
  | .ldi p d imm => Sys2Proof.Machine.execLdi p d imm s
  | .sadd l d a b => Sys2Proof.Machine.execSadd l d a b s
  | .ssub l d a b => Sys2Proof.Machine.execSsub l d a b s
  | .smul l d a b => Sys2Proof.Machine.execSmul l d a b s
  | .sshl l d a b => Sys2Proof.Machine.execSshl l d a b s
  | .sshr l d a b => Sys2Proof.Machine.execSshr l d a b s
  | .sand l d a b => Sys2Proof.Machine.execSand l d a b s
  | .sor l d a b => Sys2Proof.Machine.execSor l d a b s
  | .sxor l d a b => Sys2Proof.Machine.execSxor l d a b s
  | .ssel l d a b => Sys2Proof.Machine.execSsel l d a b s
  | .smov l d a => Sys2Proof.Machine.execSmov l d a s
  | .scmp l c d a b => Sys2Proof.Machine.execScmp l c d a b s
  | .fadd x d a b => Sys2Proof.Machine.execFadd x d a b s
  | .fsub x d a b => Sys2Proof.Machine.execFsub x d a b s
  | .fmul x d a b => Sys2Proof.Machine.execFmul x d a b s
  | .ffma x d a b => Sys2Proof.Machine.execFfma x d a b s
  | .fmin x d a b => Sys2Proof.Machine.execFmin x d a b s
  | .fmax x d a b => Sys2Proof.Machine.execFmax x d a b s
  | .fminNum x d a b => Sys2Proof.Machine.execFminNum x d a b s
  | .fmaxNum x d a b => Sys2Proof.Machine.execFmaxNum x d a b s
  | .fabs x d a => Sys2Proof.Machine.execFabs x d a s
  | .fneg x d a => Sys2Proof.Machine.execFneg x d a s
  | .frnd x d a => Sys2Proof.Machine.execFrnd x d a s
  | .fclass x d a => Sys2Proof.Machine.execFclass x d a s
  | .fscale x d a b => Sys2Proof.Machine.execFscale x d a b s
  | .fcmp x c d a b => Sys2Proof.Machine.execFcmp x c d a b s
  | .cvtF2i x d a e => Sys2Proof.Machine.execCvtF2i x d a e s
  | .cvtI2f x d a e => Sys2Proof.Machine.execCvtI2f x d a e s
  | .cvtF2f x d a h e => Sys2Proof.Machine.execCvtF2f x d a h e s
  | .qnt x d a fmt => Sys2Proof.Machine.execQnt x d a fmt s
  | .dqnt x d a fmt => Sys2Proof.Machine.execDqnt x d a fmt s
  | .mxsc x d a fmt => Sys2Proof.Machine.execMxsc x d a fmt s
  | .pack x d a b => Sys2Proof.Machine.execPack x d a b s
  | .unpk x d a => Sys2Proof.Machine.execUnpk x d a s
  | .rng x d a => Sys2Proof.Machine.execRng x d a s
  | .flags l d a => Sys2Proof.Machine.execFlags l d a s
  | .rcp p k d a => Sys2Proof.Machine.execRcp p k d a s
  | .rsq p k d a => Sys2Proof.Machine.execRsq p k d a s
  | .sqrt p k d a => Sys2Proof.Machine.execSqrt p k d a s
  | .ex2 p k d a => Sys2Proof.Machine.execEx2 p k d a s
  | .lg2 p k d a => Sys2Proof.Machine.execLg2 p k d a s
  | .sinpi p k d a => Sys2Proof.Machine.execSinpi p k d a s
  | .cospi p k d a => Sys2Proof.Machine.execCospi p k d a s
  | .tanh p k d a => Sys2Proof.Machine.execTanh p k d a s
  | .sigm p k d a => Sys2Proof.Machine.execSigm p k d a s
  | .lreadAt x d a b => Sys2Proof.Machine.execLreadAt x d a b s
  | .lreadBack x d a b => Sys2Proof.Machine.execLreadBack x d a b s
  | .lreadFwd x d a b => Sys2Proof.Machine.execLreadFwd x d a b s
  | .lreadFlip x d a b => Sys2Proof.Machine.execLreadFlip x d a b s
  | .bcast x d a b => Sys2Proof.Machine.execBcast x d a b s
  | .voteAny x d a => Sys2Proof.Machine.execVoteAny x d a s
  | .voteAll x d a => Sys2Proof.Machine.execVoteAll x d a s
  | .voteBal x d a b => Sys2Proof.Machine.execVoteBal x d a b s
  | .lane d => Sys2Proof.Machine.execLane d s
  | .grpid d => Sys2Proof.Machine.execGrpid d s
  | .getw d => Sys2Proof.Machine.execGetw d s
  | .setw l a => Sys2Proof.Machine.execSetw l a s
  | .matchLanes p k d a => Sys2Proof.Machine.execMatchLanes p k d a s
  | .redAdd p k d a => Sys2Proof.Machine.execRedAdd p k d a s
  | .redMin p k d a => Sys2Proof.Machine.execRedMin p k d a s
  | .redMax p k d a => Sys2Proof.Machine.execRedMax p k d a s
  | .redBitAnd p k d a => Sys2Proof.Machine.execRedBitAnd p k d a s
  | .redBitOr p k d a => Sys2Proof.Machine.execRedBitOr p k d a s
  | .redBitXor p k d a => Sys2Proof.Machine.execRedBitXor p k d a s
  | .scanAdd p k d a => Sys2Proof.Machine.execScanAdd p k d a s
  | .scanMax p k d a => Sys2Proof.Machine.execScanMax p k d a s
  | .csamp p k d a => Sys2Proof.Machine.execCsamp p k d a s
  | .bra c off => Sys2Proof.Machine.execBra c off s
  | .brx c off => Sys2Proof.Machine.execBrx c off s
  | .brz c off => Sys2Proof.Machine.execBrz c off s
  | .join off => Sys2Proof.Machine.execJoin off s
  | .leave n => Sys2Proof.Machine.execLeave n s
  | .cont off => Sys2Proof.Machine.execCont off s
  | .call off => Sys2Proof.Machine.execCall off s
  | .calli a => Sys2Proof.Machine.execCalli a s
  | .ret => Sys2Proof.Machine.execRet s
  | .yield => Sys2Proof.Machine.execYield s
  | .exit l a b => Sys2Proof.Machine.execExit l a b s
  | .nop => Sys2Proof.Machine.execNop s
  | .mand d a b => Sys2Proof.Machine.execMand d a b s
  | .mor d a b => Sys2Proof.Machine.execMor d a b s
  | .mxor d a b => Sys2Proof.Machine.execMxor d a b s
  | .mnot d a => Sys2Proof.Machine.execMnot d a s
  | .mandn d a b => Sys2Proof.Machine.execMandn d a b s
  | .mpop d a => Sys2Proof.Machine.execMpop d a s
  | .mffs d a => Sys2Proof.Machine.execMffs d a s
  | .mcur d => Sys2Proof.Machine.execMcur d s
  | .mspill d a => Sys2Proof.Machine.execMspill d a s
  | .mfill l d a => Sys2Proof.Machine.execMfill l d a s
  | .setmode l m a imm => Sys2Proof.Machine.execSetmode l m a imm s
  | .getmode d => Sys2Proof.Machine.execGetmode d s
  | .bar n => Sys2Proof.Machine.execBar n s
  | .barTask n => Sys2Proof.Machine.execBarTask n s
  | .bara d n => Sys2Proof.Machine.execBara d n s
  | .barw l a n => Sys2Proof.Machine.execBarw l a n s
  | .barc l a n => Sys2Proof.Machine.execBarc l a n s
  | .role d => Sys2Proof.Machine.execRole d s
  | .teamid d => Sys2Proof.Machine.execTeamid d s
  | .nteam d => Sys2Proof.Machine.execNteam d s
  | .gridid d => Sys2Proof.Machine.execGridid d s
  | .lclk d h => Sys2Proof.Machine.execLclk d h s
  | .taskend => Sys2Proof.Machine.execTaskend s
  | .safept => Sys2Proof.Machine.execSafept s
  | .ecard l k h c a b => Sys2Proof.Machine.execEcard l k h c a b s
  | .etail l c a => Sys2Proof.Machine.execEtail l c a s
  | .eseq d sel c => Sys2Proof.Machine.execEseq d sel c s
  | .ewait l a c => Sys2Proof.Machine.execEwait l a c s
  | .graph l a b => Sys2Proof.Machine.execGraph l a b s
  | .gcond l a b => Sys2Proof.Machine.execGcond l a b s
  | .ldmb k t a sp fmt => Sys2Proof.Machine.execLdmb k t a sp fmt s
  | .mstart l k u a b => Sys2Proof.Machine.execMstart l k u a b s
  | .maccRd l d a => Sys2Proof.Machine.execMaccRd l d a s
  | .maccWr l a b => Sys2Proof.Machine.execMaccWr l a b s
  | .trap n => Sys2Proof.Machine.execTrap n s
  | .eret => Sys2Proof.Machine.execEret s
  | .emret lst => Sys2Proof.Machine.execEmret lst s
  | .wrd d j slot => Sys2Proof.Machine.execWrd d j slot s
  | .wwr l a j slot => Sys2Proof.Machine.execWwr l a j slot s
  | .winfo d ix => Sys2Proof.Machine.execWinfo d ix s
  | .csrr d n => Sys2Proof.Machine.execCsrr d n s
  | .csrw l a n => Sys2Proof.Machine.execCsrw l a n s
  | .segld a g => Sys2Proof.Machine.execSegld a g s
  | .tlbinv => Sys2Proof.Machine.execTlbinv s
  | .tlbinvVa a => Sys2Proof.Machine.execTlbinvVa a s
  | .dbgbrk n => Sys2Proof.Machine.execDbgbrk n s
  | .halt => Sys2Proof.Machine.execHalt s
  | .ldGB p k t a disp => Sys2Proof.Machine.execLdGB p k t a disp s
  | .ldGH p k t a disp => Sys2Proof.Machine.execLdGH p k t a disp s
  | .ldGW p k t a disp => Sys2Proof.Machine.execLdGW p k t a disp s
  | .ldGD p k t a disp => Sys2Proof.Machine.execLdGD p k t a disp s
  | .ldGQ p k t a disp => Sys2Proof.Machine.execLdGQ p k t a disp s
  | .ldSB p k t a disp => Sys2Proof.Machine.execLdSB p k t a disp s
  | .ldSH p k t a disp => Sys2Proof.Machine.execLdSH p k t a disp s
  | .ldSW p k t a disp => Sys2Proof.Machine.execLdSW p k t a disp s
  | .ldSD p k t a disp => Sys2Proof.Machine.execLdSD p k t a disp s
  | .ldSQ p k t a disp => Sys2Proof.Machine.execLdSQ p k t a disp s
  | .ldCB p k t a disp => Sys2Proof.Machine.execLdCB p k t a disp s
  | .ldCH p k t a disp => Sys2Proof.Machine.execLdCH p k t a disp s
  | .ldCW p k t a disp => Sys2Proof.Machine.execLdCW p k t a disp s
  | .ldCD p k t a disp => Sys2Proof.Machine.execLdCD p k t a disp s
  | .ldCQ p k t a disp => Sys2Proof.Machine.execLdCQ p k t a disp s
  | .ldLB p k t a disp => Sys2Proof.Machine.execLdLB p k t a disp s
  | .ldLH p k t a disp => Sys2Proof.Machine.execLdLH p k t a disp s
  | .ldLW p k t a disp => Sys2Proof.Machine.execLdLW p k t a disp s
  | .ldLD p k t a disp => Sys2Proof.Machine.execLdLD p k t a disp s
  | .ldLQ p k t a disp => Sys2Proof.Machine.execLdLQ p k t a disp s
  | .stGB p k t a disp => Sys2Proof.Machine.execStGB p k t a disp s
  | .stGH p k t a disp => Sys2Proof.Machine.execStGH p k t a disp s
  | .stGW p k t a disp => Sys2Proof.Machine.execStGW p k t a disp s
  | .stGD p k t a disp => Sys2Proof.Machine.execStGD p k t a disp s
  | .stGQ p k t a disp => Sys2Proof.Machine.execStGQ p k t a disp s
  | .stSB p k t a disp => Sys2Proof.Machine.execStSB p k t a disp s
  | .stSH p k t a disp => Sys2Proof.Machine.execStSH p k t a disp s
  | .stSW p k t a disp => Sys2Proof.Machine.execStSW p k t a disp s
  | .stSD p k t a disp => Sys2Proof.Machine.execStSD p k t a disp s
  | .stSQ p k t a disp => Sys2Proof.Machine.execStSQ p k t a disp s
  | .stLB p k t a disp => Sys2Proof.Machine.execStLB p k t a disp s
  | .stLH p k t a disp => Sys2Proof.Machine.execStLH p k t a disp s
  | .stLW p k t a disp => Sys2Proof.Machine.execStLW p k t a disp s
  | .stLD p k t a disp => Sys2Proof.Machine.execStLD p k t a disp s
  | .stLQ p k t a disp => Sys2Proof.Machine.execStLQ p k t a disp s
  | .ldGAcqW p k t a sc disp => Sys2Proof.Machine.execLdGAcqW p k t a sc disp s
  | .ldGAcqD p k t a sc disp => Sys2Proof.Machine.execLdGAcqD p k t a sc disp s
  | .ldSAcqW p k t a sc disp => Sys2Proof.Machine.execLdSAcqW p k t a sc disp s
  | .ldSAcqD p k t a sc disp => Sys2Proof.Machine.execLdSAcqD p k t a sc disp s
  | .stGRelW p k t a sc disp => Sys2Proof.Machine.execStGRelW p k t a sc disp s
  | .stGRelD p k t a sc disp => Sys2Proof.Machine.execStGRelD p k t a sc disp s
  | .stSRelW p k t a sc disp => Sys2Proof.Machine.execStSRelW p k t a sc disp s
  | .stSRelD p k t a sc disp => Sys2Proof.Machine.execStSRelD p k t a sc disp s
  | .atomGW p k t a sc op => Sys2Proof.Machine.execAtomGW p k t a sc op s
  | .atomGD p k t a sc op => Sys2Proof.Machine.execAtomGD p k t a sc op s
  | .atomSW p k t a sc op => Sys2Proof.Machine.execAtomSW p k t a sc op s
  | .atomSD p k t a sc op => Sys2Proof.Machine.execAtomSD p k t a sc op s
  | .redmGW p k t a sc op => Sys2Proof.Machine.execRedmGW p k t a sc op s
  | .redmGD p k t a sc op => Sys2Proof.Machine.execRedmGD p k t a sc op s
  | .ldv p k t a g w h => Sys2Proof.Machine.execLdv p k t a g w h s
  | .stv p k t a g w h => Sys2Proof.Machine.execStv p k t a g w h s
  | .prf k a disp => Sys2Proof.Machine.execPrf k a disp s
  | .cwb k a disp => Sys2Proof.Machine.execCwb k a disp s
  | .cinv k a disp => Sys2Proof.Machine.execCinv k a disp s
  | .waitc l a path => Sys2Proof.Machine.execWaitc l a path s
  | .segrd d lim g => Sys2Proof.Machine.execSegrd d lim g s
  | .fence sc => Sys2Proof.Machine.execFence sc s
  | .juryrig w => Sys2Proof.Machine.execJuryrig w s
  | .illegal w => Sys2Proof.Machine.execIllegal w s
  | .vendorTest w => Sys2Proof.Machine.execVendorTest w s
  | .mlda fmt abuf lsel stride off => Sys2Proof.Machine.execMlda fmt abuf lsel stride off s
  | .mma afmt bfmt atype slot abuf bbuf ovw => Sys2Proof.Machine.execMma afmt bfmt atype slot abuf bbuf ovw s
  | .mzero atype slot => Sys2Proof.Machine.execMzero atype slot s
  | .mdrain f => Sys2Proof.Machine.execMdrain f s
  | .marrb n => Sys2Proof.Machine.execMarrb n s
  | .mwaitb n => Sys2Proof.Machine.execMwaitb n s
  | .mloop count body => Sys2Proof.Machine.execMloop count body s
  | .mscale scl atype slot => Sys2Proof.Machine.execMscale scl atype slot s
  | .mend => Sys2Proof.Machine.execMend s
  | .maccRdStream slot off => Sys2Proof.Machine.execMaccRdStream slot off s
  | .maccWrStream slot off => Sys2Proof.Machine.execMaccWrStream slot off s
  | .exitArrival t g f => Sys2Proof.Machine.execExitArrival t g f s
  | .fragmentAgeing t g f => Sys2Proof.Machine.execFragmentAgeing t g f s
  | .hang t g => Sys2Proof.Machine.execHang t g s
  | .inFlightFinish t g op lanes keepL1 => Sys2Proof.Machine.execInFlightFinish t g op lanes keepL1 s
  | .reslice t => Sys2Proof.Machine.execReslice t s
  | .taskBoundary t => Sys2Proof.Machine.execTaskBoundary t s
  | .teamEnd t => Sys2Proof.Machine.execTeamEnd t s
  | .teamPlacement grid => Sys2Proof.Machine.execTeamPlacement grid s
  | .trapReport t src => Sys2Proof.Machine.execTrapReport t src s
  | .reportRingWrite fn => Sys2Proof.Machine.execReportRingWrite fn s
  | .pageWalk core ctx va acc => Sys2Proof.Machine.execPageWalk core ctx va acc s
  | .taskRollback t => Sys2Proof.Machine.execTaskRollback t s
  | .telltaleMismatch t m => Sys2Proof.Machine.execTelltaleMismatch t m s
  | .cardAcceptance => Sys2Proof.Machine.execCardAcceptance s
  | .cardDispatch => Sys2Proof.Machine.execCardDispatch s
  | .cardCompletion card => Sys2Proof.Machine.execCardCompletion card s
  | .quaySendArrival port tag bytes => Sys2Proof.Machine.execQuaySendArrival port tag bytes s
  | .quayLinkDown port => Sys2Proof.Machine.execQuayLinkDown port s
  | .graphStart p => Sys2Proof.Machine.execGraphStart p s
  | .graphNode p => Sys2Proof.Machine.execGraphNode p s
  | .berthDecision b => Sys2Proof.Machine.execBerthDecision b s
  | .commandAcceptance src => Sys2Proof.Machine.execCommandAcceptance src s
  | .commandCompletion c => Sys2Proof.Machine.execCommandCompletion c s
  | .launch c => Sys2Proof.Machine.execLaunch c s
  | .syslaunch c => Sys2Proof.Machine.execSyslaunch c s
  | .copy c => Sys2Proof.Machine.execCopy c s
  | .ctxnew c => Sys2Proof.Machine.execCtxnew c s
  | .ctxdel c => Sys2Proof.Machine.execCtxdel c s
  | .mapcode c => Sys2Proof.Machine.execMapcode c s
  | .tlbinvCommand c => Sys2Proof.Machine.execTlbinvCommand c s
  | .resumeRetry c => Sys2Proof.Machine.execResumeRetry c s
  | .resumeSkip c => Sys2Proof.Machine.execResumeSkip c s
  | .resumeKill c => Sys2Proof.Machine.execResumeKill c s
  | .grload c => Sys2Proof.Machine.execGrload c s
  | .grstart c => Sys2Proof.Machine.execGrstart c s
  | .debugCommand c => Sys2Proof.Machine.execDebugCommand c s
  | .signal c => Sys2Proof.Machine.execSignal c s
  | .preemptVacate c => Sys2Proof.Machine.execPreemptVacate c s
  | .preemptResize c => Sys2Proof.Machine.execPreemptResize c s
  | .preemptReleaseHold c => Sys2Proof.Machine.execPreemptReleaseHold c s
  | .s2resumeRetry c => Sys2Proof.Machine.execS2resumeRetry c s
  | .s2resumeSkip c => Sys2Proof.Machine.execS2resumeSkip c s
  | .s2resumeKill c => Sys2Proof.Machine.execS2resumeKill c s
  | .s2inv c => Sys2Proof.Machine.execS2inv c s
  | .preemptGraceExpiry t g => Sys2Proof.Machine.execPreemptGraceExpiry t g s
  | .contextSave part => Sys2Proof.Machine.execContextSave part s
  | .teamResume t => Sys2Proof.Machine.execTeamResume t s
  | .l2Window bank => Sys2Proof.Machine.execL2Window bank s
  | .railRaiseSettled rail => Sys2Proof.Machine.execRailRaiseSettled rail s
  | .railLowerHoldExpiry rail => Sys2Proof.Machine.execRailLowerHoldExpiry rail s
  | .thermalStep cluster celsius => Sys2Proof.Machine.execThermalStep cluster celsius s
  | .thermalShutdown cluster => Sys2Proof.Machine.execThermalShutdown cluster s
  | .brownout => Sys2Proof.Machine.execBrownout s
  | .powerUp => Sys2Proof.Machine.execPowerUp s
  | .pfFlr => Sys2Proof.Machine.execPfFlr s
  | .vfFlr v => Sys2Proof.Machine.execVfFlr v s
  | .partitionStart p => Sys2Proof.Machine.execPartitionStart p s
  | .kick fn v => Sys2Proof.Machine.execKick fn v s
  | .hmWallHi v => Sys2Proof.Machine.execHmWallHi v s
  | .val v => Sys2Proof.Machine.execVal v s
  | .hmInjCtl v => Sys2Proof.Machine.execHmInjCtl v s
  | .tenantBlockWrite t off v => Sys2Proof.Machine.execTenantBlockWrite t off v s
  | .partitionBlockWrite p off v => Sys2Proof.Machine.execPartitionBlockWrite p off v s
  | .quayPortWrite q v => Sys2Proof.Machine.execQuayPortWrite q v s
  | .repbase fn hi v => Sys2Proof.Machine.execRepbase fn hi v s
  | .rephead fn v => Sys2Proof.Machine.execRephead fn v s
  | .registerWrite fn off v => Sys2Proof.Machine.execRegisterWrite fn off v s
  | .quayLinkUp port => Sys2Proof.Machine.execQuayLinkUp port s
  | .chargeRecordUpdate cluster => Sys2Proof.Machine.execChargeRecordUpdate cluster s
  | .debuggerAttach ctx attached => Sys2Proof.Machine.execDebuggerAttach ctx attached s

end Sys2Proof.Machine
end

