-- ==== Sys2Proof/Machine/Telltale.lean ====
section
/-!
DEFINITION. Telltale: what a step does on the trailing core of a checked pair, and the comparison of the two sides (R387-R390, R397). The
trailing core's state of a team is held where it differs from the leading one's (log 17, DEDUCED).
-/
namespace Sys2Proof.Machine

/-- What Telltale has of one side of a step: the events and the trap that was raised (R389). -/
structure TelSide where
  events : List TelEvent
  trap : Option Trap
  deriving DecidableEq, Repr

/-- Where a fragment stands: its address, or where its arrival is to go on. -/
def Frag.aim (f : Frag) : DWord :=
  match f.park with
  | .contArrived x => x
  | _ => f.pc

/-- A branch with its outcome: of each fragment that then holds a lane of the one that issued it, the address and the mask, as R397 has
them (R389). -/
def TelEvent.outcome (e : TelEvent) (after : Team) : TelEvent :=
  if e.kind = 4 then
    let lid := ((e.lanes.head?).map (·.lid)).getD 0
    let mask := BitVec.ofNat 96 (((e.lanes.head?).map (·.data)).getD 0)
    { e with lanes := (((after.body.groups[e.group]?).map (·.frags)).getD []).filterMap (fun f =>
        if f.mask &&& mask = 0 then none else some { lid := lid, mask := 0, addr := f.aim.toNat, data := f.mask.toNat }) }
  else e

/-- A side of a step, from the team before it and after it. -/
def Team.side (before after : Team) : TelSide :=
  { events := (after.tel.drop before.tel.length).map (fun e => e.outcome after),
    trap := (if after.rollback = before.rollback then none else after.rollback) <|> after.traps.find? (fun x => !before.traps.any (fun y => y.id == x.id)) }

/-- Two traps agree where Telltale compares them (R389). -/
def Trap.agrees (x y : Trap) : Bool := x.cls == y.cls && x.pc == y.pc && x.lid == y.lid && x.elem == y.elem && x.stream == y.stream && x.g == y.g

/-- The mismatch of two traps, one of which may be absent (R397). -/
def trapMismatch (lead trail : Option Trap) : Mismatch :=
  let x := (lead <|> trail).getD { id := 0, cls := 0 }
  { kind := 5, lid := x.lid, elem := x.elem, group := if x.stream then 0xFF else x.g, pc := x.pc.toNat, leadMask := 0, trailMask := 0,
    leadAddr := ((lead.map Trap.pc).getD 0).toNat, trailAddr := ((trail.map Trap.pc).getD 0).toNat, leadData := 0, trailData := 0 }

/-- What Telltale compares of an event, by kind: addresses, data and masks by lane of a store or a drain, of an atomic its operation too; the
slot, words and numbers of a card or a graph; the targets and masks of a branch. It compares no PC (R389). -/
def TelEvent.compared (e : TelEvent) : TelEvent :=
  { e with pc := 0, op := if e.kind = 4 then 0 else e.op,
           lanes := if e.kind = 2 ∨ e.kind = 4 then e.lanes.map (fun l => { l with lid := 0 }) else e.lanes }

/-- What Telltale finds where it compares the leading side of a step with the trailing one (R389). -/
def TelSide.differ (a b : TelSide) : Option Mismatch :=
  let x := a.events.map TelEvent.compared
  let y := b.events.map TelEvent.compared
  if !(match a.trap, b.trap with
      | none, none => true
      | some x, some y => x.agrees y
      | _, _ => false) then some (trapMismatch a.trap b.trap)
  else if x ≠ y then
    let i := ((List.range (max x.length y.length)).find? (fun i => x[i]? != y[i]?)).getD 0
    some (eventMismatch (a.events[i]?) (b.events[i]?))
  else none

/-- What the trailing core has of an access that the leading one has in flight, with its own of that instruction: its scratchpad is its own, a
load brings it the bytes of its own lanes, and one that it has not, or has finished, only keeps its place in line (R245, R388). -/
def Op.shadow (o : Op) (own : Option Op) : Op :=
  if o.parts.any (·.scratch) then own.getD { o with parts := [] }
  else match o.kind, own with
    | .load .., some x => { o with parts := o.parts.filter (fun p => x.parts.any (fun y => y.lid == p.lid && y.ix == p.ix)) }
    | .load .., none | .block .., none => { o with kind := .card, parts := [], got := [] }
    | _, _ => o

/-- The trailing core makes no access to memory of its own: what the leading core has in flight answers for both (R388). -/
def Group.shadows (trail lead : Group) : Group :=
  { trail with flight := lead.flight.map (fun o => o.shadow (trail.flight.find? (fun x => x.id == o.id))) }

/-- What is to be held of the trailing core: nothing, where it holds what the leading core does. -/
def Body.lag (lead trail : Body) : Option Body :=
  let b := { trail with groups := trail.groups.zipIdx.map (fun g => ((lead.groups[g.2]?).map g.1.shadows).getD g.1) }
  if b = lead then none else some b

/-- The team as its trailing core holds it. -/
def Team.trailing (t : Team) : Team := { t with body := t.trail.getD t.body, trail := none }

/-- What the trailing core of a team waits for that no access in flight of the leading one will bring comes at once: its own scratchpad's, and
free values (R388; log 17, DESIGN CHOICE). -/
def State.bringStrays (s : State) (tid : Nat) (lead : Team) : State :=
  ((((s.team? tid).map (·.body.groups)).getD []).zipIdx).foldl (fun s g => g.1.flight.foldl (fun s o =>
    if !(((lead.body.groups[g.2]?).map (·.flight)).getD []).any (fun l => l.id == o.id) then s.performOp tid g.2 o.id (fun _ => true) false
    else if o.parts.any (·.blind) then s.performOp tid g.2 o.id (·.blind) false
    else s) s) s

/-- The trailing cluster is charged with what its core issues (R215, R387). -/
def State.chargeTrailing (s : State) (t : Team) (trailing : State) : State :=
  match t.core? with
  | some n => s.addCharge (n / 2 + 1) (trailing.chargeOf (n / 2 + 1) - s.chargeOf (n / 2 + 1))
  | none => s

/-- The trailing core follows a step of the leading one, 8 cycles later; what the leading core brought from outside reaches it bit for bit, and
Telltale compares the two (R387-R389). -/
def State.follow (s s' : State) (tid : Nat) (e : State → Option State) : State :=
  match s.team? tid, s'.team? tid with
  | some t, some t' =>
    if t.trail.isNone || t'.trail.isNone then s'
    else
      let lead := t.side t'
      let echo : Lead := { parts := t'.took.drop t.took.length, fault := lead.trap }
      let start := s.modTeam tid (fun t => { t.trailing with lead := some echo })
      let x := ((e start).getD start).bringStrays tid t'
      let u := (x.team? tid).getD t.trailing
      let m := TelSide.differ lead (t.trailing.side u)
      ({ s' with freeCount := s'.freeCount + 1 }.chargeTrailing t x).modTeam tid (fun x =>
        { x with trail := t'.body.lag u.body, mismatch := x.mismatch <|> m })
  | _, _ => s'

/-- A step of the device, with what it does on trailing cores. -/
def State.both (s : State) (e : State → Option State) : Option State :=
  (e s).map (fun s' => (s.teams.filter (fun t => t.trail.isSome)).foldl (fun s' t => s.follow s' t.id e) s')

/-- A hardware error strikes one core of a team: of a level-2 team the leading or the trailing one, and of another its only one
(R388). -/
def State.strike (s : State) (team : Nat) (trailing : Bool) (f : Team → Team) : State :=
  s.modTeam team (fun t =>
    if t.pairSlot.isNone then (if trailing then t else f t)
    else if trailing then { t with trail := t.body.lag (f t.trailing).body }
    else
      let t' := f t
      { t' with trail := t'.body.lag (t.trail.getD t.body) })

/-- A place of a team becomes uncorrectable (R236; log 19, DESIGN CHOICE). A FRAG error is of a fragment that is spilled, or holds join
entries (R197). -/
def Spot.spoil (p : Spot) (t : Team) : Team :=
  match p with
  | .lane lid r => t.modLane lid (fun ln => if ln.ue.contains r then ln else { ln with ue := ln.ue ++ [r] })
  | .scalar g n => t.modGroup g (fun g => if g.ue.contains n then g else { g with ue := g.ue ++ [n] })
  | .scratch w =>
    if decide ((t.hdr.pb2 - t.hdr.pb1) * 256 ≤ w) || t.body.scratchUE.contains w then t
    else t.modBody (fun b => { b with scratchUE := insertBy (fun w => w) w b.scratchUE })
  | .frag g f => t.modGroup g (fun g => g.modFrag f (fun f => if f.slot.isNone || !f.chain.isEmpty then { f with ue := true } else f))

/-- A bit of a place of a team flips unseen (log 17, DESIGN CHOICE). -/
def Spot.flip (p : Spot) (bit : Nat) (t : Team) : Team :=
  let x : Word := BitVec.ofNat 32 (2 ^ bit)
  match p with
  | .lane lid r => t.modLane lid (fun ln => match r with
      | .v n => { ln with v := ln.v.set n (ln.v.get n ^^^ x) }
      | .q n => { ln with q := ln.q.set n (ln.q.get n ^^^ x) }
      | .l n => { ln with l := ln.l.set n (ln.l.get n ^^^ x) })
  | .scalar g n => t.modGroup g (fun g => { g with s := g.s.set n (g.s.get n ^^^ x) })
  | .scratch w => t.modBody (fun b => { b with scratch := b.scratch.writeNat (4 * w) 4 (b.scratch.readNat (4 * w) 4 ^^^ x.toNat) })
  | .frag g f => t.modGroup g (fun g => g.modFrag f (fun f => { f with pc := f.pc ^^^ BitVec.ofNat 64 (2 ^ (2 + bit % 50)) }))

/-- An unseen flip on a core of a level-2 team (R389; log 17, DESIGN CHOICE). -/
def State.flipAt (s : State) (team : Nat) (p : Spot) (bit : Nat) (trailing : Bool) : State :=
  if ((s.team? team).map (fun t => t.pairSlot.isSome)).getD false then s.strike team trailing (p.flip bit) else s

end Sys2Proof.Machine
end

