-- ==== Sys2Proof/Machine/Due.lean ====
section
/-!
DEFINITION. The events of the device that may be due in a state, in the order in which the model lets them happen when the agenda names
nothing (log 2, DESIGN CHOICE). Each is due where its meaning gives a next state.
-/
namespace Sys2Proof.Machine

/-- An event's meaning, its operands given. -/
abbrev Event := State → Host.Outcome State Fault Refusal

/-- The next piece of a card, as something that may be due (R294; log 21, DESIGN CHOICE). -/
def State.enginePieceEvent (s : State) (card : Nat) : Host.Outcome State Fault Refusal :=
  match s.enginePiece card with
  | some s => .next s
  | none => .refused .notDue

/-- What an instruction or event comes to in a state, where it has a next state. -/
def nextOf (r : Host.Outcome State Fault Refusal) : Option State :=
  match r with
  | .next s => some s
  | _ => none

/-- Events of one team. A fragment at its JADDR arrives when its group would offer it (R185; log 27, DEDUCED). -/
def Team.events (t : Team) : List Event :=
  (t.mismatch.toList.map (fun m => execTelltaleMismatch t.id m))
  ++ (if t.rollback.isSome then [execTaskRollback t.id] else [])
  ++ (if t.reslice.isSome then [execReslice t.id] else [])
  ++ (if t.boundary.isSome then [execTaskBoundary t.id] else [])
  ++ (if t.over then [execTeamEnd t.id] else [])
  ++ t.body.groups.zipIdx.flatMap (fun g =>
      (if g.1.grace = some 0 && !g.1.stopped then [execPreemptGraceExpiry t.id g.2] else [])
      ++ (if hangLimit ≤ g.1.hang then [execHang t.id g.2] else [])
      ++ g.1.frags.zipIdx.flatMap (fun f =>
          (if f.1.atExit && g.1.offered == some f.2 then [execExitArrival t.id g.2 f.2] else [])
          ++ (if f.1.slot.isSome && decide (ageLimit ≤ f.1.count) then [execFragmentAgeing t.id g.2 f.2] else [])))
  ++ (t.traps.filter (fun tr => !tr.reported)).map (fun tr => execTrapReport t.id (if tr.stream then .stream else .group tr.g))

/-- The events that an accepted command may be (R413). -/
def Command.events (c : Command) : List Event :=
  match recOpcode c.words with
  | 0x01 => [execLaunch c.id]
  | 0x02 => [execSyslaunch c.id]
  | 0x03 => [execCopy c.id]
  | 0x04 => [execCtxnew c.id]
  | 0x05 => [execCtxdel c.id]
  | 0x06 => [execMapcode c.id]
  | 0x07 => [execTlbinvCommand c.id]
  | 0x08 => [execResumeRetry c.id, execResumeSkip c.id, execResumeKill c.id]
  | 0x09 => [execGrload c.id]
  | 0x0A => [execGrstart c.id]
  | 0x0B => [execDebugCommand c.id]
  | 0x0C => [execSignal c.id]
  | 0x20 => [execPreemptVacate c.id, execPreemptResize c.id, execPreemptReleaseHold c.id]
  | 0x21 => [execS2resumeRetry c.id, execS2resumeSkip c.id, execS2resumeKill c.id]
  | 0x22 => [execS2inv c.id]
  | _ => []

/-- Events of one partition, those of commands first. -/
def partEvents (p : Partition × Nat) : List Event :=
  if p.1.started then [execCommandAcceptance (.berths p.2)] else []

/-- The functions with reports to write. -/
def State.reportFns (s : State) : List Fn :=
  (if s.pfRegs.reports.isEmpty then [] else [Fn.pf])
  ++ (s.vfs.zipIdx.filter (fun v => !v.1.reports.isEmpty)).map (fun v => Fn.vf v.2)

/-- Everything that may be due, in the model's order (log 2, DESIGN CHOICE). -/
def State.events (s : State) : List Event :=
  (s.parts.zipIdx.filter (fun p => p.1.en && p.1.busy)).map (fun p => execPartitionStart p.2)
  ++ s.teams.flatMap Team.events
  ++ s.preempts.map (fun p => execContextSave p.part)
  ++ s.reportFns.map execReportRingWrite
  ++ s.cmds.flatMap (fun c => if c.code.isSome then [execCommandCompletion c.id] else if c.started then [] else c.events)
  ++ s.parts.zipIdx.flatMap partEvents
  ++ (if s.pfRegs.pending.isEmpty then [] else [execCommandAcceptance .pfQueues])
  ++ ((if s.parts.any Partition.started then List.range 64 else []).map execBerthDecision)
  ++ (if s.pubs.isEmpty then [] else [execCardAcceptance])
  ++ (if s.cards.isEmpty then [] else [execCardDispatch])
  ++ s.cards.map (fun c => execCardCompletion c.id)
  ++ s.cards.map (fun c s => s.enginePieceEvent c.id)
  ++ (s.parts.zipIdx.filter (fun p => !p.1.starts.isEmpty)).map (fun p => execGraphStart p.2)
  ++ (s.parts.zipIdx.filter (fun p => !p.1.ready.isEmpty)).map (fun p => execGraphNode p.2)
  ++ (s.teams.filter Team.isSaved).map (fun t => execTeamResume t.id)
  ++ (s.grids.filter (fun g => g.placed < g.teams)).map (fun g => execTeamPlacement g.id)
  ++ (s.banks.zipIdx.filter (fun b => !b.1.windows.isEmpty)).map (fun b => execL2Window b.2)

/-- The next state of the first event that is due. -/
def State.firstDue (s : State) : Option State := s.events.findSome? (fun e => s.both (fun s => nextOf (e s)))

end Sys2Proof.Machine
end

