-- ==== Sys2Proof/Machine/Fetch.lean ====
section
/-!
DEFINITION. Fetching the words of a group instruction or of a stream word, the fragment overflow area, and the traps a fetch takes (R30,
R64, R79, R82, R83, R197, R346-R350, R449).
-/
namespace Sys2Proof.Machine

/-- Why a word cannot be fetched: a failed translation of its address or of a record of the overflow area, or a poisoned word (R197, R255,
R349). -/
inductive FetchErr where
  | xlate (va : Nat) (e : XErr)
  | overflow (va : Nat) (e : XErr)
  | ue (va : Nat)
  deriving DecidableEq, Repr

/-! ### The instruction caches (R16, R82, R83) -/

/-- Words and instructions that a core's instruction caches hold (log 42, DESIGN CHOICE). -/
def codeRoom : Nat := 4096

/-- The tag of a team's code at an address: context, its code generation, COMPAT16, ISAVER minor, address (R82). -/
def State.codeTag (s : State) (t : Team) (va : Nat) : CodeTag :=
  { ctx := t.ctx, gen := ((s.ctxs.find? (fun (c : Context) => c.num == t.ctx)).map (·.codeGen)).getD 0, compat16 := t.hdr.compat16,
    isaMinor := t.hdr.isaMinor, va := va }

/-- Put a word into the byte instruction cache; the oldest go when there is no room (R82; log 42, DESIGN CHOICE). -/
def Core.keepWord (k : Core) (tag : CodeTag) (w : Word) : Core :=
  { k with code := ((tag, w) :: k.code.filter (fun e => e.1 != tag)).take codeRoom }

/-- Put the words of a decoded instruction into the decoded-operation cache (R82; log 42, DESIGN CHOICE). -/
def Core.keepOp (k : Core) (tag : CodeTag) (ws : List Word) : Core :=
  { k with ops := ((tag, ws) :: k.ops.filter (fun e => e.1 != tag)).take codeRoom }

/-- A code word of a team's core: from the byte instruction cache where the whole tag matches, else from memory, which fills the cache; none
where memory holds a poisoned word (R82, R255). -/
def State.cachedWord (s : State) (t : Team) (va pa : Nat) : State × Option Word :=
  let tag := s.codeTag t va
  match t.core?.bind (fun c => (s.cores[c]?).bind (fun k => (k.code.find? (fun e => e.1 == tag)).map (·.2))) with
  | some w => (s, some w)
  | none =>
    if !inAperture pa && s.poisoned pa 4 then (s, none)
    else
      let w := BitVec.ofNat 32 (s.physRead pa 4)
      let s := s.hostRequest (.vf t.tenant) false pa 4
      (match t.core? with
       | some c => s.modCore c (fun k => k.keepWord tag w)
       | none => s, some w)

/-- Read an aligned code unit of 4 or 8 bytes at an address of a team's context (R30, R64, R347). -/
def State.codeUnit (s : State) (t : Team) (va n : Nat) : State × Except FetchErr Nat :=
  if va % n ≠ 0 then (s, .error (.xlate va { stage := 1, level := 0, reason := 2 }))
  else
    match s.translate t.core? t.tenant t.ctx va { kind := .fetch, write := false, size := n } with
    | (s, .error e) => (s, .error (.xlate va e))
    | (s, .ok (pa, _)) =>
      match s.cachedWord t va pa with
      | (s, none) => (s, .error (.ue va))
      | (s, some w) =>
        if n = 4 then (s, .ok w.toNat)
        else
          match s.cachedWord t (va + 4) (pa + 4) with
          | (s, none) => (s, .error (.ue va))
          | (s, some h) => (s, .ok (w.toNat + 2 ^ 32 * h.toNat))

/-- A group instruction as fetched: its words, the instruction the decoder reads from them, its length (R30, R39). -/
structure Fetched where
  w0 : Word
  w1 : Word := 0
  w2 : Word := 0
  instr : Instr
  len : Nat
  deriving DecidableEq, Repr

/-- The words at an address, only as many as the decoder needs (R30). -/
def State.decodeAt (s : State) (t : Team) (va : Nat) : State × Except FetchErr Fetched :=
  match s.codeUnit t va 4 with
  | (s, .error e) => (s, .error e)
  | (s, .ok x0) =>
    let w0 := BitVec.ofNat 32 x0
    match decodeWords w0 none none with
    | .ok (i, n) => (s, .ok { w0 := w0, instr := i, len := n })
    | .error _ =>
      match s.codeUnit t (va + 4) 4 with
      | (s, .error e) => (s, .error e)
      | (s, .ok x1) =>
        let w1 := BitVec.ofNat 32 x1
        match decodeWords w0 (some w1) none with
        | .ok (i, n) => (s, .ok { w0 := w0, w1 := w1, instr := i, len := n })
        | .error _ =>
          match s.codeUnit t (va + 8) 4 with
          | (s, .error e) => (s, .error e)
          | (s, .ok x2) =>
            let w2 := BitVec.ofNat 32 x2
            match decodeWords w0 (some w1) (some w2) with
            | .ok (i, n) => (s, .ok { w0 := w0, w1 := w1, w2 := w2, instr := i, len := n })
            | .error _ => (s, .error (.ue va))

/-- The instruction that some words begin with (R30). -/
def fetchedOf (ws : List Word) : Option Fetched :=
  match decodeWords (ws.getD 0 0) ws[1]? ws[2]? with
  | .ok (i, n) => some { w0 := ws.getD 0 0, w1 := ws.getD 1 0, w2 := ws.getD 2 0, instr := i, len := n }
  | .error _ => none

/-- The decoded-operation cache's entry for a team's code at an address, where the whole tag matches (R82). -/
def State.decodedOp (s : State) (t : Team) (va : Nat) : Option Fetched :=
  t.core?.bind (fun c => (s.cores[c]?).bind (fun k => (k.ops.find? (fun e => e.1 == s.codeTag t va)).bind (fun e => fetchedOf e.2)))

/-- The instruction at an address: from the decoded-operation cache where the whole tag matches, else from its words, which fill it. Its
first word's address is translated in either case (R30, R82, R347). -/
def State.fetchWords (s : State) (t : Team) (va : Nat) : State × Except FetchErr Fetched :=
  match s.decodedOp t va with
  | some x =>
    (match s.codeUnit t va 4 with
     | (s, .error (.xlate va e)) => (s, .error (.xlate va e))
     | (s, _) => (s, .ok x))
  | none =>
    match s.decodeAt t va with
    | (s, .error e) => (s, .error e)
    | (s, .ok x) =>
      (match t.core? with
       | some c => s.modCore c (fun k => k.keepOp (s.codeTag t va) ([x.w0, x.w1, x.w2].take (x.len / 4)))
       | none => s, .ok x)

/-! ### The fragment overflow area (R197) -/

/-- Where a team's overflow area begins: above the LOCAL span of the launch (R197, R240). -/
def Team.overflowBase (t : Team) : Nat :=
  match t.segT[3]? with
  | some sg => sg.base.toNat + t.body.lanes.length * sg.limit
  | none => 0

/-- A group's records beyond its share as 8-byte words with their addresses, from the first byte of its lanes' part of the area (R197; log
25, DESIGN CHOICE). -/
def Team.overflowWords (t : Team) (g : Group) : List (Nat × Nat) :=
  (g.records.drop t.hdr.fragShare).zipIdx.flatMap (fun r =>
    (List.range 4).map (fun i => (t.overflowBase + 1024 * g.first + 32 * r.2 + 8 * i, r.1.toNat / 2 ^ (64 * i) % 2 ^ 64)))

/-- Write records to the overflow area, as far as the first word whose address does not translate (R197, R350). -/
def State.spill (s : State) (t : Team) (gi : Nat) : List (Nat × Nat) → State × Option FetchErr
  | [] => (s, none)
  | (va, x) :: rest =>
    match s.translate t.core? t.tenant t.ctx va { kind := .store, write := true, size := 8 } with
    | (s, .error e) => (s, some (.overflow va e))
    | (s, .ok (pa, mt)) => (s.committedWrite t.core? t.id gi pa 8 x mt 0).spill t gi rest

/-- A word is a prefix (R41). -/
def isPrefix (w : Word) : Bool := w.extractLsb' 25 7 == 0x7F#7

/-- The literal that R449 counts by the bits of a main word after its prefix. -/
def Fetched.counted (x : Fetched) : Bool :=
  let pfx := isPrefix x.w0
  countedLiteral (if pfx then some (Pfx.ofWord x.w0) else none) (Parts.ofWord (if pfx then x.w1 else x.w0))

/-- A word of a major that the V780 disables whose bits count a literal that no operand reads: an IDIV or IREM under XEN with a code 0x76, which
names a V register. As a word that takes the JURYRIG fate it has that literal all the same (R63, R449; log 12, DEDUCED). -/
def Fetched.fateLiteral (x : Fetched) (s : State) : Bool :=
  !s.skuOn 6 && x.len == 8 && isPrefix x.w0 && x.counted
    && (match x.instr with
        | .idiv .. | .irem .. => true
        | _ => false)

/-- A fetched word with the literal that R449 counts for a word of the JURYRIG fate. -/
def State.fateWords (s : State) (t : Team) (va : Nat) (x : Fetched) : State × Except FetchErr Fetched :=
  if !x.fateLiteral s then (s, .ok x)
  else
    match s.codeUnit t (va + 8) 4 with
    | (s, .error e) => (s, .error e)
    | (s, .ok l) => (s, .ok { x with w2 := BitVec.ofNat 32 l, len := 12 })

/-- What a group fetches at an address, once its records beyond the share have their places (R82, R197, R449). -/
def State.fetchGroup (s : State) (t : Team) (gi : Nat) (g : Group) (va : Nat) : State × Except FetchErr Fetched :=
  match s.spill t gi (t.overflowWords g) with
  | (s, some e) => (s, .error e)
  | (s, none) =>
    match s.fetchWords t va with
    | (s, .error e) => (s, .error e)
    | (s, .ok x) => s.fateWords t va x

/-- The bytes of the instruction at an address as far as its first word that cannot be read, that word with them. -/
def FetchErr.reach (e : FetchErr) (va : Nat) : Nat :=
  match e with
  | .xlate a _ | .ue a => a - va + 4
  | .overflow .. => 4

/-- The length of an instruction that could not be fetched: up to the word that cannot be read, which may be its literal, or longer where the
decoded-operation cache holds it; one that met the overflow area before its fetch has the length it is fetched with (R30, R39, R341; log 12,
DEDUCED). -/
def State.lengthAt (s : State) (t : Team) (va : Nat) (e : FetchErr) : Nat :=
  match e with
  | .overflow .. =>
    match s.fetchWords t va with
    | (_, .error e) => e.reach va
    | (s, .ok x) =>
      match (s.fateWords t va x).2 with
      | .error e => e.reach va
      | .ok x => x.len
  | e => max (e.reach va) (((s.decodedOp t va).map (·.len)).getD 4)

/-- What a group has of the instruction at an address: its words, or why and how far they cannot be read (R82, R197, R341, R449). -/
def State.codeFor (s : State) (t : Team) (gi : Nat) (g : Group) (va : Nat) : State × Except (FetchErr × Nat) Fetched :=
  match s.fetchGroup t gi g va with
  | (s, .error e) => (s, .error (e, s.lengthAt t va e))
  | (s, .ok x) => (s, .ok x)

/-- Who issues what: the fragment, the words, the length of R30 and R39 or of a word that takes the JURYRIG fate, and the length that R449's
bits give a word that traps ILLEGAL or OVERLAP at decode. A prefix that stands alone has no main word (R41; log 12, DEDUCED). -/
def Fetched.cur (x : Fetched) (team g f : Nat) (addr : DWord) : Cur :=
  let pfx := isPrefix x.w0
  let alone := pfx && x.len = 4
  let lit := decide ((if pfx then 8 else 4) < x.len)
  { team := team, g := g, f := f, addr := addr, pfxW := if pfx then x.w0 else 0, mainW := if alone then 0 else if pfx then x.w1 else x.w0,
    litW := if !lit then 0 else if pfx then x.w2 else x.w1, hasPfx := pfx, hasLit := lit, len := x.len,
    trapLen := if alone then 4 else 4 * (1 + pfx.toNat + x.counted.toNat) }

/-- The trap of a failed fetch, from the trap of its class (R349, R350). -/
def FetchErr.trap (e : FetchErr) (mk : Nat → Trap) : Trap :=
  match e with
  | .xlate va x => { mk clsXlate with addr := BitVec.ofNat 64 va, xlate := x.word .fetch, served := x.served }
  | .overflow va x => { mk clsXlate with addr := BitVec.ofNat 64 va, xlate := x.word .store, served := x.served }
  | .ue va => { mk clsMemUe with addr := BitVec.ofNat 64 va }

/-- A fragment whose fetch fails takes the trap in place of an instruction (R336, R337). -/
def fetchTrap (e : FetchErr) (s : State) : Host.Outcome State Fault Refusal :=
  issueForm (rawForm none 0) false (fun _ => true) (fun _ => []) Iss.account (fun q => .trap (e.trap q.trap)) s

/-- A stream whose fetch fails takes the trap in place of a word (R307, R358). -/
def streamFetchTrap (e : FetchErr) (s : State) : Host.Outcome State Fault Refusal :=
  streamWord 0 (fun q => .trap (e.trap q.trap)) s

end Sys2Proof.Machine
end

