-- ==== Sys2Proof/Machine/Sched.lean ====
section
/-!
DEFINITION. Which instruction a core issues next: the fragment a group offers (R199, R211), the gate of the logical clock (R231), the ages of
the groups (R212), ports (R213) and flattening (R216); and the words of the streams (R306).
-/
namespace Sys2Proof.Machine

/-! ### What a group offers -/

/-- Held at step 3 of an ETAIL (R290). -/
def Frag.publishing (f : Frag) : Bool :=
  match f.wait with
  | .etail .. => true
  | _ => false

/-- A group h that holds back group gi at the gate (R231). -/
def Team.holdsBack (t : Team) (g : Group) (gi : Nat) (h : Group × Nat) : Bool :=
  h.2 != gi && (decide (h.1.clock < g.clock) || (h.1.clock == g.clock && decide (h.2 < gi)))
  && !h.1.stopped && !t.parked h.1 && h.1.frags.any (fun f => f.eligible && !f.stalled)

/-- The gate of the logical clock lets the instruction pass (R231). -/
def Team.gateOpen (t : Team) (g : Group) (gi : Nat) (i : Instr) : Bool :=
  !(i.gated && mrDet g.mr) || !(t.body.groups.zipIdx.any (t.holdsBack g gi))

/-- What an issue cannot leave as it was; equal before and after, the instruction was held (R211, R245). -/
def State.trace (s : State) (c : Cur) : Option (Nat × Bool × Nat × DWord × Option (DWord × Nat × Wait)) :=
  (s.team? c.team).bind (fun t => (t.body.groups[c.g]?).map (fun g =>
    (t.traps.length, t.rollback.isSome, g.hang, g.clock, (g.frags[c.f]?).map (fun f => (f.pc, f.count, f.wait)))))

/-- An instruction that a group offers: who issues it, what was fetched for it, its port and charge, and the state after it. -/
structure Offer where
  cur : Cur
  code : Except (FetchErr × Nat) Fetched
  port : Option Port
  charge : Nat
  after : State

/-- The fetched instruction's port (R210). -/
def Instr.portOf (i : Instr) : Option Port := i.form.bind Form.port

/-- An event must come before the next issue of a fragment: its ageing, or HANG (R200, R202, R342). -/
def Frag.overdue (f : Frag) (g : Group) : Bool := decide (ageLimit ≤ f.count) || decide (hangLimit ≤ g.hang)

/-- What a fragment's issue of what was fetched comes to: the instruction where a word was fetched, its issuer, its outcome. -/
def State.issueCode (s : State) (t : Team) (gi fi : Nat) (f : Frag) (code : Except (FetchErr × Nat) Fetched) :
    Option Instr × Cur × Host.Outcome State Fault Refusal :=
  match code with
  | .error (e, n) =>
    let c : Cur := { team := t.id, g := gi, f := fi, addr := f.pc, len := n, trapLen := n }
    (none, c, fetchTrap e { s with cur := some c })
  | .ok x =>
    let c := x.cur t.id gi fi f.pc
    (some x.instr, c, exec x.instr { s with cur := some c })

/-- What a group offers, where it may issue now; its charge is the one that its issue makes, under the EXEC that the windows delivered at it leave
(R49, R211, R215, R216). -/
def State.offer (s : State) (core : Nat) (k : Core) (team gi : Nat) : Option Offer :=
  match s.frag? team gi (((s.group? team gi).bind Group.offered).getD 0) with
  | none => none
  | some (t, g, f) =>
    let fi := (g.offered).getD 0
    if g.offered.isNone || t.core? != some core || !t.runs g || s.pairHalted t || f.publishing || f.atExit || f.overdue g then none
    else
      let r := s.codeFor t gi g f.pc.toNat
      match r.1.issueCode t gi fi f r.2 with
      | (i, c, o) =>
        let port := i.bind Instr.portOf
        let closing := (i.map Instr.closesWindows).getD false
        if !(i.all (t.gateOpen g gi)) || !f.wins.all (fun w => !w.due closing || w.done)
            || port.any (fun p => k.portBusy.getD (portIx p) 0 != 0) then none
        else
          match nextOf o with
          | none => none
          | some s' =>
            if s'.trace c == s.trace c then none
            else
              some { cur := c, code := r.2, port := port, charge := s'.chargeOf (core / 2) - s.chargeOf (core / 2), after := s' }

/-! ### A core's choice -/

/-- The groups of a core's pipe, oldest first, where the pipe is free (R211, R212). -/
def State.pipeGroups (s : State) (k : Core) (pipe : Nat) : List (Nat × Nat) :=
  if k.pipeBusy.getD pipe 0 != 0 then []
  else k.age.filter (fun a => ((s.group? a.1 a.2).map (fun g => g.pipe == pipe)).getD false)

/-- The oldest candidate of a pipe whose port another pick has not taken (R212, R213). -/
def State.oldest (s : State) (core : Nat) (k : Core) (pipe : Nat) (taken : Option Port) : Option Offer :=
  (s.pipeGroups k pipe).findSome? (fun a => (s.offer core k a.1 a.2).bind (fun o => if o.port.isSome && o.port == taken then none else some o))

/-- The place of a group in the age order. -/
def Core.rank (k : Core) (c : Cur) : Nat := (k.age.findIdx? (fun a => a == (c.team, c.g))).getD k.age.length

/-- How often flattening has passed a group over in a row (R216). -/
def Core.passedOver (k : Core) (c : Cur) : Nat := ((k.passed.find? (fun p => p.1 == c.team && p.2.1 == c.g)).map (·.2.2)).getD 0

/-- The other member of a group's split pair: role indices 2m and 2m + 1 of a COMPAT16 kernel (R92). -/
def Team.splitPartner (t : Team) (gi : Nat) : Option Nat :=
  let role := (t.body.groups[gi]?).map (·.role)
  let p := if ((t.body.groups.take gi).filter (fun g => some g.role == role)).length % 2 = 0 then gi + 1 else gi - 1
  if t.hdr.compat16 && p != gi && (t.body.groups[p]?).map (·.role) == role then some p else none

/-- What the other member of a split pair issues in the beat of an offer: its fragment stands at the same address under an equal MR (R92). -/
def State.mateOffer (s : State) (core : Nat) (k : Core) (o : Offer) : Option Offer :=
  (s.team? o.cur.team).bind (fun t => (t.splitPartner o.cur.g).bind (fun p =>
    if (t.body.groups[p]?).map (·.mr) == (t.body.groups[o.cur.g]?).map (·.mr)
        && ((s.group? t.id p).bind (fun g => (g.offered).bind (fun fi => g.frags[fi]?))).map (·.pc) == some o.cur.addr then
      (o.after.offer core k t.id p).bind (fun x => if x.cur.addr = o.cur.addr then some x else none)
    else none))

/-- The charge of an issue: of an offer, with that of the other member of its split pair where both issue as one (R92, R216). -/
def State.issueCharge (s : State) (core : Nat) (k : Core) (o : Offer) : Nat := o.charge + ((s.mateOffer core k o).map (·.charge)).getD 0

/-- Flattening's choice among some candidates, oldest first (R216): one passed over four times, else the oldest sparse one, else the
oldest. -/
def State.flatten (s : State) (core : Nat) (k : Core) (l : List Offer) : Option Offer :=
  match l.find? (fun o => decide (4 ≤ k.passedOver o.cur)) with
  | some o => some o
  | none =>
    match l.find? (fun o => decide (s.issueCharge core k o ≤ 16)) with
    | some o => some o
    | none => l.head?

/-- CR is above H in a core's cluster (R215, R216). -/
def State.hot (s : State) (core : Nat) : Bool :=
  ((s.clusters[core / 2]?).map (fun c => decide (Config.budgetH c.level < c.cr))).getD false

/-- Pipe 1's choice where its oldest candidate is b: in a heavy cycle of a hot cluster flattening chooses among the four oldest candidates that
pass some test; with the candidates it passes over (R216, R332). -/
def State.pickLate (s : State) (core : Nat) (k : Core) (passes : Offer → Bool) (b : Offer) : Option (Nat × Offer × List Offer) :=
  if k.heavy && s.hot core then
    let l := (((s.pipeGroups k 1).filterMap (fun a => s.offer core k a.1 a.2)).filter passes).take 4
    (s.flatten core k l).map (fun o => (1, o, l.takeWhile (fun x => x.cur != o.cur)))
  else some (1, b, [])

/-- A core's next issue: its pipe, and the offers flattening passes over for it. Pipe 0 chooses first; where both picks need one port the
older group has it (R212, R213, R216). -/
def State.pick (s : State) (core : Nat) (k : Core) : Option (Nat × Offer × List Offer) :=
  match s.oldest core k 0 none, s.oldest core k 1 none with
  | some a, some b =>
    if a.port.isSome && a.port == b.port && decide (k.rank b.cur < k.rank a.cur) then
      match s.oldest core k 0 b.port with
      | some a' => some (0, a', [])
      | none => s.pickLate core k (fun o => o.port != a.port || decide (k.rank o.cur < k.rank a.cur)) b
    else some (0, a, [])
  | some a, none => some (0, a, [])
  | none, none => none
  | none, some b => s.pickLate core k (fun _ => true) b

/-- The group that an offer comes from. -/
def Offer.issuer (o : Offer) : Nat × Nat := (o.cur.team, o.cur.g)

/-- The ages and the flattening record of a core after an issue of some offers, the older first: they become youngest, pipe 0's older than
pipe 1's; the members of a split pair count as one issue (R92, R212, R216). -/
def Core.issuedBy (k : Core) (pipe : Nat) (os : List Offer) (passedBy : List Offer) : Core :=
  let me := (os.map Offer.issuer).filter k.age.contains
  let late := if pipe = 0 then k.late else []
  let rest := k.age.filter (fun a => !me.contains a)
  let kept := k.passed.filter (fun p => !(os ++ passedBy).any (fun x => x.issuer == (p.1, p.2.1)))
  { k with age := rest.filter (fun a => !late.contains a) ++ me ++ rest.filter late.contains,
           heavy := k.heavy || (pipe == 0 && decide (64 < (os.map (·.charge)).sum)),
           late := if pipe = 1 then os.map Offer.issuer else k.late,
           passed := if pipe = 1 then kept ++ passedBy.map (fun x => (x.cur.team, x.cur.g, k.passedOver x.cur + 1)) else k.passed }

/-- What a core issues next: its pipe, the offer that it picks, with that of the other member of its split pair where both stand at one
instruction, and the offers that flattening passes over (R92, R212, R216). -/
def State.chosen (s : State) (core : Nat) : Option (Nat × List Offer × List Offer) :=
  (s.cores[core]?).bind (fun k => (s.pick core k).map (fun x =>
    let mate := (s.mateOffer core k x.2.1).toList
    (x.1, x.2.1 :: mate, x.2.2.filter (fun o => !mate.any (fun m => m.issuer == o.issuer)))))

/-- The issue of a group's offered fragment on the trailing core of a pair: what the leading core fetched reaches it, at the address where its own
fragment stands (R387, R388). -/
def State.reissue (s : State) (team gi : Nat) (code : Except (FetchErr × Nat) Fetched) : Option State :=
  (s.frag? team gi (((s.group? team gi).bind Group.offered).getD 0)).bind (fun x =>
    nextOf (s.issueCode x.1 gi ((x.2.1.offered).getD 0) x.2.2 code).2.2)

/-- The state after an offer's issue, the trailing core following (R387, R389). -/
def Offer.followed (o : Offer) (s s' : State) : State := s.follow s' o.cur.team (fun s => s.reissue o.cur.team o.cur.g o.code)

/-- The state after what a core chose, each issue followed by the trailing core (R387, R389). -/
def State.followed (s : State) : List Offer → Option State
  | [] => none
  | [a] => some (a.followed s a.after)
  | a :: m :: _ =>
    let s1 := a.followed s a.after
    let s2 := match s1.team? a.cur.team with
      | some t => m.after.modTeam t.id (fun x => { x with trail := if x.trail.isNone then none else t.trail, mismatch := x.mismatch <|> t.mismatch })
      | none => m.after
    some (m.followed s1 s2)

/-- A core issues (R92, R212). -/
def State.issueOn (s : State) (core : Nat) : Option State :=
  (s.chosen core).bind (fun x => (s.followed x.2.1).map (fun s => s.modCore core (fun k => k.issuedBy x.1 x.2.1 x.2.2)))

/-- The first core that can issue. -/
def State.issueAny (s : State) : Option State :=
  (s.cores.zipIdx.filter (fun k => !k.1.age.isEmpty)).findSome? (fun k => s.issueOn k.2)

/-! ### Matrix streams -/

/-- The stream of a team that may start its next word (R306, R371, R391). -/
def State.streamReady (s : State) (t : Team) : Option Stream :=
  t.body.stream.bind (fun st =>
    if st.st = .running && !t.halted && !s.pairHalted t && !t.body.groups.all (·.stopped) then some st else none)

/-- The word at the address of a team's stream, where it may start one (R64). -/
def State.streamCode (s : State) (team : Nat) : Option (State × Except FetchErr Nat) :=
  (s.team? team).bind (fun t => (s.streamReady t).map (fun st => s.codeUnit t st.addr.toNat 8))

/-- A team's stream starts the word that was fetched for it (R64, R306, R307). -/
def State.streamIssue (s : State) (team : Nat) (code : Except FetchErr Nat) : Option State :=
  (s.team? team).bind (fun t => (s.streamReady t).bind (fun st =>
    let c : Cur := { team := team, g := 0, f := 0, addr := st.addr, len := 8, trapLen := 8, stream := true }
    match code with
    | .error e => nextOf (streamFetchTrap e { s with cur := some c })
    | .ok x =>
      let w : DWord := BitVec.ofNat 64 x
      nextOf (exec (decodeStream w) { s with cur := some { c with mainW := lo32 w, litW := hi32 w } })))

/-- A team's stream starts its next word, and so does the trailing core's, with the word that the leading core fetched (R306, R387, R388). -/
def State.streamStep (s : State) (team : Nat) : Option State :=
  (s.streamCode team).bind (fun r => r.1.both (fun s => s.streamIssue team r.2))

end Sys2Proof.Machine
end

