-- ==== Sys2Proof/Machine/Turns.lean ====
section
/-!
DEFINITION. One step of the machine: bring-up where none has run, else the next turn of the agenda, else the first event that is due, else an
issue, else the end of a cycle (R210, R215, R430; logs 2, 3, 11, 14, 19).
-/
namespace Sys2Proof.Machine

/-! ### Turns of the agenda -/

/-- A 64-bit word of the part's own memory becomes uncorrectable (R255; log 19, DESIGN CHOICE). -/
def State.poisonAt (s : State) (addr : Nat) : State :=
  if (s.channelOf addr).isNone then s else s.poisonWord (addr / 8)

/-- A double-bit error in an L2 sector: a clean sector is dropped, a word of a dirty one is poisoned; in a version copy the sectors that the
task has written are the dirty ones (R255; log 19, DESIGN CHOICE). -/
def State.l2ErrorAt (s : State) (addr : Nat) (owner : Option Nat) : State :=
  let line := addr / 256
  let sec := addr / 32 % 8
  match owner with
  | some tid => s.modTeam tid (fun t => { t with versions := t.versions.map (fun v =>
      if v.line == line && v.dirty.getLsbD sec && !v.bad.testBit (addr / 8 % 32) then { v with bad := v.bad + 2 ^ (addr / 8 % 32) } else v) })
  | none =>
    let mine := fun (x : L2Line) => x.line == line && x.owner.isNone && x.valid.getLsbD sec
    if s.banks.any (fun b => b.lines.any (fun x => mine x && x.dirty.getLsbD sec)) then s.poisonWord (addr / 8)
    else { s with banks := s.banks.map (fun b => { b with lines := b.lines.map (fun x =>
      if mine x then { x with valid := x.valid &&& ~~~(BitVec.ofNat 8 (2 ^ sec)) } else x) }) }

/-- Every word of the dirty sectors of a version line is poisoned (R255). -/
def VLine.spoil (v : VLine) : VLine :=
  { v with bad := (List.range 32).foldl (fun b i => if v.dirty.getLsbD (i / 4) || v.bad.testBit i then b + 2 ^ i else b) 0 }

/-- A double-bit error in the tag of an L2 line: its dirty sectors are poisoned, the others dropped; a version copy's likewise (R255; log 19,
DESIGN CHOICE). -/
def State.l2TagErrorAt (s : State) (addr : Nat) (owner : Option Nat) : State :=
  let line := addr / 256
  match owner with
  | some tid => s.modTeam tid (fun t => { t with versions := t.versions.map (fun v => if v.line == line then v.spoil else v) })
  | none =>
    let mine := fun (x : L2Line) => x.line == line && x.owner.isNone
    let dirty := (s.banks.flatMap (fun b => b.lines.filter mine)).foldl (fun (d : BitVec 8) x => d ||| x.dirty) 0
    let s := { s with banks := s.banks.map (fun b => { b with lines := b.lines.map (fun x => if mine x then { x with valid := x.valid &&& x.dirty } else x) }) }
    (List.range 32).foldl (fun s w => if dirty.getLsbD (w / 4) then s.poisonWord (line * 32 + w) else s) s

/-- Pilot sees a corrected error of an L2 bank in the bank's count (R255; log 19, DESIGN CHOICE). -/
def State.l2CorrectedAt (s : State) (bank : Nat) : State := s.modBank bank (fun b => { b with corrected := b.corrected + 1 })

/-- The instruction caches of a core lose what they hold of a code word (R82; log 42, DESIGN CHOICE). -/
def State.codeDropAt (s : State) (core va : Nat) : State :=
  s.modCore core (fun k => { k with code := k.code.filter (fun e => e.1.va != va), ops := k.ops.filter (fun e => e.1.va != va) })

/-- The host writes its own memory (R402; log 14, DESIGN CHOICE). -/
def State.hostStore (s : State) (addr : Nat) (bytes : List Byte) : State :=
  if addr + bytes.length ≤ 2 ^ 45 then { s with hostMem := s.hostMem.setRange addr bytes, zeroed := noteZeros s.zeroed (2 ^ 45 + addr) bytes } else s

/-- A turn, where it can be taken. -/
def State.turn (s : State) (a : Turn) : Option State :=
  match a with
  | .event i => s.both (fun s => nextOf (exec i s))
  | .issue core => s.issueOn core
  | .stream team => s.streamStep team
  | .poison addr => some (s.poisonAt addr)
  | .l2Error addr owner => some (s.l2ErrorAt addr owner)
  | .l2TagError addr owner => some (s.l2TagErrorAt addr owner)
  | .l2Corrected bank => some (s.l2CorrectedAt bank)
  | .uncorrectable team p trailing => some (s.strike team trailing p.spoil)
  | .flip team p bit trailing => some (s.flipAt team p bit trailing)
  | .codeDrop core va => some (s.codeDropAt core va)
  | .enginePiece card => s.enginePiece card
  | .quayTaken port tag len => some (s.quayTaken port tag len)
  | .railFall rail mv => some (s.railFall rail mv)
  | .hostWrite addr bytes => some (s.hostStore addr bytes)

/-- What happens in a part without power, or halted, as well: power and resets, what the Harbourmaster sees on its own rail, and the host's
own writes (R400, R421, R422, R429, R430). -/
def isPowerEvent : Turn → Bool
  | .event .powerUp | .event .pfFlr | .event .brownout | .event (.thermalShutdown _) | .hostWrite .. => true
  | _ => false

/-! ### The end of a cycle -/

/-- A pipe or port is held, or a cycle's marks stand (R210, R212). -/
def Core.busy (k : Core) : Bool := k.pipeBusy.any (· != 0) || k.portBusy.any (· != 0) || k.heavy || !k.late.isEmpty

/-- A group's oldest unfinished access is to finish at the end of a cycle: the group offers nothing, or its count of issues comes round
(log 3, DESIGN CHOICE). -/
def State.finishNow (s : State) (t : Team) (g : Group × Nat) : Option Op :=
  match g.1.flight.find? (fun o => !o.fin) with
  | none => none
  | some o =>
    let offers := match t.core? with
      | some n => ((s.cores[n]?).bind (fun k => s.offer n k t.id g.2)).isSome
      | none => false
    if !offers || g.1.hang % 16 == 15 then some o else none

/-- What a cycle gives the streams and the accesses in flight: one word each, and the oldest unfinished access of a group (log 3, DESIGN CHOICE). -/
def State.cycleTurns (s : State) : List Turn :=
  s.teams.flatMap (fun t =>
    (if (s.streamReady t).isSome then [Turn.stream t.id] else [])
    ++ t.body.groups.zipIdx.filterMap (fun g =>
        (s.finishNow t g).map (fun o => Turn.event (.inFlightFinish t.id g.2 o.id (BitVec.allOnes 96) false))))

/-- Every cluster's cycle (R215). -/
def State.tick (s : State) : State := (List.range 48).foldl (fun s k => (nextOf (execChargeRecordUpdate k s)).getD s) s

/-- Rails that raise settle; with nothing else to do, rails whose hold has run lower (R427; log 11, DESIGN CHOICE). -/
def State.settleRails (s : State) : State := (List.range 12).foldl (fun s r => (nextOf (execRailRaiseSettled r s)).getD s) s
def State.lowerRails (s : State) : State := (List.range 12).foldl (fun s r => (nextOf (execRailLowerHoldExpiry r s)).getD s) s

/-- The end of a cycle, where something goes on: the charge records, the held pipes and ports, and the turns of the next cycle. -/
def State.cycle (s : State) : Option State :=
  let held := s.cores.any Core.busy || s.clusters.any (fun k => k.charge != 0)
  let s' := if held then s.tick.settleRails else s
  let l := s'.cycleTurns
  if l.isEmpty && !held then none else some { s' with agenda := l, cycles := s.cycles + 1 }

/-- Nothing is due. -/
def State.idle (s : State) : State := s.settleRails.lowerRails.railsDown

/-! ### The step -/

/-- Waits that some effect of the step has ended end, and a MEM_UE that no trap keeps back any longer is raised, in the teams that stand on
a core (R252, R297, R341). -/
def State.wake (s : State) : State :=
  (s.teams.filter (fun t => t.core?.isSome)).foldl (fun s t =>
    (List.range t.body.groups.length).foldl (fun s gi => (s.endWaits t.id gi).raiseKept t.id gi) s) s

/-- Telltale has compared the events of the step (R389). -/
def State.compared (s : State) : State :=
  { s with teams := s.teams.map (fun t => if t.tel.isEmpty && t.took.isEmpty then t else { t with tel := [], took := [] }) }

/-- After every step what waits is looked at, the rails follow the votes, and nobody issues (R252, R425). -/
def State.settled (s : State) : State := { ((s.both (fun s => some s.wake)).getD s).compared.revote with cur := none }

/-- What happens next. -/
def State.advance (s : State) : State :=
  if s.boot.phase < 4 then (nextOf (execPowerUp s)).getD s
  else
    match s.agenda with
    | a :: rest =>
      let s := { s with agenda := rest }
      if s.up || isPowerEvent a then (s.turn a).getD s else s
    | [] =>
      if s.hm.headDue then s.writeHead
      else if !s.up then s
      else
        match s.firstDue with
        | some s' => s'
        | none =>
          match s.issueAny with
          | some s' => s'
          | none => (s.cycle).getD s.idle

end Sys2Proof.Machine
end

