-- ==== Sys2Proof/Machine/Loader.lean ====
section
/-!
DEFINITION. The placing of one instruction word for the host's question: a running part with one team of one group whose first fragment is
about to fetch it (log 1, DESIGN CHOICE). It stands for bring-up, the tenant's set-up, a LAUNCH and a TEAM_PLACEMENT.
-/
namespace Sys2Proof.Machine

/-- The grid of the placed instruction: one role of one group, entry at offset 0x100 of an image at 0x10000 (R75, R76). -/
def wordGrid : Grid :=
  { id := 0, serial := 1, tenant := 0, part := 0, ctx := 1, image := 0x10000, seed := 0, args := [], teams := 1, placed := 1,
    segT := [{ base := 0, limit := 2 ^ 52 }, { base := 0, limit := 0 }, { base := 0x10000, limit := 0 }, { base := 0, limit := 0 },
             { base := 0, limit := 0 }, { base := 0, limit := 0 }, { base := 0, limit := 0 }, { base := 0, limit := 0 }],
    hdr := { roles := [{ groups := 1, vbudget := 32, reserve := false }], wreq := 32, level := 0, det := false, compat16 := false,
             vfall := false, taskfoot := 0, entry := 0x100, mstream := 0, jrhandler := 0, pb1 := 0x500, pb2 := 0x700, pb3 := 0x740 } }

/-- The address of the placed instruction, virtual and physical. -/
def wordAddr : Nat := 0x10100

/-- A part that runs nothing but the placed instruction: an image of 12 bytes, the instruction's low `nbits` bits and zeros above them. The
guard lets lane 0 alone take part, so that no order among lanes is open (log 1, DESIGN CHOICE). -/
def State.placeWord (s : State) (nbits w : Nat) : State :=
  let t := (newTeam { wordGrid with placed := 0 } 0 32 0).modGroup 0 (fun g => g.setTriple 8 1)
  let s : State :=
    { s with
      mem := s.mem.writeNat wordAddr 12 (w % 2 ^ nbits), poison := [], teams := [t], cards := [], pubs := [], parts := List.replicate 24 {},
      vfs := List.replicate 16 {}, pfRegs := {}, berths := List.replicate 64 {}, cmds := [], ctxs := [], grids := [wordGrid], preempts := [],
      cores := List.replicate 96 {}, hm := {}, boot := { s.boot with phase := 4 }, agenda := [], cur := none, nextId := 1 }
  (s.modCore 0 (fun k => { k with
    tlb := [{ ctx := 1, vpage := wordAddr / 4096, size := 12, ppage := wordAddr / 4096, w := false, x := true, mt := .cached }] })).stand 0 0

end Sys2Proof.Machine
end

