-- ==== Sys2Proof/Machine/Step.lean ====
section
/-!
DEFINITION. The step of the machine, and the placing of one instruction where the next step fetches.
-/
namespace Sys2Proof.Machine

/-- One step: what happens next, with the rails following the votes (R425). -/
def step (s : State) : Host.Outcome State Fault Refusal := .next s.advance.settled

/-- The state with one instruction placed where the next step fetches (log 1, DESIGN CHOICE). -/
def State.withFetchWord (s : State) (nbits w : Nat) : State := s.placeWord nbits w

end Sys2Proof.Machine
end

