-- ==== Sys2Proof/Laws/PerInstr.lean ====
section
/-!
SUPPORT. One family of statements about every instruction, by constructor: the word it encodes to decodes to it again (R30, R33, R41, R61, R64,
R316).
-/
namespace Sys2Proof.Laws.RoundTrip

-- one theorem after the other: each waits for equations of the decoder, and would hold a thread meanwhile
set_option Elab.async false

/-- A well-formed group instruction encodes to words, and its bytes decode to it again with every operand, whatever bytes follow them; a
well-formed stream word's F-X word decodes to it again. -/
def Statement (i : Instr) : Prop :=
  i.wf = true →
    (∀ f, i.form = some f → ∃ ws, encode i = some ws ∧ ∀ rest, decode (wordBytes ws ++ rest) = .ok (i, rest))
    ∧ (∀ w, encodeStream i = some w → decodeStream w = i)

/-! ### Words and their parts -/

theorem toNat_app {n m : Nat} (x : BitVec n) (y : BitVec m) : (x ++ y).toNat = x.toNat * 2 ^ m + y.toNat := by
  rw [BitVec.toNat_append, ← Nat.shiftLeft_add_eq_or_of_lt y.isLt, Nat.shiftLeft_eq]

theorem toNat_ext {n : Nat} (x : BitVec n) (s k : Nat) : (x.extractLsb' s k).toNat = x.toNat / 2 ^ s % 2 ^ k := by
  rw [BitVec.extractLsb'_toNat, Nat.shiftRight_eq_div_pow]

theorem parts_word (q : Parts) : Parts.ofWord q.toWord = q := by
  obtain ⟨op, sx, d, a, b⟩ := q
  have := op.isLt; have := sx.isLt; have := d.isLt; have := a.isLt; have := b.isLt
  simp only [Parts.ofWord, Parts.mk.injEq]
  refine ⟨?_, ?_, ?_, ?_, ?_⟩ <;>
  · apply BitVec.eq_of_toNat_eq
    simp only [toNat_ext, Parts.toWord]
    simp only [toNat_app]
    omega

theorem pfx_word (p : Pfx) : Pfx.ofWord p.toWord = p := by
  obtain ⟨gen, gsel, mz, rndo, eto, op4, xd, xa, xb, mdst, xen, o4en⟩ := p
  have := gsel.isLt; have := rndo.isLt; have := eto.isLt; have := op4.isLt
  simp only [Pfx.ofWord, Pfx.mk.injEq, BitVec.getLsbD]
  have hb : ∀ (b : Bool), (BitVec.ofBool b).toNat = b.toNat := by decide
  have tb : ∀ (n i : Nat) (b : Bool), (n / 2 ^ i % 2 = b.toNat) → n.testBit i = b := by
    intro n i b h
    rw [Nat.testBit_eq_decide_div_mod_eq, h]; cases b <;> decide
  have ht : ∀ b : Bool, b.toNat < 2 := by decide
  have := ht gen; have := ht mz; have := ht xd; have := ht xa; have := ht xb; have := ht mdst; have := ht xen; have := ht o4en
  have hw : (Pfx.toWord ⟨gen, gsel, mz, rndo, eto, op4, xd, xa, xb, mdst, xen, o4en⟩).toNat =
     ((((((((((((127 * 2 + gen.toNat) * 8 + gsel.toNat) * 2 + mz.toNat) * 8 + rndo.toNat) * 16 + eto.toNat) * 128 + op4.toNat) * 2 + xd.toNat) * 2
      + xa.toNat) * 2 + xb.toNat) * 2 + mdst.toNat) * 2 + xen.toNat) * 2 + o4en.toNat) := by
    simp only [Pfx.toWord]; simp only [toNat_app, hb]; rfl
  refine ⟨?_, ?_, ?_, ?_, ?_, ?_, ?_, ?_, ?_, ?_, ?_, ?_⟩ <;> first
    | (apply tb; rw [hw]; omega)
    | (apply BitVec.eq_of_toNat_eq; rw [toNat_ext, hw]; omega)

theorem takeWord_bytes (w : Word) (rest : List Byte) :
    takeWord (w.extractLsb' 0 8 :: w.extractLsb' 8 8 :: w.extractLsb' 16 8 :: w.extractLsb' 24 8 :: rest) = some (w, rest) := by
  have : w.extractLsb' 24 8 ++ w.extractLsb' 16 8 ++ w.extractLsb' 8 8 ++ w.extractLsb' 0 8 = w := by
    have := w.isLt
    apply BitVec.eq_of_toNat_eq; simp only [toNat_app, toNat_ext]; omega
  simp only [takeWord, this]

theorem major_word (q : Parts) : q.toWord.extractLsb' 25 7 = q.op := congrArg Parts.op (parts_word q)

theorem major_pfx (p : Pfx) : p.toWord.extractLsb' 25 7 = 0x7F#7 := by
  obtain ⟨gen, gsel, mz, rndo, eto, op4, xd, xa, xb, mdst, xen, o4en⟩ := p
  have := gsel.isLt; have := rndo.isLt; have := eto.isLt; have := op4.isLt
  have hb : ∀ (b : Bool), (BitVec.ofBool b).toNat = b.toNat := by decide
  have ht : ∀ b : Bool, b.toNat < 2 := by decide
  have := ht gen; have := ht mz; have := ht xd; have := ht xa; have := ht xb; have := ht mdst; have := ht xen; have := ht o4en
  apply BitVec.eq_of_toNat_eq
  rw [toNat_ext]; simp only [Pfx.toWord]; simp only [toNat_app, hb, BitVec.toNat_ofNat]
  omega

/-- A major that names cells of instructions: no prefix word, no fate (R61, R65). -/
def plainMajor (op : BitVec 7) : Bool := op != 0x7F && !(0x70 ≤ op.toNat && op.toNat ≤ 0x77) && !(0x18 ≤ op.toNat && op.toNat ≤ 0x1F)

theorem takesLiteral_eq {p : Option Pfx} {q : Parts} {l : Option Word} {i i0 : Instr} {f f0 : Form} (hwf : i.wf = true) (hf : i.form = some f)
    (hl : f.lit = l) (h0 : cellInstr p none q = some i0) (hf0 : i0.form = some f0) (hok : f.ok 256 = true → f0.ok 256 = true)
    (hc : f0.immCount = f.immCount) : takesLiteral p q = l.isSome := by
  simp only [Instr.wf, hf, Bool.and_eq_true] at hwf
  simp only [takesLiteral, h0, hf0, hok hwf.1, if_true, hc]
  have := hwf.2
  simp only [Form.litOk, hl, beq_iff_eq] at this
  exact this.symm

theorem group {i i0 : Instr} {f f0 : Form} {p : Option Pfx} {q : Parts} {l : Option Word}
    (he : encode i = some ((p.map Pfx.toWord).toList ++ [q.toWord] ++ l.toList)) (hs : encodeStream i = none)
    (hf : i.form = some f) (hl : f.lit = l) (h0 : cellInstr p none q = some i0) (h1 : cellInstr p l q = some i)
    (hop : plainMajor q.op = true) (hp : p.isSome = true → pfxableCell q.op.toNat q.sx.toNat = true)
    (hf0 : i0.form = some f0) (hok : f.ok 256 = true → f0.ok 256 = true)
    (hc : f0.immCount = f.immCount) : Statement i := by
  intro hwf
  refine ⟨fun f' _ => ⟨_, he, fun rest => ?_⟩, by simp [hs]⟩
  have ht : takesLiteral p q = l.isSome := takesLiteral_eq hwf hf hl h0 hf0 hok hc
  have hm : ∀ l', l = l' → decodeMain p q.toWord l' = i := by
    intro l' e; subst e
    simp only [plainMajor, Bool.and_eq_true, Bool.not_eq_true'] at hop
    simp only [decodeMain, parts_word, h1]
    rw [if_neg (by simp [hop.1.2]), if_neg (by simp [hop.2])]
    cases hp' : p.isSome
    · simp
    · simp [hp hp']
  have hne : (q.op == 0x7F#7) = false := by
    simp only [plainMajor, Bool.and_eq_true, bne_iff_ne, ne_eq] at hop
    exact beq_eq_false_iff_ne.2 hop.1.1
  cases p <;> cases l <;> simp only [Option.isSome] at ht <;>
  · simp only [Option.map, Option.toList, List.nil_append, List.cons_append, wordBytes, decode, takeWord_bytes]
    simp only [Option.bind, takeWord_bytes, decodeWords, major_word, major_pfx, hne, parts_word, pfx_word, ht, BEq.rfl]
    simp [hm _ rfl]

/-- Events of the device have no encoding. -/
theorem other {i : Instr} (hf : i.form = none) (hs : encodeStream i = none) : Statement i :=
  fun _ => ⟨by simp [hf], by simp [hs]⟩

/-- As `group`, of a word that takes no prefix. -/
theorem bare {i i0 : Instr} {f f0 : Form} {q : Parts} {l : Option Word} (he : encode i = some ([q.toWord] ++ l.toList))
    (hs : encodeStream i = none) (hf : i.form = some f) (hl : f.lit = l) (h0 : cellInstr none none q = some i0) (h1 : cellInstr none l q = some i)
    (hop : plainMajor q.op = true) (hf0 : i0.form = some f0) (hok : f.ok 256 = true → f0.ok 256 = true) (hc : f0.immCount = f.immCount) :
    Statement i :=
  group (p := none) he hs hf hl h0 h1 hop (fun h => nomatch h) hf0 hok hc

/-! ### Fields -/

theorem pad4 (x : BitVec 4) : (0#3 ++ x) &&& 112#7 = 0#7 := by revert x; decide
theorem val4a (x : BitVec 4) : (0#3 ++ x).extractLsb' 0 4 = x := by revert x; decide
theorem pad5 (x : BitVec 5) : (0#2 ++ x) &&& 96#7 = 0#7 := by revert x; decide
theorem val5a (x : BitVec 5) : (0#2 ++ x).extractLsb' 0 5 = x := by revert x; decide
theorem pad14 (x : BitVec 1) (y : BitVec 4) : (0#2 ++ x ++ y) &&& 96#7 = 0#7 := by revert x y; decide
theorem val14a (x : BitVec 1) (y : BitVec 4) : (0#2 ++ x ++ y).extractLsb' 4 1 = x := by revert x y; decide
theorem val14b (x : BitVec 1) (y : BitVec 4) : (0#2 ++ x ++ y).extractLsb' 0 4 = y := by revert x y; decide
theorem pad1 (x : BitVec 1) : (0#6 ++ x) &&& 126#7 = 0#7 := by revert x; decide
theorem val1a (x : BitVec 1) : (0#6 ++ x).extractLsb' 0 1 = x := by revert x; decide
theorem pad24 (x : BitVec 2) (y : BitVec 4) : (0#1 ++ x ++ y) &&& 64#7 = 0#7 := by revert x y; decide
theorem val24a (x : BitVec 2) (y : BitVec 4) : (0#1 ++ x ++ y).extractLsb' 4 2 = x := by revert x y; decide
theorem val24b (x : BitVec 2) (y : BitVec 4) : (0#1 ++ x ++ y).extractLsb' 0 4 = y := by revert x y; decide
theorem pad15 (x : BitVec 1) (y : BitVec 5) : (0#1 ++ x ++ y) &&& 64#7 = 0#7 := by revert x y; decide
theorem val15a (x : BitVec 1) (y : BitVec 5) : (0#1 ++ x ++ y).extractLsb' 5 1 = x := by revert x y; decide
theorem val15b (x : BitVec 1) (y : BitVec 5) : (0#1 ++ x ++ y).extractLsb' 0 5 = y := by revert x y; decide
theorem pad22 (x : BitVec 2) (y : BitVec 2) : (0#3 ++ x ++ y) &&& 112#7 = 0#7 := by revert x y; decide
theorem val22a (x : BitVec 2) (y : BitVec 2) : (0#3 ++ x ++ y).extractLsb' 2 2 = x := by revert x y; decide
theorem val22b (x : BitVec 2) (y : BitVec 2) : (0#3 ++ x ++ y).extractLsb' 0 2 = y := by revert x y; decide
theorem pad3 (x : BitVec 3) : (0#4 ++ x) &&& 120#7 = 0#7 := by revert x; decide
theorem val3a (x : BitVec 3) : (0#4 ++ x).extractLsb' 0 3 = x := by revert x; decide
theorem val34a (x : BitVec 3) (y : BitVec 4) : (x ++ y).extractLsb' 4 3 = x := by revert x y; decide
theorem val34b (x : BitVec 3) (y : BitVec 4) : (x ++ y).extractLsb' 0 4 = y := by revert x y; decide
theorem val322a (x : BitVec 3) (y : BitVec 2) (z : BitVec 2) : (x ++ y ++ z).extractLsb' 4 3 = x := by revert x y z; decide
theorem val322b (x : BitVec 3) (y : BitVec 2) (z : BitVec 2) : (x ++ y ++ z).extractLsb' 2 2 = y := by revert x y z; decide
theorem val322c (x : BitVec 3) (y : BitVec 2) (z : BitVec 2) : (x ++ y ++ z).extractLsb' 0 2 = z := by revert x y z; decide
theorem pad13 (x : BitVec 1) (y : BitVec 3) : (0#3 ++ x ++ y) &&& 112#7 = 0#7 := by revert x y; decide
theorem val13a (x : BitVec 1) (y : BitVec 3) : (0#3 ++ x ++ y).extractLsb' 3 1 = x := by revert x y; decide
theorem val13b (x : BitVec 1) (y : BitVec 3) : (0#3 ++ x ++ y).extractLsb' 0 3 = y := by revert x y; decide
theorem offJoin (x : BitVec 21) : x.extractLsb' 14 7 ++ x.extractLsb' 7 7 ++ x.extractLsb' 0 7 = x := by
  have := x.isLt
  apply BitVec.eq_of_toNat_eq; simp only [toNat_app, toNat_ext]; omega
theorem codeJoin (x : Code) (y : BitVec 4) : x.extractLsb' 3 4 ++ (x.extractLsb' 0 3 ++ y).extractLsb' 4 3 = x := by
  have := x.isLt; have := y.isLt
  apply BitVec.eq_of_toNat_eq; simp only [toNat_app, toNat_ext]; omega
theorem midJoin (w : BitVec 3) (x : Code) (y : BitVec 4) :
    (w ++ x.extractLsb' 3 4).extractLsb' 0 4 ++ (x.extractLsb' 0 3 ++ y).extractLsb' 4 3 = x := by
  have := w.isLt; have := x.isLt; have := y.isLt
  apply BitVec.eq_of_toNat_eq; simp only [toNat_app, toNat_ext]; omega
theorem immJoin (w : BitVec 3) (x : BitVec 11) : (w ++ x.extractLsb' 7 4).extractLsb' 0 4 ++ x.extractLsb' 0 7 = x := by
  have := w.isLt; have := x.isLt
  apply BitVec.eq_of_toNat_eq; simp only [toNat_app, toNat_ext]; omega
theorem loZero (x : BitVec 3) : (x ++ 0#4) &&& 15#7 = 0#7 := by revert x; decide
theorem hiZero (x : BitVec 4) : (0#3 ++ x) &&& 112#7 = 0#7 := by revert x; decide
/-- A SETMODE that passes its checks with its literal passes them without. -/
theorem setmode_ok {l : Option Word} {m a : Code} {imm : BitVec 11} {f f0 : Form} (hf : (Instr.setmode l m a imm).form = some f)
    (hf0 : (Instr.setmode none m a imm).form = some f0) (h : f.ok 256 = true) : f0.ok 256 = true := by
  obtain rfl := Option.some.inj hf
  obtain rfl := Option.some.inj hf0
  simp only [Form.ok, Bool.and_eq_true] at h
  obtain ⟨⟨⟨⟨⟨hv, h1⟩, h2⟩, h3⟩, h4⟩, h5⟩ := h
  simp only [Form.ok, Bool.and_eq_true]
  refine ⟨⟨⟨⟨⟨?_, h1⟩, h2⟩, h3⟩, h4⟩, h5⟩
  simp only [setmodeOk, setmodeImage, Bool.and_eq_true] at hv ⊢
  refine ⟨hv.1, ?_⟩
  by_cases ha : a.toNat = 0x74
  · simpa [ha] using hv.2
  · simp [ha]

/-! ### Stream words -/

/-- Of a stream word, the F-X word decodes to it. -/
theorem stream {i : Instr} {w : DWord} (hf : i.form = none) (he : encodeStream i = some w) (hd : decodeStream w = i) : Statement i :=
  fun _ => ⟨by simp [hf], fun w' h => by rw [he] at h; exact Option.some.inj h ▸ hd⟩

theorem and_app {n m : Nat} (a c : BitVec n) (b d : BitVec m) : (a ++ b) &&& (c ++ d) = (a &&& c) ++ (b &&& d) := by
  ext i hi
  simp only [BitVec.getElem_and, BitVec.getElem_append]
  split <;> simp

/-- The listed fields of an F-X word, the rest of it zero. -/
theorem fields_ok {x : BitVec 6} {r u : BitVec 58} (h : r &&& ~~~u = 0) : streamFieldsOk (x ++ r) (0#6 ++ u) = true := by
  have hr : ((x ++ r).setWidth 58).setWidth 64 = 0#6 ++ r := by
    have := r.isLt; have := x.isLt
    apply BitVec.eq_of_toNat_eq
    simp only [BitVec.toNat_setWidth]
    simp only [toNat_app, BitVec.toNat_ofNat]
    omega
  have hu : ~~~(0#6 ++ u) = ~~~(0#6) ++ ~~~u := by
    ext i hi
    simp only [BitVec.getElem_not, BitVec.getElem_append]
    split <;> simp
  have e : (0#6 ++ r) &&& ~~~(0#6 ++ u) = 0#64 := by
    rw [hu, and_app, h]; decide
  rw [streamFieldsOk, hr, e]; rfl

theorem xop_bits (w : DWord) : (w.extractLsb' 58 6).toNat = bitsOf w 63 58 := by
  have := w.isLt
  simp only [toNat_ext, bitsOf, natBits, Nat.shiftRight_eq_div_pow, Nat.reduceAdd, Nat.reduceSub]

theorem fate_juryrig {x : DWord} (h : 0x30 ≤ bitsOf x 63 58) (h' : bitsOf x 63 58 ≤ 0x37) : decodeStream x = .juryrig (.stream x) := by
  have e := xop_bits x
  simp only [decodeStream]
  iterate 11 rw [if_neg (by omega)]
  rw [if_pos (by simp only [Bool.and_eq_true, decide_eq_true_eq]; omega)]

theorem fate_vendorTest {x : DWord} (h : 0x38 ≤ bitsOf x 63 58) (h' : bitsOf x 63 58 ≤ 0x3F) : decodeStream x = .vendorTest (.stream x) := by
  have e := xop_bits x
  simp only [decodeStream]
  iterate 11 rw [if_neg (by omega)]
  rw [if_neg (by simp only [Bool.and_eq_true, decide_eq_true_eq]; omega)]
  rw [if_pos (by simp only [Bool.and_eq_true, decide_eq_true_eq]; omega)]

/-! ### The constructors -/

theorem iadd (x : Ext) (d : Code) (a : Code) (b : Code) : Statement (.iadd x d a b) := group rfl rfl rfl rfl rfl rfl rfl (fun _ => rfl) rfl id rfl
theorem isub (x : Ext) (d : Code) (a : Code) (b : Code) : Statement (.isub x d a b) := group rfl rfl rfl rfl rfl rfl rfl (fun _ => rfl) rfl id rfl
theorem imul (x : Ext) (d : Code) (a : Code) (b : Code) : Statement (.imul x d a b) := group rfl rfl rfl rfl rfl rfl rfl (fun _ => rfl) rfl id rfl
theorem imulh (x : Ext) (d : Code) (a : Code) (b : Code) : Statement (.imulh x d a b) := group rfl rfl rfl rfl rfl rfl rfl (fun _ => rfl) rfl id rfl
theorem imad (x : Ext) (d : Code) (a : Code) (b : Code) : Statement (.imad x d a b) := group rfl rfl rfl rfl rfl rfl rfl (fun _ => rfl) rfl id rfl
theorem imadw (x : Ext) (d : Code) (a : Code) (b : Code) : Statement (.imadw x d a b) := group rfl rfl rfl rfl rfl rfl rfl (fun _ => rfl) rfl id rfl
theorem ineg (x : Ext) (d : Code) (a : Code) : Statement (.ineg x d a) := group rfl rfl rfl rfl rfl rfl rfl (fun _ => rfl) rfl id rfl
theorem iabs (x : Ext) (d : Code) (a : Code) : Statement (.iabs x d a) := group rfl rfl rfl rfl rfl rfl rfl (fun _ => rfl) rfl id rfl
theorem imin (x : Ext) (d : Code) (a : Code) (b : Code) : Statement (.imin x d a b) := group rfl rfl rfl rfl rfl rfl rfl (fun _ => rfl) rfl id rfl
theorem imax (x : Ext) (d : Code) (a : Code) (b : Code) : Statement (.imax x d a b) := group rfl rfl rfl rfl rfl rfl rfl (fun _ => rfl) rfl id rfl
theorem isel (x : Ext) (d : Code) (a : Code) (b : Code) : Statement (.isel x d a b) := group rfl rfl rfl rfl rfl rfl rfl (fun _ => rfl) rfl id rfl
theorem sad (x : Ext) (d : Code) (a : Code) (b : Code) : Statement (.sad x d a b) := group rfl rfl rfl rfl rfl rfl rfl (fun _ => rfl) rfl id rfl
theorem dot4 (x : Ext) (d : Code) (a : Code) (b : Code) : Statement (.dot4 x d a b) := group rfl rfl rfl rfl rfl rfl rfl (fun _ => rfl) rfl id rfl
theorem lea (x : Ext) (d : Code) (a : Code) (b : Code) : Statement (.lea x d a b) := group rfl rfl rfl rfl rfl rfl rfl (fun _ => rfl) rfl id rfl
theorem aadd (x : Ext) (d : Code) (a : Code) (b : Code) : Statement (.aadd x d a b) := group rfl rfl rfl rfl rfl rfl rfl (fun _ => rfl) rfl id rfl
theorem icmp (x : Ext) (c : BitVec 4) (d : Code) (a : Code) (b : Code) : Statement (.icmp x c d a b) :=
  group rfl rfl rfl rfl rfl rfl rfl (fun _ => rfl) rfl id rfl
theorem and (x : Ext) (d : Code) (a : Code) (b : Code) : Statement (.and x d a b) := group rfl rfl rfl rfl rfl rfl rfl (fun _ => rfl) rfl id rfl
theorem or (x : Ext) (d : Code) (a : Code) (b : Code) : Statement (.or x d a b) := group rfl rfl rfl rfl rfl rfl rfl (fun _ => rfl) rfl id rfl
theorem xor (x : Ext) (d : Code) (a : Code) (b : Code) : Statement (.xor x d a b) := group rfl rfl rfl rfl rfl rfl rfl (fun _ => rfl) rfl id rfl
theorem not (x : Ext) (d : Code) (a : Code) : Statement (.not x d a) := group rfl rfl rfl rfl rfl rfl rfl (fun _ => rfl) rfl id rfl
theorem andn (x : Ext) (d : Code) (a : Code) (b : Code) : Statement (.andn x d a b) := group rfl rfl rfl rfl rfl rfl rfl (fun _ => rfl) rfl id rfl
theorem shl (x : Ext) (d : Code) (a : Code) (b : Code) : Statement (.shl x d a b) := group rfl rfl rfl rfl rfl rfl rfl (fun _ => rfl) rfl id rfl
theorem shr (x : Ext) (d : Code) (a : Code) (b : Code) : Statement (.shr x d a b) := group rfl rfl rfl rfl rfl rfl rfl (fun _ => rfl) rfl id rfl
theorem sar (x : Ext) (d : Code) (a : Code) (b : Code) : Statement (.sar x d a b) := group rfl rfl rfl rfl rfl rfl rfl (fun _ => rfl) rfl id rfl
theorem rol (x : Ext) (d : Code) (a : Code) (b : Code) : Statement (.rol x d a b) := group rfl rfl rfl rfl rfl rfl rfl (fun _ => rfl) rfl id rfl
theorem shf (x : Ext) (d : Code) (a : Code) (b : Code) : Statement (.shf x d a b) := group rfl rfl rfl rfl rfl rfl rfl (fun _ => rfl) rfl id rfl
theorem popc (x : Ext) (d : Code) (a : Code) : Statement (.popc x d a) := group rfl rfl rfl rfl rfl rfl rfl (fun _ => rfl) rfl id rfl
theorem clz (x : Ext) (d : Code) (a : Code) : Statement (.clz x d a) := group rfl rfl rfl rfl rfl rfl rfl (fun _ => rfl) rfl id rfl
theorem ctz (x : Ext) (d : Code) (a : Code) : Statement (.ctz x d a) := group rfl rfl rfl rfl rfl rfl rfl (fun _ => rfl) rfl id rfl
theorem brev (x : Ext) (d : Code) (a : Code) : Statement (.brev x d a) := group rfl rfl rfl rfl rfl rfl rfl (fun _ => rfl) rfl id rfl
theorem bfe (x : Ext) (d : Code) (a : Code) (b : Code) : Statement (.bfe x d a b) := group rfl rfl rfl rfl rfl rfl rfl (fun _ => rfl) rfl id rfl
theorem bfi (x : Ext) (d : Code) (a : Code) (b : Code) : Statement (.bfi x d a b) := group rfl rfl rfl rfl rfl rfl rfl (fun _ => rfl) rfl id rfl
theorem bytesel (x : Ext) (d : Code) (a : Code) (b : Code) : Statement (.bytesel x d a b) :=
  group rfl rfl rfl rfl rfl rfl rfl (fun _ => rfl) rfl id rfl
theorem mov (x : Ext) (d : Code) (a : Code) : Statement (.mov x d a) := group rfl rfl rfl rfl rfl rfl rfl (fun _ => rfl) rfl id rfl
theorem s2v (d : Code) (a : Code) : Statement (.s2v d a) := bare rfl rfl rfl rfl rfl rfl rfl rfl id rfl
theorem v2s (l : Option Word) (d : Code) (a : Code) : Statement (.v2s l d a) := bare rfl rfl rfl rfl rfl rfl rfl rfl id rfl
theorem idiv (x : Ext) (d : Code) (a : Code) (b : Code) : Statement (.idiv x d a b) := group rfl rfl rfl rfl rfl rfl rfl (fun _ => rfl) rfl id rfl
theorem irem (x : Ext) (d : Code) (a : Code) (b : Code) : Statement (.irem x d a b) := group rfl rfl rfl rfl rfl rfl rfl (fun _ => rfl) rfl id rfl
theorem movi (p : Option Pfx) (d : Code) (sh : Code) (imm : BitVec 11) : Statement (.movi p d sh imm) :=
  group rfl rfl rfl rfl (by simp [cellInstr, cellArith, codeJoin, midJoin, immJoin, Parts.iD, Parts.iA, Parts.imm]; rfl) (by simp [cellInstr, cellArith, codeJoin, midJoin, immJoin, Parts.iD, Parts.iA, Parts.imm]) rfl (fun _ => rfl) rfl id rfl
theorem ldi (p : Option Pfx) (d : Code) (imm : BitVec 11) : Statement (.ldi p d imm) :=
  group rfl rfl rfl rfl (by simp [cellInstr, cellArith, codeJoin, immJoin, loZero, hiZero, Parts.iD, Parts.imm]; rfl) (by simp [cellInstr, cellArith, codeJoin, immJoin, loZero, hiZero, Parts.iD, Parts.imm]) rfl (fun _ => rfl) rfl id rfl
theorem sadd (l : Option Word) (d : Code) (a : Code) (b : Code) : Statement (.sadd l d a b) := bare rfl rfl rfl rfl rfl rfl rfl rfl id rfl
theorem ssub (l : Option Word) (d : Code) (a : Code) (b : Code) : Statement (.ssub l d a b) := bare rfl rfl rfl rfl rfl rfl rfl rfl id rfl
theorem smul (l : Option Word) (d : Code) (a : Code) (b : Code) : Statement (.smul l d a b) := bare rfl rfl rfl rfl rfl rfl rfl rfl id rfl
theorem sshl (l : Option Word) (d : Code) (a : Code) (b : Code) : Statement (.sshl l d a b) := bare rfl rfl rfl rfl rfl rfl rfl rfl id rfl
theorem sshr (l : Option Word) (d : Code) (a : Code) (b : Code) : Statement (.sshr l d a b) := bare rfl rfl rfl rfl rfl rfl rfl rfl id rfl
theorem sand (l : Option Word) (d : Code) (a : Code) (b : Code) : Statement (.sand l d a b) := bare rfl rfl rfl rfl rfl rfl rfl rfl id rfl
theorem sor (l : Option Word) (d : Code) (a : Code) (b : Code) : Statement (.sor l d a b) := bare rfl rfl rfl rfl rfl rfl rfl rfl id rfl
theorem sxor (l : Option Word) (d : Code) (a : Code) (b : Code) : Statement (.sxor l d a b) := bare rfl rfl rfl rfl rfl rfl rfl rfl id rfl
theorem ssel (l : Option Word) (d : Code) (a : Code) (b : Code) : Statement (.ssel l d a b) := bare rfl rfl rfl rfl rfl rfl rfl rfl id rfl
theorem smov (l : Option Word) (d : Code) (a : Code) : Statement (.smov l d a) := bare rfl rfl rfl rfl rfl rfl rfl rfl id rfl
theorem scmp (l : Option Word) (c : BitVec 4) (d : Code) (a : Code) (b : Code) : Statement (.scmp l c d a b) :=
  bare rfl rfl rfl rfl rfl rfl rfl rfl id rfl
theorem fadd (x : Ext) (d : Code) (a : Code) (b : Code) : Statement (.fadd x d a b) := group rfl rfl rfl rfl rfl rfl rfl (fun _ => rfl) rfl id rfl
theorem fsub (x : Ext) (d : Code) (a : Code) (b : Code) : Statement (.fsub x d a b) := group rfl rfl rfl rfl rfl rfl rfl (fun _ => rfl) rfl id rfl
theorem fmul (x : Ext) (d : Code) (a : Code) (b : Code) : Statement (.fmul x d a b) := group rfl rfl rfl rfl rfl rfl rfl (fun _ => rfl) rfl id rfl
theorem ffma (x : Ext) (d : Code) (a : Code) (b : Code) : Statement (.ffma x d a b) := group rfl rfl rfl rfl rfl rfl rfl (fun _ => rfl) rfl id rfl
theorem fmin (x : Ext) (d : Code) (a : Code) (b : Code) : Statement (.fmin x d a b) := group rfl rfl rfl rfl rfl rfl rfl (fun _ => rfl) rfl id rfl
theorem fmax (x : Ext) (d : Code) (a : Code) (b : Code) : Statement (.fmax x d a b) := group rfl rfl rfl rfl rfl rfl rfl (fun _ => rfl) rfl id rfl
theorem fminNum (x : Ext) (d : Code) (a : Code) (b : Code) : Statement (.fminNum x d a b) :=
  group rfl rfl rfl rfl rfl rfl rfl (fun _ => rfl) rfl id rfl
theorem fmaxNum (x : Ext) (d : Code) (a : Code) (b : Code) : Statement (.fmaxNum x d a b) :=
  group rfl rfl rfl rfl rfl rfl rfl (fun _ => rfl) rfl id rfl
theorem fabs (x : Ext) (d : Code) (a : Code) : Statement (.fabs x d a) := group rfl rfl rfl rfl rfl rfl rfl (fun _ => rfl) rfl id rfl
theorem fneg (x : Ext) (d : Code) (a : Code) : Statement (.fneg x d a) := group rfl rfl rfl rfl rfl rfl rfl (fun _ => rfl) rfl id rfl
theorem frnd (x : Ext) (d : Code) (a : Code) : Statement (.frnd x d a) := group rfl rfl rfl rfl rfl rfl rfl (fun _ => rfl) rfl id rfl
theorem fclass (x : Ext) (d : Code) (a : Code) : Statement (.fclass x d a) := group rfl rfl rfl rfl rfl rfl rfl (fun _ => rfl) rfl id rfl
theorem fscale (x : Ext) (d : Code) (a : Code) (b : Code) : Statement (.fscale x d a b) := group rfl rfl rfl rfl rfl rfl rfl (fun _ => rfl) rfl id rfl
theorem fcmp (x : Ext) (c : BitVec 4) (d : Code) (a : Code) (b : Code) : Statement (.fcmp x c d a b) :=
  group rfl rfl rfl rfl rfl rfl rfl (fun _ => rfl) rfl id rfl
theorem cvtF2i (x : Ext) (d : Code) (a : Code) (e : BitVec 4) : Statement (.cvtF2i x d a e) :=
  group rfl rfl rfl rfl (by simp [cellInstr, cellFloat, pad4, val4a]; rfl) (by simp [cellInstr, cellFloat, pad4, val4a]) rfl (fun _ => rfl) (by rfl) (by exact id) (by rfl)
theorem cvtI2f (x : Ext) (d : Code) (a : Code) (e : BitVec 4) : Statement (.cvtI2f x d a e) :=
  group rfl rfl rfl rfl (by simp [cellInstr, cellFloat, pad4, val4a]; rfl) (by simp [cellInstr, cellFloat, pad4, val4a]) rfl (fun _ => rfl) (by rfl) (by exact id) (by rfl)
theorem cvtF2f (x : Ext) (d : Code) (a : Code) (h : BitVec 1) (e : BitVec 4) : Statement (.cvtF2f x d a h e) :=
  group rfl rfl rfl rfl (by simp [cellInstr, cellFloat, pad14, val14a, val14b]; rfl) (by simp [cellInstr, cellFloat, pad14, val14a, val14b]) rfl (fun _ => rfl) (by rfl) (by exact id) (by rfl)
theorem qnt (x : Ext) (d : Code) (a : Code) (fmt : BitVec 5) : Statement (.qnt x d a fmt) :=
  group rfl rfl rfl rfl (by simp [cellInstr, cellFloat, pad5, val5a]; rfl) (by simp [cellInstr, cellFloat, pad5, val5a]) rfl (fun _ => rfl) (by rfl) (by exact id) (by rfl)
theorem dqnt (x : Ext) (d : Code) (a : Code) (fmt : BitVec 5) : Statement (.dqnt x d a fmt) :=
  group rfl rfl rfl rfl (by simp [cellInstr, cellFloat, pad5, val5a]; rfl) (by simp [cellInstr, cellFloat, pad5, val5a]) rfl (fun _ => rfl) (by rfl) (by exact id) (by rfl)
theorem mxsc (x : Ext) (d : Code) (a : Code) (fmt : BitVec 5) : Statement (.mxsc x d a fmt) :=
  group rfl rfl rfl rfl (by simp [cellInstr, cellFloat, pad5, val5a]; rfl) (by simp [cellInstr, cellFloat, pad5, val5a]) rfl (fun _ => rfl) (by rfl) (by exact id) (by rfl)
theorem pack (x : Ext) (d : Code) (a : Code) (b : Code) : Statement (.pack x d a b) := group rfl rfl rfl rfl rfl rfl rfl (fun _ => rfl) rfl id rfl
theorem unpk (x : Ext) (d : Code) (a : Code) : Statement (.unpk x d a) := group rfl rfl rfl rfl rfl rfl rfl (fun _ => rfl) rfl id rfl
theorem rng (x : Ext) (d : Code) (a : Code) : Statement (.rng x d a) := group rfl rfl rfl rfl rfl rfl rfl (fun _ => rfl) rfl id rfl
theorem flags (l : Option Word) (d : Code) (a : Code) : Statement (.flags l d a) := bare rfl rfl rfl rfl rfl rfl rfl rfl id rfl
theorem rcp (p : Option Pfx) (k : BitVec 4) (d : Code) (a : Code) : Statement (.rcp p k d a) :=
  group rfl rfl rfl rfl rfl rfl rfl (fun _ => rfl) rfl id rfl
theorem rsq (p : Option Pfx) (k : BitVec 4) (d : Code) (a : Code) : Statement (.rsq p k d a) :=
  group rfl rfl rfl rfl rfl rfl rfl (fun _ => rfl) rfl id rfl
theorem sqrt (p : Option Pfx) (k : BitVec 4) (d : Code) (a : Code) : Statement (.sqrt p k d a) :=
  group rfl rfl rfl rfl rfl rfl rfl (fun _ => rfl) rfl id rfl
theorem ex2 (p : Option Pfx) (k : BitVec 4) (d : Code) (a : Code) : Statement (.ex2 p k d a) :=
  group rfl rfl rfl rfl rfl rfl rfl (fun _ => rfl) rfl id rfl
theorem lg2 (p : Option Pfx) (k : BitVec 4) (d : Code) (a : Code) : Statement (.lg2 p k d a) :=
  group rfl rfl rfl rfl rfl rfl rfl (fun _ => rfl) rfl id rfl
theorem sinpi (p : Option Pfx) (k : BitVec 4) (d : Code) (a : Code) : Statement (.sinpi p k d a) :=
  group rfl rfl rfl rfl rfl rfl rfl (fun _ => rfl) rfl id rfl
theorem cospi (p : Option Pfx) (k : BitVec 4) (d : Code) (a : Code) : Statement (.cospi p k d a) :=
  group rfl rfl rfl rfl rfl rfl rfl (fun _ => rfl) rfl id rfl
theorem tanh (p : Option Pfx) (k : BitVec 4) (d : Code) (a : Code) : Statement (.tanh p k d a) :=
  group rfl rfl rfl rfl rfl rfl rfl (fun _ => rfl) rfl id rfl
theorem sigm (p : Option Pfx) (k : BitVec 4) (d : Code) (a : Code) : Statement (.sigm p k d a) :=
  group rfl rfl rfl rfl rfl rfl rfl (fun _ => rfl) rfl id rfl
theorem lreadAt (x : Ext) (d : Code) (a : Code) (b : Code) : Statement (.lreadAt x d a b) :=
  group rfl rfl rfl rfl rfl rfl rfl (fun _ => rfl) rfl id rfl
theorem lreadBack (x : Ext) (d : Code) (a : Code) (b : Code) : Statement (.lreadBack x d a b) :=
  group rfl rfl rfl rfl rfl rfl rfl (fun _ => rfl) rfl id rfl
theorem lreadFwd (x : Ext) (d : Code) (a : Code) (b : Code) : Statement (.lreadFwd x d a b) :=
  group rfl rfl rfl rfl rfl rfl rfl (fun _ => rfl) rfl id rfl
theorem lreadFlip (x : Ext) (d : Code) (a : Code) (b : Code) : Statement (.lreadFlip x d a b) :=
  group rfl rfl rfl rfl rfl rfl rfl (fun _ => rfl) rfl id rfl
theorem bcast (x : Ext) (d : Code) (a : Code) (b : Code) : Statement (.bcast x d a b) := group rfl rfl rfl rfl rfl rfl rfl (fun _ => rfl) rfl id rfl
theorem voteAny (x : Ext) (d : Code) (a : Code) : Statement (.voteAny x d a) := group rfl rfl rfl rfl rfl rfl rfl (fun _ => rfl) rfl id rfl
theorem voteAll (x : Ext) (d : Code) (a : Code) : Statement (.voteAll x d a) := group rfl rfl rfl rfl rfl rfl rfl (fun _ => rfl) rfl id rfl
theorem voteBal (x : Ext) (d : Code) (a : Code) (b : Code) : Statement (.voteBal x d a b) :=
  group rfl rfl rfl rfl rfl rfl rfl (fun _ => rfl) rfl id rfl
theorem lane (d : Code) : Statement (.lane d) := bare rfl rfl rfl rfl rfl rfl rfl rfl id rfl
theorem grpid (d : Code) : Statement (.grpid d) := bare rfl rfl rfl rfl rfl rfl rfl rfl id rfl
theorem getw (d : Code) : Statement (.getw d) := bare rfl rfl rfl rfl rfl rfl rfl rfl id rfl
theorem setw (l : Option Word) (a : Code) : Statement (.setw l a) := bare rfl rfl rfl rfl rfl rfl rfl rfl id rfl
theorem matchLanes (p : Option Pfx) (k : BitVec 4) (d : Code) (a : Code) : Statement (.matchLanes p k d a) :=
  group rfl rfl rfl rfl rfl rfl rfl (fun _ => rfl) rfl id rfl
theorem redAdd (p : Option Pfx) (k : BitVec 4) (d : Code) (a : Code) : Statement (.redAdd p k d a) :=
  group rfl rfl rfl rfl rfl rfl rfl (fun _ => rfl) rfl id rfl
theorem redMin (p : Option Pfx) (k : BitVec 4) (d : Code) (a : Code) : Statement (.redMin p k d a) :=
  group rfl rfl rfl rfl rfl rfl rfl (fun _ => rfl) rfl id rfl
theorem redMax (p : Option Pfx) (k : BitVec 4) (d : Code) (a : Code) : Statement (.redMax p k d a) :=
  group rfl rfl rfl rfl rfl rfl rfl (fun _ => rfl) rfl id rfl
theorem redBitAnd (p : Option Pfx) (k : BitVec 4) (d : Code) (a : Code) : Statement (.redBitAnd p k d a) :=
  group rfl rfl rfl rfl rfl rfl rfl (fun _ => rfl) rfl id rfl
theorem redBitOr (p : Option Pfx) (k : BitVec 4) (d : Code) (a : Code) : Statement (.redBitOr p k d a) :=
  group rfl rfl rfl rfl rfl rfl rfl (fun _ => rfl) rfl id rfl
theorem redBitXor (p : Option Pfx) (k : BitVec 4) (d : Code) (a : Code) : Statement (.redBitXor p k d a) :=
  group rfl rfl rfl rfl rfl rfl rfl (fun _ => rfl) rfl id rfl
theorem scanAdd (p : Option Pfx) (k : BitVec 4) (d : Code) (a : Code) : Statement (.scanAdd p k d a) :=
  group rfl rfl rfl rfl rfl rfl rfl (fun _ => rfl) rfl id rfl
theorem scanMax (p : Option Pfx) (k : BitVec 4) (d : Code) (a : Code) : Statement (.scanMax p k d a) :=
  group rfl rfl rfl rfl rfl rfl rfl (fun _ => rfl) rfl id rfl
theorem csamp (p : Option Pfx) (k : BitVec 4) (d : Code) (a : Code) : Statement (.csamp p k d a) :=
  group rfl rfl rfl rfl rfl rfl rfl (fun _ => rfl) rfl id rfl
theorem bra (c : BitVec 4) (off : BitVec 21) : Statement (.bra c off) :=
  bare rfl rfl rfl rfl (by simp [cellInstr, cellFlow, offJoin, Parts.off]; rfl) (by simp [cellInstr, cellFlow, offJoin, Parts.off]) rfl rfl id rfl
theorem brx (c : BitVec 4) (off : BitVec 21) : Statement (.brx c off) :=
  bare rfl rfl rfl rfl (by simp [cellInstr, cellFlow, offJoin, Parts.off]; rfl) (by simp [cellInstr, cellFlow, offJoin, Parts.off]) rfl rfl id rfl
theorem brz (c : BitVec 4) (off : BitVec 21) : Statement (.brz c off) :=
  bare rfl rfl rfl rfl (by simp [cellInstr, cellFlow, offJoin, Parts.off]; rfl) (by simp [cellInstr, cellFlow, offJoin, Parts.off]) rfl rfl id rfl
theorem join (off : BitVec 21) : Statement (.join off) :=
  bare rfl rfl rfl rfl (by simp [cellInstr, cellFlow, offJoin, Parts.off]; rfl) (by simp [cellInstr, cellFlow, offJoin, Parts.off]) rfl rfl id rfl
theorem leave (n : BitVec 4) : Statement (.leave n) := bare rfl rfl rfl rfl rfl rfl rfl rfl id rfl
theorem cont (off : BitVec 21) : Statement (.cont off) :=
  bare rfl rfl rfl rfl (by simp [cellInstr, cellFlow, offJoin, Parts.off]; rfl) (by simp [cellInstr, cellFlow, offJoin, Parts.off]) rfl rfl id rfl
theorem call (off : BitVec 21) : Statement (.call off) :=
  bare rfl rfl rfl rfl (by simp [cellInstr, cellFlow, offJoin, Parts.off]; rfl) (by simp [cellInstr, cellFlow, offJoin, Parts.off]) rfl rfl id rfl
theorem calli (a : Code) : Statement (.calli a) := bare rfl rfl rfl rfl rfl rfl rfl rfl id rfl
theorem ret : Statement .ret := bare rfl rfl rfl rfl rfl rfl rfl rfl id rfl
theorem yield : Statement .yield := bare rfl rfl rfl rfl rfl rfl rfl rfl id rfl
theorem exit (l : Option Word) (a : Code) (b : Code) : Statement (.exit l a b) := bare rfl rfl rfl rfl rfl rfl rfl rfl id rfl
theorem nop : Statement .nop := bare rfl rfl rfl rfl rfl rfl rfl rfl id rfl
theorem mand (d : Code) (a : Code) (b : Code) : Statement (.mand d a b) := bare rfl rfl rfl rfl rfl rfl rfl rfl id rfl
theorem mor (d : Code) (a : Code) (b : Code) : Statement (.mor d a b) := bare rfl rfl rfl rfl rfl rfl rfl rfl id rfl
theorem mxor (d : Code) (a : Code) (b : Code) : Statement (.mxor d a b) := bare rfl rfl rfl rfl rfl rfl rfl rfl id rfl
theorem mnot (d : Code) (a : Code) : Statement (.mnot d a) := bare rfl rfl rfl rfl rfl rfl rfl rfl id rfl
theorem mandn (d : Code) (a : Code) (b : Code) : Statement (.mandn d a b) := bare rfl rfl rfl rfl rfl rfl rfl rfl id rfl
theorem mpop (d : Code) (a : Code) : Statement (.mpop d a) := bare rfl rfl rfl rfl rfl rfl rfl rfl id rfl
theorem mffs (d : Code) (a : Code) : Statement (.mffs d a) := bare rfl rfl rfl rfl rfl rfl rfl rfl id rfl
theorem mcur (d : Code) : Statement (.mcur d) := bare rfl rfl rfl rfl rfl rfl rfl rfl id rfl
theorem mspill (d : Code) (a : Code) : Statement (.mspill d a) := bare rfl rfl rfl rfl rfl rfl rfl rfl id rfl
theorem mfill (l : Option Word) (d : Code) (a : Code) : Statement (.mfill l d a) := bare rfl rfl rfl rfl rfl rfl rfl rfl id rfl
theorem setmode (l : Option Word) (m : Code) (a : Code) (imm : BitVec 11) : Statement (.setmode l m a imm) :=
  bare rfl rfl rfl rfl (by simp [cellInstr, cellFlow, codeJoin, midJoin, immJoin, Parts.iD, Parts.iA, Parts.imm]; rfl) (by simp [cellInstr, cellFlow, codeJoin, midJoin, immJoin, Parts.iD, Parts.iA, Parts.imm]) rfl (by rfl) (by exact setmode_ok rfl rfl) (by rfl)
theorem getmode (d : Code) : Statement (.getmode d) := bare rfl rfl rfl rfl rfl rfl rfl rfl id rfl
theorem bar (n : BitVec 4) : Statement (.bar n) :=
  bare rfl rfl rfl rfl (by simp [cellInstr, cellFlow, pad4, val4a]; rfl) (by simp [cellInstr, cellFlow, pad4, val4a]) rfl rfl id rfl
theorem barTask (n : BitVec 4) : Statement (.barTask n) :=
  bare rfl rfl rfl rfl (by simp [cellInstr, cellFlow, pad4, val4a]; rfl) (by simp [cellInstr, cellFlow, pad4, val4a]) rfl rfl id rfl
theorem bara (d : Code) (n : BitVec 4) : Statement (.bara d n) :=
  bare rfl rfl rfl rfl (by simp [cellInstr, cellFlow, pad4, val4a]; rfl) (by simp [cellInstr, cellFlow, pad4, val4a]) rfl rfl id rfl
theorem barw (l : Option Word) (a : Code) (n : BitVec 4) : Statement (.barw l a n) :=
  bare rfl rfl rfl rfl (by simp [cellInstr, cellFlow, pad4, val4a]; rfl) (by simp [cellInstr, cellFlow, pad4, val4a]) rfl (by rfl) (by exact id) (by rfl)
theorem barc (l : Option Word) (a : Code) (n : BitVec 4) : Statement (.barc l a n) :=
  bare rfl rfl rfl rfl (by simp [cellInstr, cellFlow, pad4, val4a]; rfl) (by simp [cellInstr, cellFlow, pad4, val4a]) rfl (by rfl) (by exact id) (by rfl)
theorem role (d : Code) : Statement (.role d) := bare rfl rfl rfl rfl rfl rfl rfl rfl id rfl
theorem teamid (d : Code) : Statement (.teamid d) := bare rfl rfl rfl rfl rfl rfl rfl rfl id rfl
theorem nteam (d : Code) : Statement (.nteam d) := bare rfl rfl rfl rfl rfl rfl rfl rfl id rfl
theorem gridid (d : Code) : Statement (.gridid d) := bare rfl rfl rfl rfl rfl rfl rfl rfl id rfl
theorem lclk (d : Code) (h : BitVec 1) : Statement (.lclk d h) :=
  bare rfl rfl rfl rfl (by simp [cellInstr, cellFlow, pad1, val1a]; rfl) (by simp [cellInstr, cellFlow, pad1, val1a]) rfl rfl id rfl
theorem taskend : Statement .taskend := bare rfl rfl rfl rfl rfl rfl rfl rfl id rfl
theorem safept : Statement .safept := bare rfl rfl rfl rfl rfl rfl rfl rfl id rfl
theorem ecard (l : Option Word) (k : BitVec 4) (h : BitVec 1) (c : BitVec 4) (a : Code) (b : Code) : Statement (.ecard l k h c a b) :=
  bare rfl rfl rfl rfl (by simp [cellInstr, cellFlow, pad14, val14a, val14b]; rfl) (by simp [cellInstr, cellFlow, pad14, val14a, val14b]) rfl (by rfl) (by exact id) (by rfl)
theorem etail (l : Option Word) (c : BitVec 4) (a : Code) : Statement (.etail l c a) :=
  bare rfl rfl rfl rfl (by simp [cellInstr, cellFlow, pad4, val4a]; rfl) (by simp [cellInstr, cellFlow, pad4, val4a]) rfl (by rfl) (by exact id) (by rfl)
theorem eseq (d : Code) (sel : BitVec 2) (c : BitVec 4) : Statement (.eseq d sel c) :=
  bare rfl rfl rfl rfl (by simp [cellInstr, cellFlow, pad24, val24a, val24b]; rfl) (by simp [cellInstr, cellFlow, pad24, val24a, val24b]) rfl rfl id rfl
theorem ewait (l : Option Word) (a : Code) (c : BitVec 4) : Statement (.ewait l a c) :=
  bare rfl rfl rfl rfl (by simp [cellInstr, cellFlow, pad4, val4a]; rfl) (by simp [cellInstr, cellFlow, pad4, val4a]) rfl (by rfl) (by exact id) (by rfl)
theorem graph (l : Option Word) (a : Code) (b : Code) : Statement (.graph l a b) := bare rfl rfl rfl rfl rfl rfl rfl rfl id rfl
theorem gcond (l : Option Word) (a : Code) (b : Code) : Statement (.gcond l a b) := bare rfl rfl rfl rfl rfl rfl rfl rfl id rfl
theorem ldmb (k : BitVec 4) (t : Code) (a : Code) (sp : BitVec 1) (fmt : BitVec 5) : Statement (.ldmb k t a sp fmt) :=
  bare rfl rfl rfl rfl (by simp [cellInstr, cellFlow, pad15, val15a, val15b]; rfl) (by simp [cellInstr, cellFlow, pad15, val15a, val15b]) rfl rfl id rfl
theorem mstart (l : Option Word) (k : BitVec 4) (u : BitVec 1) (a : Code) (b : Code) : Statement (.mstart l k u a b) :=
  bare rfl rfl rfl rfl (by simp [cellInstr, cellFlow, pad1, val1a]; rfl) (by simp [cellInstr, cellFlow, pad1, val1a]) rfl (by rfl) (by exact id) (by rfl)
theorem maccRd (l : Option Word) (d : Code) (a : Code) : Statement (.maccRd l d a) := bare rfl rfl rfl rfl rfl rfl rfl rfl id rfl
theorem maccWr (l : Option Word) (a : Code) (b : Code) : Statement (.maccWr l a b) := bare rfl rfl rfl rfl rfl rfl rfl rfl id rfl
theorem trap (n : Code) : Statement (.trap n) := bare rfl rfl rfl rfl rfl rfl rfl rfl id rfl
theorem eret : Statement .eret := bare rfl rfl rfl rfl rfl rfl rfl rfl id rfl
theorem emret (lst : BitVec 1) : Statement (.emret lst) :=
  bare rfl rfl rfl rfl (by simp [cellInstr, cellFlow, pad1, val1a]; rfl) (by simp [cellInstr, cellFlow, pad1, val1a]) rfl rfl id rfl
theorem wrd (d : Code) (j : BitVec 2) (slot : BitVec 2) : Statement (.wrd d j slot) :=
  bare rfl rfl rfl rfl (by simp [cellInstr, cellFlow, pad22, val22a, val22b]; rfl) (by simp [cellInstr, cellFlow, pad22, val22a, val22b]) rfl rfl id rfl
theorem wwr (l : Option Word) (a : Code) (j : BitVec 2) (slot : BitVec 2) : Statement (.wwr l a j slot) :=
  bare rfl rfl rfl rfl (by simp [cellInstr, cellFlow, pad22, val22a, val22b]; rfl) (by simp [cellInstr, cellFlow, pad22, val22a, val22b]) rfl (by rfl) (by exact id) (by rfl)
theorem winfo (d : Code) (ix : BitVec 3) : Statement (.winfo d ix) :=
  bare rfl rfl rfl rfl (by simp [cellInstr, cellFlow, pad3, val3a]; rfl) (by simp [cellInstr, cellFlow, pad3, val3a]) rfl rfl id rfl
theorem csrr (d : Code) (n : Code) : Statement (.csrr d n) := bare rfl rfl rfl rfl rfl rfl rfl rfl id rfl
theorem csrw (l : Option Word) (a : Code) (n : Code) : Statement (.csrw l a n) := bare rfl rfl rfl rfl rfl rfl rfl rfl id rfl
theorem segld (a : Code) (g : BitVec 3) : Statement (.segld a g) :=
  bare rfl rfl rfl rfl (by simp [cellInstr, cellFlow, pad3, val3a]; rfl) (by simp [cellInstr, cellFlow, pad3, val3a]) rfl rfl id rfl
theorem tlbinv : Statement .tlbinv := bare rfl rfl rfl rfl rfl rfl rfl rfl id rfl
theorem tlbinvVa (a : Code) : Statement (.tlbinvVa a) :=
  bare rfl rfl rfl rfl (by simp [cellInstr, cellFlow]; rfl) (by simp [cellInstr, cellFlow]) rfl rfl id rfl
theorem dbgbrk (n : Code) : Statement (.dbgbrk n) := bare rfl rfl rfl rfl rfl rfl rfl rfl id rfl
theorem halt : Statement .halt := bare rfl rfl rfl rfl rfl rfl rfl rfl id rfl
theorem ldGB (p : Option Pfx) (k : BitVec 4) (t : Code) (a : Code) (disp : Code) : Statement (.ldGB p k t a disp) :=
  group rfl rfl rfl rfl rfl rfl rfl (fun _ => rfl) rfl id rfl
theorem ldGH (p : Option Pfx) (k : BitVec 4) (t : Code) (a : Code) (disp : Code) : Statement (.ldGH p k t a disp) :=
  group rfl rfl rfl rfl rfl rfl rfl (fun _ => rfl) rfl id rfl
theorem ldGW (p : Option Pfx) (k : BitVec 4) (t : Code) (a : Code) (disp : Code) : Statement (.ldGW p k t a disp) :=
  group rfl rfl rfl rfl rfl rfl rfl (fun _ => rfl) rfl id rfl
theorem ldGD (p : Option Pfx) (k : BitVec 4) (t : Code) (a : Code) (disp : Code) : Statement (.ldGD p k t a disp) :=
  group rfl rfl rfl rfl rfl rfl rfl (fun _ => rfl) rfl id rfl
theorem ldGQ (p : Option Pfx) (k : BitVec 4) (t : Code) (a : Code) (disp : Code) : Statement (.ldGQ p k t a disp) :=
  group rfl rfl rfl rfl rfl rfl rfl (fun _ => rfl) rfl id rfl
theorem ldSB (p : Option Pfx) (k : BitVec 4) (t : Code) (a : Code) (disp : Code) : Statement (.ldSB p k t a disp) :=
  group rfl rfl rfl rfl rfl rfl rfl (fun _ => rfl) rfl id rfl
theorem ldSH (p : Option Pfx) (k : BitVec 4) (t : Code) (a : Code) (disp : Code) : Statement (.ldSH p k t a disp) :=
  group rfl rfl rfl rfl rfl rfl rfl (fun _ => rfl) rfl id rfl
theorem ldSW (p : Option Pfx) (k : BitVec 4) (t : Code) (a : Code) (disp : Code) : Statement (.ldSW p k t a disp) :=
  group rfl rfl rfl rfl rfl rfl rfl (fun _ => rfl) rfl id rfl
theorem ldSD (p : Option Pfx) (k : BitVec 4) (t : Code) (a : Code) (disp : Code) : Statement (.ldSD p k t a disp) :=
  group rfl rfl rfl rfl rfl rfl rfl (fun _ => rfl) rfl id rfl
theorem ldSQ (p : Option Pfx) (k : BitVec 4) (t : Code) (a : Code) (disp : Code) : Statement (.ldSQ p k t a disp) :=
  group rfl rfl rfl rfl rfl rfl rfl (fun _ => rfl) rfl id rfl
theorem ldCB (p : Option Pfx) (k : BitVec 4) (t : Code) (a : Code) (disp : Code) : Statement (.ldCB p k t a disp) :=
  group rfl rfl rfl rfl rfl rfl rfl (fun _ => rfl) rfl id rfl
theorem ldCH (p : Option Pfx) (k : BitVec 4) (t : Code) (a : Code) (disp : Code) : Statement (.ldCH p k t a disp) :=
  group rfl rfl rfl rfl rfl rfl rfl (fun _ => rfl) rfl id rfl
theorem ldCW (p : Option Pfx) (k : BitVec 4) (t : Code) (a : Code) (disp : Code) : Statement (.ldCW p k t a disp) :=
  group rfl rfl rfl rfl rfl rfl rfl (fun _ => rfl) rfl id rfl
theorem ldCD (p : Option Pfx) (k : BitVec 4) (t : Code) (a : Code) (disp : Code) : Statement (.ldCD p k t a disp) :=
  group rfl rfl rfl rfl rfl rfl rfl (fun _ => rfl) rfl id rfl
theorem ldCQ (p : Option Pfx) (k : BitVec 4) (t : Code) (a : Code) (disp : Code) : Statement (.ldCQ p k t a disp) :=
  group rfl rfl rfl rfl rfl rfl rfl (fun _ => rfl) rfl id rfl
theorem ldLB (p : Option Pfx) (k : BitVec 4) (t : Code) (a : Code) (disp : Code) : Statement (.ldLB p k t a disp) :=
  group rfl rfl rfl rfl rfl rfl rfl (fun _ => rfl) rfl id rfl
theorem ldLH (p : Option Pfx) (k : BitVec 4) (t : Code) (a : Code) (disp : Code) : Statement (.ldLH p k t a disp) :=
  group rfl rfl rfl rfl rfl rfl rfl (fun _ => rfl) rfl id rfl
theorem ldLW (p : Option Pfx) (k : BitVec 4) (t : Code) (a : Code) (disp : Code) : Statement (.ldLW p k t a disp) :=
  group rfl rfl rfl rfl rfl rfl rfl (fun _ => rfl) rfl id rfl
theorem ldLD (p : Option Pfx) (k : BitVec 4) (t : Code) (a : Code) (disp : Code) : Statement (.ldLD p k t a disp) :=
  group rfl rfl rfl rfl rfl rfl rfl (fun _ => rfl) rfl id rfl
theorem ldLQ (p : Option Pfx) (k : BitVec 4) (t : Code) (a : Code) (disp : Code) : Statement (.ldLQ p k t a disp) :=
  group rfl rfl rfl rfl rfl rfl rfl (fun _ => rfl) rfl id rfl
theorem stGB (p : Option Pfx) (k : BitVec 4) (t : Code) (a : Code) (disp : Code) : Statement (.stGB p k t a disp) :=
  group rfl rfl rfl rfl rfl rfl rfl (fun _ => rfl) rfl id rfl
theorem stGH (p : Option Pfx) (k : BitVec 4) (t : Code) (a : Code) (disp : Code) : Statement (.stGH p k t a disp) :=
  group rfl rfl rfl rfl rfl rfl rfl (fun _ => rfl) rfl id rfl
theorem stGW (p : Option Pfx) (k : BitVec 4) (t : Code) (a : Code) (disp : Code) : Statement (.stGW p k t a disp) :=
  group rfl rfl rfl rfl rfl rfl rfl (fun _ => rfl) rfl id rfl
theorem stGD (p : Option Pfx) (k : BitVec 4) (t : Code) (a : Code) (disp : Code) : Statement (.stGD p k t a disp) :=
  group rfl rfl rfl rfl rfl rfl rfl (fun _ => rfl) rfl id rfl
theorem stGQ (p : Option Pfx) (k : BitVec 4) (t : Code) (a : Code) (disp : Code) : Statement (.stGQ p k t a disp) :=
  group rfl rfl rfl rfl rfl rfl rfl (fun _ => rfl) rfl id rfl
theorem stSB (p : Option Pfx) (k : BitVec 4) (t : Code) (a : Code) (disp : Code) : Statement (.stSB p k t a disp) :=
  group rfl rfl rfl rfl rfl rfl rfl (fun _ => rfl) rfl id rfl
theorem stSH (p : Option Pfx) (k : BitVec 4) (t : Code) (a : Code) (disp : Code) : Statement (.stSH p k t a disp) :=
  group rfl rfl rfl rfl rfl rfl rfl (fun _ => rfl) rfl id rfl
theorem stSW (p : Option Pfx) (k : BitVec 4) (t : Code) (a : Code) (disp : Code) : Statement (.stSW p k t a disp) :=
  group rfl rfl rfl rfl rfl rfl rfl (fun _ => rfl) rfl id rfl
theorem stSD (p : Option Pfx) (k : BitVec 4) (t : Code) (a : Code) (disp : Code) : Statement (.stSD p k t a disp) :=
  group rfl rfl rfl rfl rfl rfl rfl (fun _ => rfl) rfl id rfl
theorem stSQ (p : Option Pfx) (k : BitVec 4) (t : Code) (a : Code) (disp : Code) : Statement (.stSQ p k t a disp) :=
  group rfl rfl rfl rfl rfl rfl rfl (fun _ => rfl) rfl id rfl
theorem stLB (p : Option Pfx) (k : BitVec 4) (t : Code) (a : Code) (disp : Code) : Statement (.stLB p k t a disp) :=
  group rfl rfl rfl rfl rfl rfl rfl (fun _ => rfl) rfl id rfl
theorem stLH (p : Option Pfx) (k : BitVec 4) (t : Code) (a : Code) (disp : Code) : Statement (.stLH p k t a disp) :=
  group rfl rfl rfl rfl rfl rfl rfl (fun _ => rfl) rfl id rfl
theorem stLW (p : Option Pfx) (k : BitVec 4) (t : Code) (a : Code) (disp : Code) : Statement (.stLW p k t a disp) :=
  group rfl rfl rfl rfl rfl rfl rfl (fun _ => rfl) rfl id rfl
theorem stLD (p : Option Pfx) (k : BitVec 4) (t : Code) (a : Code) (disp : Code) : Statement (.stLD p k t a disp) :=
  group rfl rfl rfl rfl rfl rfl rfl (fun _ => rfl) rfl id rfl
theorem stLQ (p : Option Pfx) (k : BitVec 4) (t : Code) (a : Code) (disp : Code) : Statement (.stLQ p k t a disp) :=
  group rfl rfl rfl rfl rfl rfl rfl (fun _ => rfl) rfl id rfl
theorem ldGAcqW (p : Option Pfx) (k : BitVec 4) (t : Code) (a : Code) (sc : BitVec 3) (disp : BitVec 4) : Statement (.ldGAcqW p k t a sc disp) :=
  group rfl rfl rfl rfl (by simp [cellInstr, cellMem, val34a, val34b]; rfl) (by simp [cellInstr, cellMem, val34a, val34b]) rfl (fun _ => rfl) rfl id rfl
theorem ldGAcqD (p : Option Pfx) (k : BitVec 4) (t : Code) (a : Code) (sc : BitVec 3) (disp : BitVec 4) : Statement (.ldGAcqD p k t a sc disp) :=
  group rfl rfl rfl rfl (by simp [cellInstr, cellMem, val34a, val34b]; rfl) (by simp [cellInstr, cellMem, val34a, val34b]) rfl (fun _ => rfl) rfl id rfl
theorem ldSAcqW (p : Option Pfx) (k : BitVec 4) (t : Code) (a : Code) (sc : BitVec 3) (disp : BitVec 4) : Statement (.ldSAcqW p k t a sc disp) :=
  group rfl rfl rfl rfl (by simp [cellInstr, cellMem, val34a, val34b]; rfl) (by simp [cellInstr, cellMem, val34a, val34b]) rfl (fun _ => rfl) rfl id rfl
theorem ldSAcqD (p : Option Pfx) (k : BitVec 4) (t : Code) (a : Code) (sc : BitVec 3) (disp : BitVec 4) : Statement (.ldSAcqD p k t a sc disp) :=
  group rfl rfl rfl rfl (by simp [cellInstr, cellMem, val34a, val34b]; rfl) (by simp [cellInstr, cellMem, val34a, val34b]) rfl (fun _ => rfl) rfl id rfl
theorem stGRelW (p : Option Pfx) (k : BitVec 4) (t : Code) (a : Code) (sc : BitVec 3) (disp : BitVec 4) : Statement (.stGRelW p k t a sc disp) :=
  group rfl rfl rfl rfl (by simp [cellInstr, cellMem, val34a, val34b]; rfl) (by simp [cellInstr, cellMem, val34a, val34b]) rfl (fun _ => rfl) rfl id rfl
theorem stGRelD (p : Option Pfx) (k : BitVec 4) (t : Code) (a : Code) (sc : BitVec 3) (disp : BitVec 4) : Statement (.stGRelD p k t a sc disp) :=
  group rfl rfl rfl rfl (by simp [cellInstr, cellMem, val34a, val34b]; rfl) (by simp [cellInstr, cellMem, val34a, val34b]) rfl (fun _ => rfl) rfl id rfl
theorem stSRelW (p : Option Pfx) (k : BitVec 4) (t : Code) (a : Code) (sc : BitVec 3) (disp : BitVec 4) : Statement (.stSRelW p k t a sc disp) :=
  group rfl rfl rfl rfl (by simp [cellInstr, cellMem, val34a, val34b]; rfl) (by simp [cellInstr, cellMem, val34a, val34b]) rfl (fun _ => rfl) rfl id rfl
theorem stSRelD (p : Option Pfx) (k : BitVec 4) (t : Code) (a : Code) (sc : BitVec 3) (disp : BitVec 4) : Statement (.stSRelD p k t a sc disp) :=
  group rfl rfl rfl rfl (by simp [cellInstr, cellMem, val34a, val34b]; rfl) (by simp [cellInstr, cellMem, val34a, val34b]) rfl (fun _ => rfl) rfl id rfl
theorem atomGW (p : Option Pfx) (k : BitVec 4) (t : Code) (a : Code) (sc : BitVec 3) (op : BitVec 4) : Statement (.atomGW p k t a sc op) :=
  group rfl rfl rfl rfl (by simp [cellInstr, cellMem, val34a, val34b]; rfl) (by simp [cellInstr, cellMem, val34a, val34b]) rfl (fun _ => rfl) rfl id rfl
theorem atomGD (p : Option Pfx) (k : BitVec 4) (t : Code) (a : Code) (sc : BitVec 3) (op : BitVec 4) : Statement (.atomGD p k t a sc op) :=
  group rfl rfl rfl rfl (by simp [cellInstr, cellMem, val34a, val34b]; rfl) (by simp [cellInstr, cellMem, val34a, val34b]) rfl (fun _ => rfl) rfl id rfl
theorem atomSW (p : Option Pfx) (k : BitVec 4) (t : Code) (a : Code) (sc : BitVec 3) (op : BitVec 4) : Statement (.atomSW p k t a sc op) :=
  group rfl rfl rfl rfl (by simp [cellInstr, cellMem, val34a, val34b]; rfl) (by simp [cellInstr, cellMem, val34a, val34b]) rfl (fun _ => rfl) rfl id rfl
theorem atomSD (p : Option Pfx) (k : BitVec 4) (t : Code) (a : Code) (sc : BitVec 3) (op : BitVec 4) : Statement (.atomSD p k t a sc op) :=
  group rfl rfl rfl rfl (by simp [cellInstr, cellMem, val34a, val34b]; rfl) (by simp [cellInstr, cellMem, val34a, val34b]) rfl (fun _ => rfl) rfl id rfl
theorem redmGW (p : Option Pfx) (k : BitVec 4) (t : Code) (a : Code) (sc : BitVec 3) (op : BitVec 4) : Statement (.redmGW p k t a sc op) :=
  group rfl rfl rfl rfl (by simp [cellInstr, cellMem, val34a, val34b]; rfl) (by simp [cellInstr, cellMem, val34a, val34b]) rfl (fun _ => rfl) rfl id rfl
theorem redmGD (p : Option Pfx) (k : BitVec 4) (t : Code) (a : Code) (sc : BitVec 3) (op : BitVec 4) : Statement (.redmGD p k t a sc op) :=
  group rfl rfl rfl rfl (by simp [cellInstr, cellMem, val34a, val34b]; rfl) (by simp [cellInstr, cellMem, val34a, val34b]) rfl (fun _ => rfl) rfl id rfl
theorem ldv (p : Option Pfx) (k : BitVec 4) (t : Code) (a : Code) (g : BitVec 3) (w : BitVec 2) (h : BitVec 2) : Statement (.ldv p k t a g w h) :=
  group rfl rfl rfl rfl (by simp [cellInstr, cellMem, val322a, val322b, val322c]; rfl) (by simp [cellInstr, cellMem, val322a, val322b, val322c]) rfl (fun _ => rfl) rfl id rfl
theorem stv (p : Option Pfx) (k : BitVec 4) (t : Code) (a : Code) (g : BitVec 3) (w : BitVec 2) (h : BitVec 2) : Statement (.stv p k t a g w h) :=
  group rfl rfl rfl rfl (by simp [cellInstr, cellMem, val322a, val322b, val322c]; rfl) (by simp [cellInstr, cellMem, val322a, val322b, val322c]) rfl (fun _ => rfl) rfl id rfl
theorem prf (k : BitVec 4) (a : Code) (disp : Code) : Statement (.prf k a disp) := bare rfl rfl rfl rfl rfl rfl rfl rfl id rfl
theorem cwb (k : BitVec 4) (a : Code) (disp : Code) : Statement (.cwb k a disp) := bare rfl rfl rfl rfl rfl rfl rfl rfl id rfl
theorem cinv (k : BitVec 4) (a : Code) (disp : Code) : Statement (.cinv k a disp) := bare rfl rfl rfl rfl rfl rfl rfl rfl id rfl
theorem waitc (l : Option Word) (a : Code) (path : BitVec 3) : Statement (.waitc l a path) :=
  bare rfl rfl rfl rfl (by simp [cellInstr, cellMem, pad3, val3a]; rfl) (by simp [cellInstr, cellMem, pad3, val3a]) rfl (by rfl) (by exact id) (by rfl)
theorem segrd (d : Code) (lim : BitVec 1) (g : BitVec 3) : Statement (.segrd d lim g) :=
  bare rfl rfl rfl rfl (by simp [cellInstr, cellMem, pad13, val13a, val13b]; rfl) (by simp [cellInstr, cellMem, pad13, val13a, val13b]) rfl rfl id rfl
theorem fence (sc : BitVec 3) : Statement (.fence sc) :=
  bare rfl rfl rfl rfl (by simp [cellInstr, cellMem, pad3, val3a]; rfl) (by simp [cellInstr, cellMem, pad3, val3a]) rfl rfl id rfl
theorem juryrig (w : RawWord) : Statement (.juryrig w) := by
  cases w with
  | group => exact other rfl rfl
  | stream x =>
    have hr : (RawWord.stream x).inCells 0x18 0x1F 0x30 0x37 = true → decodeStream x = .juryrig (.stream x) := fun h => by
      simp only [RawWord.inCells, Bool.and_eq_true, decide_eq_true_eq] at h
      exact fate_juryrig h.1 h.2
    exact fun hw => (stream rfl rfl (hr hw)) hw
theorem illegal (w : RawWord) : Statement (.illegal w) := fun h => nomatch h
theorem vendorTest (w : RawWord) : Statement (.vendorTest w) := by
  cases w with
  | group => exact other rfl rfl
  | stream x =>
    have hr : (RawWord.stream x).inCells 0x70 0x77 0x38 0x3F = true → decodeStream x = .vendorTest (.stream x) := fun h => by
      simp only [RawWord.inCells, Bool.and_eq_true, decide_eq_true_eq] at h
      exact fate_vendorTest h.1 h.2
    exact fun hw => (stream rfl rfl (hr hw)) hw
theorem mlda (fmt : BitVec 5) (abuf : BitVec 1) (lsel : BitVec 2) (stride off : BitVec 16) : Statement (.mlda fmt abuf lsel stride off) := by
  have key : ∀ w : DWord, w.extractLsb' 58 6 = 1#6 → streamFieldsOk w 0x3FFFFFFFFFC0000 = true → decodeStream w =
      .mlda (w.extractLsb' 53 5) (w.extractLsb' 52 1) (w.extractLsb' 50 2) (w.extractLsb' 34 16) (w.extractLsb' 18 16) := by
    intro w hx hs
    simpa [decodeStream, hx] using hs
  have h0 := fmt.isLt
  have h1 := abuf.isLt
  have h2 := lsel.isLt
  have h3 := stride.isLt
  have h4 := off.isLt
  refine stream rfl rfl ((key _ ?_ ?_).trans ?_)
  · apply BitVec.eq_of_toNat_eq; rw [toNat_ext]; simp only [toNat_app, BitVec.toNat_ofNat]; omega
  · have e : (1#6 ++ fmt ++ abuf ++ lsel ++ stride ++ off ++ 0#18 : DWord) = 1#6 ++ (fmt ++ abuf ++ lsel ++ stride ++ off ++ 0#18 : BitVec 58) := by
      apply BitVec.eq_of_toNat_eq; simp only [toNat_app, BitVec.toNat_ofNat]; omega
    refine (congrArg (fun y => streamFieldsOk y _) e).trans (fields_ok (u := 0x3FFFFFFFFFC0000#58) ?_)
    have z : (fmt ++ abuf ++ lsel ++ stride ++ off ++ 0#18) &&& (0#5 ++ 0#1 ++ 0#2 ++ 0#16 ++ 0#16 ++ BitVec.allOnes 18) = 0#5 ++ 0#1 ++ 0#2 ++ 0#16 ++ 0#16 ++ 0#18 := by simp only [and_app, BitVec.and_zero, BitVec.zero_and]
    exact z
  · congr 1 <;> (apply BitVec.eq_of_toNat_eq; rw [toNat_ext]; simp only [toNat_app, BitVec.toNat_ofNat]; omega)
theorem mma (afmt bfmt : BitVec 5) (atype : BitVec 2) (slot : BitVec 3) (abuf bbuf ovw : BitVec 1)
    : Statement (.mma afmt bfmt atype slot abuf bbuf ovw) :=
  by
  have key : ∀ w : DWord, w.extractLsb' 58 6 = 2#6 → streamFieldsOk w 0x3FFFF0000000000 = true → decodeStream w =
      .mma (w.extractLsb' 53 5) (w.extractLsb' 48 5) (w.extractLsb' 46 2) (w.extractLsb' 43 3) (w.extractLsb' 42 1) (w.extractLsb' 41 1) (w.extractLsb' 40 1) := by
    intro w hx hs
    simpa [decodeStream, hx] using hs
  have h0 := afmt.isLt
  have h1 := bfmt.isLt
  have h2 := atype.isLt
  have h3 := slot.isLt
  have h4 := abuf.isLt
  have h5 := bbuf.isLt
  have h6 := ovw.isLt
  refine stream rfl rfl ((key _ ?_ ?_).trans ?_)
  · apply BitVec.eq_of_toNat_eq; rw [toNat_ext]; simp only [toNat_app, BitVec.toNat_ofNat]; omega
  · have e : (2#6 ++ afmt ++ bfmt ++ atype ++ slot ++ abuf ++ bbuf ++ ovw ++ 0#40 : DWord) = 2#6 ++ (afmt ++ bfmt ++ atype ++ slot ++ abuf ++ bbuf ++ ovw ++ 0#40 : BitVec 58) := by
      apply BitVec.eq_of_toNat_eq; simp only [toNat_app, BitVec.toNat_ofNat]; omega
    refine (congrArg (fun y => streamFieldsOk y _) e).trans (fields_ok (u := 0x3FFFF0000000000#58) ?_)
    have z : (afmt ++ bfmt ++ atype ++ slot ++ abuf ++ bbuf ++ ovw ++ 0#40) &&& (0#5 ++ 0#5 ++ 0#2 ++ 0#3 ++ 0#1 ++ 0#1 ++ 0#1 ++ BitVec.allOnes 40) = 0#5 ++ 0#5 ++ 0#2 ++ 0#3 ++ 0#1 ++ 0#1 ++ 0#1 ++ 0#40 := by simp only [and_app, BitVec.and_zero, BitVec.zero_and]
    exact z
  · congr 1 <;> (apply BitVec.eq_of_toNat_eq; rw [toNat_ext]; simp only [toNat_app, BitVec.toNat_ofNat]; omega)
theorem mzero (atype : BitVec 2) (slot : BitVec 3) : Statement (.mzero atype slot) := by
  have key : ∀ w : DWord, w.extractLsb' 58 6 = 3#6 → streamFieldsOk w 0x0000F80000000000 = true → decodeStream w =
      .mzero (w.extractLsb' 46 2) (w.extractLsb' 43 3) := by
    intro w hx hs
    simpa [decodeStream, hx] using hs
  have h0 := atype.isLt
  have h1 := slot.isLt
  refine stream rfl rfl ((key _ ?_ ?_).trans ?_)
  · apply BitVec.eq_of_toNat_eq; rw [toNat_ext]; simp only [toNat_app, BitVec.toNat_ofNat]; omega
  · have e : (3#6 ++ 0#10 ++ atype ++ slot ++ 0#43 : DWord) = 3#6 ++ (0#10 ++ atype ++ slot ++ 0#43 : BitVec 58) := by
      apply BitVec.eq_of_toNat_eq; simp only [toNat_app, BitVec.toNat_ofNat]; omega
    refine (congrArg (fun y => streamFieldsOk y _) e).trans (fields_ok (u := 0x0000F80000000000#58) ?_)
    have z : (0#10 ++ atype ++ slot ++ 0#43) &&& (BitVec.allOnes 10 ++ 0#2 ++ 0#3 ++ BitVec.allOnes 43) = 0#10 ++ 0#2 ++ 0#3 ++ 0#43 := by simp only [and_app, BitVec.and_zero, BitVec.zero_and]
    exact z
  · congr 1 <;> (apply BitVec.eq_of_toNat_eq; rw [toNat_ext]; simp only [toNat_app, BitVec.toNat_ofNat]; omega)
theorem mdrain (f : DrainFields) : Statement (.mdrain f) := by
  obtain ⟨ofmt, rnd, atype, slot, lsel, doff, dstride, mscope, maxen, srsel, clr⟩ := f
  have key : ∀ w : DWord, w.extractLsb' 58 6 = 4#6 → streamFieldsOk w 0x3FCFFFFFFFFFFFC = true → decodeStream w =
      .mdrain { ofmt := (w.extractLsb' 53 5), rnd := (w.extractLsb' 50 3), atype := (w.extractLsb' 46 2), slot := (w.extractLsb' 43 3), lsel := (w.extractLsb' 41 2), doff := (w.extractLsb' 25 16), dstride := (w.extractLsb' 9 16), mscope := (w.extractLsb' 6 3), maxen := (w.extractLsb' 5 1), srsel := (w.extractLsb' 3 2), clr := (w.extractLsb' 2 1) } := by
    intro w hx hs
    simpa [decodeStream, hx] using hs
  have h0 := ofmt.isLt
  have h1 := rnd.isLt
  have h2 := atype.isLt
  have h3 := slot.isLt
  have h4 := lsel.isLt
  have h5 := doff.isLt
  have h6 := dstride.isLt
  have h7 := mscope.isLt
  have h8 := maxen.isLt
  have h9 := srsel.isLt
  have h10 := clr.isLt
  refine stream rfl rfl ((key _ ?_ ?_).trans ?_)
  · apply BitVec.eq_of_toNat_eq; rw [toNat_ext]; simp only [toNat_app, BitVec.toNat_ofNat]; omega
  · have e : (4#6 ++ ofmt ++ rnd ++ 0#2 ++ atype ++ slot ++ lsel ++ doff ++ dstride ++ mscope ++ maxen ++ srsel ++ clr ++ 0#2 : DWord) = 4#6 ++ (ofmt ++ rnd ++ 0#2 ++ atype ++ slot ++ lsel ++ doff ++ dstride ++ mscope ++ maxen ++ srsel ++ clr ++ 0#2 : BitVec 58) := by
      apply BitVec.eq_of_toNat_eq; simp only [toNat_app, BitVec.toNat_ofNat]; omega
    refine (congrArg (fun y => streamFieldsOk y _) e).trans (fields_ok (u := 0x3FCFFFFFFFFFFFC#58) ?_)
    have z : (ofmt ++ rnd ++ 0#2 ++ atype ++ slot ++ lsel ++ doff ++ dstride ++ mscope ++ maxen ++ srsel ++ clr ++ 0#2) &&& (0#5 ++ 0#3 ++ BitVec.allOnes 2 ++ 0#2 ++ 0#3 ++ 0#2 ++ 0#16 ++ 0#16 ++ 0#3 ++ 0#1 ++ 0#2 ++ 0#1 ++ BitVec.allOnes 2) = 0#5 ++ 0#3 ++ 0#2 ++ 0#2 ++ 0#3 ++ 0#2 ++ 0#16 ++ 0#16 ++ 0#3 ++ 0#1 ++ 0#2 ++ 0#1 ++ 0#2 := by simp only [and_app, BitVec.and_zero, BitVec.zero_and]
    exact z
  · simp only [Instr.mdrain.injEq, DrainFields.mk.injEq]; refine ⟨?_, ?_, ?_, ?_, ?_, ?_, ?_, ?_, ?_, ?_, ?_⟩ <;> (apply BitVec.eq_of_toNat_eq; rw [toNat_ext]; simp only [toNat_app, BitVec.toNat_ofNat]; omega)
theorem marrb (n : BitVec 4) : Statement (.marrb n) := by
  have key : ∀ w : DWord, w.extractLsb' 58 6 = 5#6 → streamFieldsOk w 0x3C0000000000000 = true → decodeStream w =
      .marrb (w.extractLsb' 54 4) := by
    intro w hx hs
    simpa [decodeStream, hx] using hs
  have h0 := n.isLt
  refine stream rfl rfl ((key _ ?_ ?_).trans ?_)
  · apply BitVec.eq_of_toNat_eq; rw [toNat_ext]; simp only [toNat_app, BitVec.toNat_ofNat]; omega
  · have e : (5#6 ++ n ++ 0#54 : DWord) = 5#6 ++ (n ++ 0#54 : BitVec 58) := by
      apply BitVec.eq_of_toNat_eq; simp only [toNat_app, BitVec.toNat_ofNat]; omega
    refine (congrArg (fun y => streamFieldsOk y _) e).trans (fields_ok (u := 0x3C0000000000000#58) ?_)
    have z : (n ++ 0#54) &&& (0#4 ++ BitVec.allOnes 54) = 0#4 ++ 0#54 := by simp only [and_app, BitVec.and_zero, BitVec.zero_and]
    exact z
  · congr 1
    apply BitVec.eq_of_toNat_eq; rw [toNat_ext]; simp only [toNat_app, BitVec.toNat_ofNat]; omega
theorem mwaitb (n : BitVec 4) : Statement (.mwaitb n) := by
  have key : ∀ w : DWord, w.extractLsb' 58 6 = 6#6 → streamFieldsOk w 0x3C0000000000000 = true → decodeStream w =
      .mwaitb (w.extractLsb' 54 4) := by
    intro w hx hs
    simpa [decodeStream, hx] using hs
  have h0 := n.isLt
  refine stream rfl rfl ((key _ ?_ ?_).trans ?_)
  · apply BitVec.eq_of_toNat_eq; rw [toNat_ext]; simp only [toNat_app, BitVec.toNat_ofNat]; omega
  · have e : (6#6 ++ n ++ 0#54 : DWord) = 6#6 ++ (n ++ 0#54 : BitVec 58) := by
      apply BitVec.eq_of_toNat_eq; simp only [toNat_app, BitVec.toNat_ofNat]; omega
    refine (congrArg (fun y => streamFieldsOk y _) e).trans (fields_ok (u := 0x3C0000000000000#58) ?_)
    have z : (n ++ 0#54) &&& (0#4 ++ BitVec.allOnes 54) = 0#4 ++ 0#54 := by simp only [and_app, BitVec.and_zero, BitVec.zero_and]
    exact z
  · congr 1
    apply BitVec.eq_of_toNat_eq; rw [toNat_ext]; simp only [toNat_app, BitVec.toNat_ofNat]; omega
theorem mloop (count : BitVec 16) (body : BitVec 10) : Statement (.mloop count body) := by
  have key : ∀ w : DWord, w.extractLsb' 58 6 = 7#6 → streamFieldsOk w 0x3FFFFFF00000000 = true → decodeStream w =
      .mloop (w.extractLsb' 42 16) (w.extractLsb' 32 10) := by
    intro w hx hs
    simpa [decodeStream, hx] using hs
  have h0 := count.isLt
  have h1 := body.isLt
  refine stream rfl rfl ((key _ ?_ ?_).trans ?_)
  · apply BitVec.eq_of_toNat_eq; rw [toNat_ext]; simp only [toNat_app, BitVec.toNat_ofNat]; omega
  · have e : (7#6 ++ count ++ body ++ 0#32 : DWord) = 7#6 ++ (count ++ body ++ 0#32 : BitVec 58) := by
      apply BitVec.eq_of_toNat_eq; simp only [toNat_app, BitVec.toNat_ofNat]; omega
    refine (congrArg (fun y => streamFieldsOk y _) e).trans (fields_ok (u := 0x3FFFFFF00000000#58) ?_)
    have z : (count ++ body ++ 0#32) &&& (0#16 ++ 0#10 ++ BitVec.allOnes 32) = 0#16 ++ 0#10 ++ 0#32 := by simp only [and_app, BitVec.and_zero, BitVec.zero_and]
    exact z
  · congr 1 <;> (apply BitVec.eq_of_toNat_eq; rw [toNat_ext]; simp only [toNat_app, BitVec.toNat_ofNat]; omega)
theorem mscale (scl : BitVec 8) (atype : BitVec 2) (slot : BitVec 3) : Statement (.mscale scl atype slot) := by
  have key : ∀ w : DWord, w.extractLsb' 58 6 = 8#6 → streamFieldsOk w 0x3FCF80000000000 = true → decodeStream w =
      .mscale (w.extractLsb' 50 8) (w.extractLsb' 46 2) (w.extractLsb' 43 3) := by
    intro w hx hs
    simpa [decodeStream, hx] using hs
  have h0 := scl.isLt
  have h1 := atype.isLt
  have h2 := slot.isLt
  refine stream rfl rfl ((key _ ?_ ?_).trans ?_)
  · apply BitVec.eq_of_toNat_eq; rw [toNat_ext]; simp only [toNat_app, BitVec.toNat_ofNat]; omega
  · have e : (8#6 ++ scl ++ 0#2 ++ atype ++ slot ++ 0#43 : DWord) = 8#6 ++ (scl ++ 0#2 ++ atype ++ slot ++ 0#43 : BitVec 58) := by
      apply BitVec.eq_of_toNat_eq; simp only [toNat_app, BitVec.toNat_ofNat]; omega
    refine (congrArg (fun y => streamFieldsOk y _) e).trans (fields_ok (u := 0x3FCF80000000000#58) ?_)
    have z : (scl ++ 0#2 ++ atype ++ slot ++ 0#43) &&& (0#8 ++ BitVec.allOnes 2 ++ 0#2 ++ 0#3 ++ BitVec.allOnes 43) = 0#8 ++ 0#2 ++ 0#2 ++ 0#3 ++ 0#43 := by simp only [and_app, BitVec.and_zero, BitVec.zero_and]
    exact z
  · congr 1 <;> (apply BitVec.eq_of_toNat_eq; rw [toNat_ext]; simp only [toNat_app, BitVec.toNat_ofNat]; omega)
theorem mend : Statement .mend := by
  have key : ∀ w : DWord, w.extractLsb' 58 6 = 9#6 → streamFieldsOk w 0 = true → decodeStream w =
      .mend := by
    intro w hx hs
    simpa [decodeStream, hx] using hs
  refine stream rfl rfl ((key _ ?_ ?_))
  · rfl
  · rfl
theorem maccRdStream (slot : BitVec 3) (off : BitVec 16) : Statement (.maccRdStream slot off) := by
  have key : ∀ w : DWord, w.extractLsb' 58 6 = 10#6 → streamFieldsOk w 0x39FFFE000000 = true → decodeStream w =
      .maccRdStream (w.extractLsb' 43 3) (w.extractLsb' 25 16) := by
    intro w hx hs
    simpa [decodeStream, hx] using hs
  have h0 := slot.isLt
  have h1 := off.isLt
  refine stream rfl rfl ((key _ ?_ ?_).trans ?_)
  · apply BitVec.eq_of_toNat_eq; rw [toNat_ext]; simp only [toNat_app, BitVec.toNat_ofNat]; omega
  · have e : (10#6 ++ 0#12 ++ slot ++ 0#2 ++ off ++ 0#25 : DWord) = 10#6 ++ (0#12 ++ slot ++ 0#2 ++ off ++ 0#25 : BitVec 58) := by
      apply BitVec.eq_of_toNat_eq; simp only [toNat_app, BitVec.toNat_ofNat]; omega
    refine (congrArg (fun y => streamFieldsOk y _) e).trans (fields_ok (u := 0x39FFFE000000#58) ?_)
    have z : (0#12 ++ slot ++ 0#2 ++ off ++ 0#25) &&& (BitVec.allOnes 12 ++ 0#3 ++ BitVec.allOnes 2 ++ 0#16 ++ BitVec.allOnes 25) = 0#12 ++ 0#3 ++ 0#2 ++ 0#16 ++ 0#25 := by simp only [and_app, BitVec.and_zero, BitVec.zero_and]
    exact z
  · congr 1 <;> (apply BitVec.eq_of_toNat_eq; rw [toNat_ext]; simp only [toNat_app, BitVec.toNat_ofNat]; omega)
theorem maccWrStream (slot : BitVec 3) (off : BitVec 16) : Statement (.maccWrStream slot off) := by
  have key : ∀ w : DWord, w.extractLsb' 58 6 = 11#6 → streamFieldsOk w 0x39FFFE000000 = true → decodeStream w =
      .maccWrStream (w.extractLsb' 43 3) (w.extractLsb' 25 16) := by
    intro w hx hs
    simpa [decodeStream, hx] using hs
  have h0 := slot.isLt
  have h1 := off.isLt
  refine stream rfl rfl ((key _ ?_ ?_).trans ?_)
  · apply BitVec.eq_of_toNat_eq; rw [toNat_ext]; simp only [toNat_app, BitVec.toNat_ofNat]; omega
  · have e : (11#6 ++ 0#12 ++ slot ++ 0#2 ++ off ++ 0#25 : DWord) = 11#6 ++ (0#12 ++ slot ++ 0#2 ++ off ++ 0#25 : BitVec 58) := by
      apply BitVec.eq_of_toNat_eq; simp only [toNat_app, BitVec.toNat_ofNat]; omega
    refine (congrArg (fun y => streamFieldsOk y _) e).trans (fields_ok (u := 0x39FFFE000000#58) ?_)
    have z : (0#12 ++ slot ++ 0#2 ++ off ++ 0#25) &&& (BitVec.allOnes 12 ++ 0#3 ++ BitVec.allOnes 2 ++ 0#16 ++ BitVec.allOnes 25) = 0#12 ++ 0#3 ++ 0#2 ++ 0#16 ++ 0#25 := by simp only [and_app, BitVec.and_zero, BitVec.zero_and]
    exact z
  · congr 1 <;> (apply BitVec.eq_of_toNat_eq; rw [toNat_ext]; simp only [toNat_app, BitVec.toNat_ofNat]; omega)
theorem exitArrival (t g f : Nat) : Statement (.exitArrival t g f) := other rfl rfl
theorem fragmentAgeing (t g f : Nat) : Statement (.fragmentAgeing t g f) := other rfl rfl
theorem hang (t g : Nat) : Statement (.hang t g) := other rfl rfl
theorem inFlightFinish (t g op : Nat) (lanes : Mask) (keepL1 : Bool) : Statement (.inFlightFinish t g op lanes keepL1) := other rfl rfl
theorem reslice (t : Nat) : Statement (.reslice t) := other rfl rfl
theorem taskBoundary (t : Nat) : Statement (.taskBoundary t) := other rfl rfl
theorem teamEnd (t : Nat) : Statement (.teamEnd t) := other rfl rfl
theorem teamPlacement (grid : Nat) : Statement (.teamPlacement grid) := other rfl rfl
theorem trapReport (t : Nat) (src : TrapSource) : Statement (.trapReport t src) := other rfl rfl
theorem reportRingWrite (fn : Fn) : Statement (.reportRingWrite fn) := other rfl rfl
theorem pageWalk (core ctx va : Nat) (acc : AccessKind) : Statement (.pageWalk core ctx va acc) := other rfl rfl
theorem taskRollback (t : Nat) : Statement (.taskRollback t) := other rfl rfl
theorem telltaleMismatch (t : Nat) (m : Mismatch) : Statement (.telltaleMismatch t m) := other rfl rfl
theorem cardAcceptance : Statement .cardAcceptance := other rfl rfl
theorem cardDispatch : Statement .cardDispatch := other rfl rfl
theorem cardCompletion (card : Nat) : Statement (.cardCompletion card) := other rfl rfl
theorem quaySendArrival (port tag : Nat) (bytes : List Byte) : Statement (.quaySendArrival port tag bytes) := other rfl rfl
theorem quayLinkDown (port : Nat) : Statement (.quayLinkDown port) := other rfl rfl
theorem graphStart (p : Nat) : Statement (.graphStart p) := other rfl rfl
theorem graphNode (p : Nat) : Statement (.graphNode p) := other rfl rfl
theorem berthDecision (b : Nat) : Statement (.berthDecision b) := other rfl rfl
theorem commandAcceptance (src : CmdSource) : Statement (.commandAcceptance src) := other rfl rfl
theorem commandCompletion (c : Nat) : Statement (.commandCompletion c) := other rfl rfl
theorem launch (c : Nat) : Statement (.launch c) := other rfl rfl
theorem syslaunch (c : Nat) : Statement (.syslaunch c) := other rfl rfl
theorem copy (c : Nat) : Statement (.copy c) := other rfl rfl
theorem ctxnew (c : Nat) : Statement (.ctxnew c) := other rfl rfl
theorem ctxdel (c : Nat) : Statement (.ctxdel c) := other rfl rfl
theorem mapcode (c : Nat) : Statement (.mapcode c) := other rfl rfl
theorem tlbinvCommand (c : Nat) : Statement (.tlbinvCommand c) := other rfl rfl
theorem resumeRetry (c : Nat) : Statement (.resumeRetry c) := other rfl rfl
theorem resumeSkip (c : Nat) : Statement (.resumeSkip c) := other rfl rfl
theorem resumeKill (c : Nat) : Statement (.resumeKill c) := other rfl rfl
theorem grload (c : Nat) : Statement (.grload c) := other rfl rfl
theorem grstart (c : Nat) : Statement (.grstart c) := other rfl rfl
theorem debugCommand (c : Nat) : Statement (.debugCommand c) := other rfl rfl
theorem signal (c : Nat) : Statement (.signal c) := other rfl rfl
theorem preemptVacate (c : Nat) : Statement (.preemptVacate c) := other rfl rfl
theorem preemptResize (c : Nat) : Statement (.preemptResize c) := other rfl rfl
theorem preemptReleaseHold (c : Nat) : Statement (.preemptReleaseHold c) := other rfl rfl
theorem s2resumeRetry (c : Nat) : Statement (.s2resumeRetry c) := other rfl rfl
theorem s2resumeSkip (c : Nat) : Statement (.s2resumeSkip c) := other rfl rfl
theorem s2resumeKill (c : Nat) : Statement (.s2resumeKill c) := other rfl rfl
theorem s2inv (c : Nat) : Statement (.s2inv c) := other rfl rfl
theorem preemptGraceExpiry (t g : Nat) : Statement (.preemptGraceExpiry t g) := other rfl rfl
theorem contextSave (part : Nat) : Statement (.contextSave part) := other rfl rfl
theorem teamResume (t : Nat) : Statement (.teamResume t) := other rfl rfl
theorem l2Window (bank : Nat) : Statement (.l2Window bank) := other rfl rfl
theorem railRaiseSettled (rail : Nat) : Statement (.railRaiseSettled rail) := other rfl rfl
theorem railLowerHoldExpiry (rail : Nat) : Statement (.railLowerHoldExpiry rail) := other rfl rfl
theorem thermalStep (cluster : Nat) (celsius : Int) : Statement (.thermalStep cluster celsius) := other rfl rfl
theorem thermalShutdown (cluster : Nat) : Statement (.thermalShutdown cluster) := other rfl rfl
theorem brownout : Statement .brownout := other rfl rfl
theorem powerUp : Statement .powerUp := other rfl rfl
theorem pfFlr : Statement .pfFlr := other rfl rfl
theorem vfFlr (v : Nat) : Statement (.vfFlr v) := other rfl rfl
theorem partitionStart (p : Nat) : Statement (.partitionStart p) := other rfl rfl
theorem kick (fn : Fn) (v : Word) : Statement (.kick fn v) := other rfl rfl
theorem hmWallHi (v : Word) : Statement (.hmWallHi v) := other rfl rfl
theorem val (v : Word) : Statement (.val v) := other rfl rfl
theorem hmInjCtl (v : Word) : Statement (.hmInjCtl v) := other rfl rfl
theorem tenantBlockWrite (t off : Nat) (v : Word) : Statement (.tenantBlockWrite t off v) := other rfl rfl
theorem partitionBlockWrite (p off : Nat) (v : Word) : Statement (.partitionBlockWrite p off v) := other rfl rfl
theorem quayPortWrite (q : Nat) (v : Word) : Statement (.quayPortWrite q v) := other rfl rfl
theorem repbase (fn : Fn) (hi : Bool) (v : Word) : Statement (.repbase fn hi v) := other rfl rfl
theorem rephead (fn : Fn) (v : Word) : Statement (.rephead fn v) := other rfl rfl
theorem registerWrite (fn : Fn) (off : Nat) (v : Word) : Statement (.registerWrite fn off v) := other rfl rfl
theorem quayLinkUp (port : Nat) : Statement (.quayLinkUp port) := other rfl rfl
theorem chargeRecordUpdate (cluster : Nat) : Statement (.chargeRecordUpdate cluster) := other rfl rfl
theorem debuggerAttach (ctx : Nat) (attached : Bool) : Statement (.debuggerAttach ctx attached) := other rfl rfl

end Sys2Proof.Laws.RoundTrip
end

