-- ==== Sys2Proof/Safety.lean ====
section
/-!
DEFINITION. The terms in which claims about the machine are stated: an issue that nothing hinders, the state as an issue counts it, what an
instruction leaves alone, and the invariants.
-/
namespace Sys2Proof.Machine

/-! ### An issue that nothing hinders -/

/-- The state as an issue of the instruction reads it: the windows that are due are delivered (R49, R51). -/
def State.atIssue (s : State) (i : Instr) (c : Cur) : State :=
  { (s.modTeam c.team (fun t => t.deliverWhere c.g c.f (Window.due i.closesWindows))) with cur := s.cur }

/-- `q` issues `i` in `s`, and none of the checks that R337 puts before an instruction's own stands in the way: no comparator matches the
pc, the form is legal under the role's budget, its operands do not overlap, none that it reads holds an uncorrectable error, and no register it
writes (`ts`) meets an open window. -/
structure IssuesTo (i : Instr) (ts : List Target) (s : State) (q : Iss) : Prop where
  form : i.form = some q.fm
  issuer : (s.issuer q.fm).map Iss.c = some q.c
  reads : (s.atIssue i q.c).issuer q.fm = some q
  noBreakpoint : q.pcMatch = none
  legal : q.fm.ok (q.t.hdr.budget q.g.role) = true
  apart : q.fm.overlaps = false
  sound : q.regError = none
  closed : lkhdHit q.g q.f q.c.f (q.t.hdr.reserveSpan q.g.role).1 (q.t.hdr.reserveSpan q.g.role).2 ts = false

/-- `q` issues `i` in `s` unhindered, the registers it writes being those of its form. -/
def Issues (i : Instr) (s : State) (q : Iss) : Prop := IssuesTo i q.fm.targets s q

/-- The issue as its effect sees it: counted in (R49, R53, R200, R202, R230), the pc past the instruction (R30). -/
def Iss.counted (q : Iss) : Iss :=
  match q.account.issuer q.fm with
  | some q1 => { q1 with s := { q.account with cur := none }, ex := q.ex }
  | none => q

/-- The state as the effect of a JURYRIG fate sees it: the emulated instruction is counted only at EMRET (R49, R230, R352). -/
def Iss.countedFate (q : Iss) : Iss :=
  match q.accountFate.issuer q.fm with
  | some q1 => { q1 with s := { q.accountFate with cur := none }, ex := q.ex }
  | none => q

/-- The state after the issuer took a trap: nothing of its instruction happened (R336). -/
def Iss.trapped (q : Iss) (tr : Trap) : State := ({ q.s with cur := none } : State).takeTrap q.c.team tr

/-- The state after the issuer was held back: it waits, and issues again (R224, R245). -/
def Iss.heldBack (q : Iss) (w : Wait) : State :=
  ({ q.s with cur := none } : State).modTeam q.c.team (fun t => t.modGroup q.c.g (fun g => g.modFrag q.c.f (fun f => { f with wait := w })))

/-- The state after a short-latency result of `n` words that raises flags (R36, R41, R122, R161). -/
def Iss.wrote (q : Iss) (n : Nat) (val : Nat → List Word) (fl : Nat) : State :=
  q.counted.modTeam (fun _ => (q.counted.laneResult n val).raise q.c.g fl)

/-! ### A stream word that issues -/

/-- The stream word as its effect sees it: charged, the team marked as issuing (R307, R332). -/
def SIss.counted (q : SIss) (charge : Nat) : SIss :=
  { q with s := (({ q.s with cur := none } : State).chargeStream q.t charge).modTeam q.c.team (fun t => { t with issued := true }) }

/-- The state after a stream word that completes: the sequencer goes on (R328). -/
def SIss.done (q : SIss) (s : State) : State := s.modTeam q.c.team (fun t => t.modStream (fun st => st.advance q.c.addr))

/-- The state after a stream word that waits, with no effect (R325). -/
def SIss.heldBack (q : SIss) (w : StreamSt) : State :=
  ({ q.s with cur := none } : State).modTeam q.c.team (fun t => t.modStream (fun st => { st with st := w }))

/-- The state after a stream word took a trap: nothing of it happened (R307, R336, R358). -/
def SIss.trapped (q : SIss) (tr : Trap) : State := ({ q.s with cur := none } : State).stopStream q.c.team tr

/-! ### What an instruction leaves alone -/

/-- A fragment without what an issue counts. -/
def Frag.lessCounts (f : Frag) : Frag := { f with pc := 0, count := 0, wins := [], skipCmp := none }

/-- A group without what an issue of its fragment counts, and without the model's own counter of identities. -/
def Group.lessCounts (g : Group) (fi : Nat) : Group :=
  { g with clock := 0, hang := 0, grace := none, nextId := 0, frags := listModify g.frags fi Frag.lessCounts }

/-- A team without what an issue counts: clock, hang and issue counts, open windows, the pc (R49, R200, R202, R230). -/
def Team.lessCounts (t : Team) (c : Cur) : Team := { t.modGroup c.g (fun g => g.lessCounts c.f) with issued := true }

/-- A team without its lanes. -/
def Team.lessLanes (t : Team) : Team := t.modBody (fun b => { b with lanes := [] })

/-- A state without its teams and without what an issue counts outside them: held pipes and ports, charge (R210, R215). -/
def State.lessTeams (s : State) : State :=
  { s with teams := [], cur := none,
           cores := s.cores.map (fun (k : Core) => { k with pipeBusy := [], portBusy := [] }),
           clusters := s.clusters.map (fun (k : Cluster) => { k with charge := 0 }) }

/-- Beside the issuing team nothing differs but what an issue counts: every byte of memory, every device register, engine, card, command,
core and cluster stands, and so does every other team. `t'` is the issuing team after it. -/
structure OnlyTeam (q : Iss) (t : State) (t' : Team) : Prop where
  memory : ∀ a, t.physByte a = q.s.physByte a
  device : t.lessTeams = q.s.lessTeams
  others : ∀ k, k ≠ q.c.team → t.team? k = q.s.team? k
  team : t.team? q.c.team = some t'

/-- A lane without its V, Q and L registers. -/
def Lane.lessRegs (ln : Lane) : Lane := { ln with v := [], q := [], l := [], ue := [] }

/-- What a short-latency lane result leaves alone: everything beside the team; of the team, everything but its lanes and the sticky flags
`fl`, which are ORed in (R161); in the lanes, every V and Q register but the destination's `regs`, lanes outside the fragment at all, and,
outside EXEC, the last-result file (R36, R41, R122). -/
def LaneFrame (q : Iss) (regs : List LReg) (fl : Nat) (t : State) : Prop :=
  ∃ t', OnlyTeam q t t'
    ∧ (t'.lessCounts q.c).lessLanes = ((q.t.raise q.c.g fl).lessCounts q.c).lessLanes
    ∧ ∀ lid, (t'.lane lid).lessRegs = (q.t.lane lid).lessRegs
      ∧ (lid ∉ (maskList q.f.mask).map q.lid → t'.lane lid = q.t.lane lid)
      ∧ (lid ∉ q.lanes.map q.lid → (t'.lane lid).l = (q.t.lane lid).l)
      ∧ (∀ n, LReg.v n ∉ regs → (t'.lane lid).v.get n = (q.t.lane lid).v.get n)
      ∧ (∀ n, LReg.q n ∉ regs → (t'.lane lid).q.get n = (q.t.lane lid).q.get n)

/-- What an instruction that only changes its group leaves alone: everything beside the team, every lane, every other group, and of the
group everything but what an issue counts and what `less` takes out of it. -/
def GroupFrame (q : Iss) (less : Group → Group) (t : State) : Prop :=
  ∃ t', OnlyTeam q t t' ∧ t'.body.lanes = q.t.body.lanes
    ∧ (t'.lessCounts q.c).modGroup q.c.g less = (q.t.lessCounts q.c).modGroup q.c.g less

/-- A group without its S registers. -/
def Group.lessS (g : Group) : Group := { g with s := [], ue := [] }

/-- The S registers of the issuing group after it, but for those of `regs`, hold what they held. -/
def keepsS (q : Iss) (regs : List Nat) (t : State) : Prop :=
  ∀ g', t.group? q.c.team q.c.g = some g' → ∀ n, n ∉ regs → g'.s.get n = q.g.s.get n

/-- A group without its mode register. -/
def Group.lessMr (g : Group) : Group := { g with mr := 0 }

/-- A group without its fragments, their entries and slots, and whether it has stopped. -/
def Group.lessFrags (g : Group) : Group := { g with frags := [], stopped := false }

/-! ### Invariants -/

/-- Both memories are in canonical form: addresses strictly rising, no listed zero. -/
def State.memWf (s : State) : Bool := s.mem.wf && s.hostMem.wf

/-- No cluster of a running part is clocked above what the voltage of its rail allows: a larger level is a slower clock (R427). -/
def State.clocksSafe (s : State) : Prop :=
  s.up = true → ∀ k (c : Cluster) (r : Rail), s.clusters[k]? = some c → s.rails[k / 4]? = some r → r.volt ≤ c.level

end Sys2Proof.Machine
end

