-- ==== Sys2Proof/Certificates/Slice0/Obligations.lean ====
section
/-!
DEFINITION. The statements for the provers. Each docstring says what is stated and which rules of the spec it rests on.
-/
open Sys2Proof Sys2Proof.Machine

/-- The integer instructions of R128 write fit of the exact result, element by element. In every state in which nothing hinders the issue
(Issues), IADD, ISUB, IMUL, IMAD, IMIN and IMAX answer a next state whose lanes of EXEC hold in d, for each element k, fit of x + y, x -
y, x * y, x * y + z, min and max of the exact element values; IMULH writes floor(x * y / 2^n) modulo 2^n; INEG and IABS write fit(-x) and
fit(|x|); ISEL writes x where the element of L0 before its shift is not zero, else y. Iss.result is the write of a lane result:
destination, last-result shift, zeros of MZ. Rests on R128. -/
def Obligations.IntegerElements : Prop :=
  ∀ (s : State) (q : Iss) (x : Ext) (d a b : Code),
    let n := etWidth q.etype
    let u := fun i k => elemVal q.etype (q.a i) k
    let v := fun i k => elemVal q.etype (q.b i) k
    let w := fun i k => elemVal q.etype (q.cVal i) k
    (∀ p ∈ ([(.iadd, fun x y _ => x + y), (.isub, fun x y _ => x - y), (.imul, fun x y _ => x * y), (.imad, fun x y z => x * y + z),
        (.imin, fun x y _ => min x y), (.imax, fun x y _ => max x y)] : List ((Ext → Code → Code → Code → Instr) × (Int → Int → Int → Int))),
      Issues (p.1 x d a b) s q →
        exec (p.1 x d a b) s = .next (q.counted.result (fun i => mapElems n (fun k => fit q.etype q.sat (p.2 (u i k) (v i k) (w i k))))))
    ∧ (Issues (.imulh x d a b) s q →
        exec (.imulh x d a b) s = .next (q.counted.result (fun i => mapElems n (fun k => intMod n ((u i k * v i k) / Int.ofNat (2 ^ n))))))
    ∧ (Issues (.ineg x d a) s q →
        exec (.ineg x d a) s = .next (q.counted.result (fun i => mapElems n (fun k => fit q.etype q.sat (-(u i k))))))
    ∧ (Issues (.iabs x d a) s q →
        exec (.iabs x d a) s = .next (q.counted.result (fun i => mapElems n (fun k => fit q.etype q.sat (Int.ofNat (u i k).natAbs)))))
    ∧ (Issues (.isel x d a b) s q →
        exec (.isel x d a b) s = .next (q.counted.result (fun i => mapElems n (fun k =>
          if elemNat n (q.rd (.l 0) i) k ≠ 0 then elemNat n (q.a i) k else elemNat n (q.b i) k))))

/-- IMADW, SAD and DOT4: results, and ILLEGAL at issue under the wrong element width. Under a 32-bit element type IMADW writes the 64-bit
result of a times b plus the pair c, clamped under SAT; under a 16- or 8-bit type it takes ILLEGAL with no effect. SAD writes c plus the
sum of the absolute element differences; DOT4 writes c plus the sum of the element products under a 16- or 8-bit type and takes ILLEGAL
under a 32-bit one. The state after the trap is the state before the issue with the trap taken. Rests on R129, R130, R336. -/
def Obligations.WideAndFoldedIntegers : Prop :=
  ∀ (s : State) (q : Iss) (x : Ext) (d a b : Code),
    (Issues (.imadw x d a b) s q → etWidth q.etype = 32 →
      exec (.imadw x d a b) s = .next (q.counted.result64 (fun i =>
        let val := fun (y : Word) => if etSigned q.etype then y.toInt else Int.ofNat y.toNat
        BitVec.ofNat 64 (fitN 64 (etSigned q.etype) q.sat
          (val (q.a i) * val (q.b i) + (if etSigned q.etype then (q.c64 i).toInt else Int.ofNat (q.c64 i).toNat))))))
    ∧ (Issues (.imadw x d a b) s q → etWidth q.etype ≠ 32 → exec (.imadw x d a b) s = .next (q.trapped (q.trap clsIllegal)))
    ∧ (Issues (.sad x d a b) s q →
      exec (.sad x d a b) s = .next (q.counted.result (fun i => BitVec.ofNat 32 (fitN 32 false q.sat
        (Int.ofNat (q.cVal i).toNat
          + sumElems q.etype (fun k => Int.ofNat (elemVal q.etype (q.a i) k - elemVal q.etype (q.b i) k).natAbs))))))
    ∧ (Issues (.dot4 x d a b) s q → etWidth q.etype ≠ 32 →
      exec (.dot4 x d a b) s = .next (q.counted.result (fun i => BitVec.ofNat 32 (fitN 32 (etSigned q.etype) q.sat
        ((if etSigned q.etype then (q.cVal i).toInt else Int.ofNat (q.cVal i).toNat)
          + sumElems q.etype (fun k => elemVal q.etype (q.a i) k * elemVal q.etype (q.b i) k))))))
    ∧ (Issues (.dot4 x d a b) s q → etWidth q.etype = 32 → exec (.dot4 x d a b) s = .next (q.trapped (q.trap clsIllegal)))

/-- ICMP, SHL, SHR, SAR and ROL element by element. ICMP writes 2^n - 1 in each element whose condition holds and 0 in the others. SHL, SHR
and ROL act on the unsigned element, SAR on the signed one; the amount s is element k of b; SHL and SHR give 0 for s >= n, SAR the sign
bits, ROL rotates by s mod n. Rests on R131, R133, R58. -/
def Obligations.CompareAndShiftElements : Prop :=
  ∀ (s : State) (q : Iss) (x : Ext) (c : BitVec 4) (d a b : Code),
    let n := etWidth q.etype
    let u := fun i k => elemNat n (q.a i) k
    let v := fun i k => elemNat n (q.b i) k
    (Issues (.icmp x c d a b) s q → exec (.icmp x c d a b) s =
      .next (q.counted.result (fun i => mapElems n (fun k => if intCond n c.toNat (u i k) (v i k) then 2 ^ n - 1 else 0))))
    ∧ (∀ p ∈ ([(.shl, fun x s => if n ≤ s then 0 else x * 2 ^ s % 2 ^ n), (.shr, fun x s => if n ≤ s then 0 else x / 2 ^ s),
        (.sar, fun x s => intMod n (sextNat n x / Int.ofNat (2 ^ (min s n)))),
        (.rol, fun x s => (x * 2 ^ (s % n) + x / 2 ^ (n - s % n)) % 2 ^ n)] : List ((Ext → Code → Code → Code → Instr) × (Nat → Nat → Nat))),
      Issues (p.1 x d a b) s q → exec (p.1 x d a b) s = .next (q.counted.result (fun i => mapElems n (fun k => p.2 (u i k) (v i k)))))

/-- POPC, CLZ, CTZ, BREV, BFE, BFI and BYTESEL, bit by bit. In every unhindered issue these answer a next state whose lanes of EXEC hold the
result r in d. POPC, CLZ, CTZ and BREV act element by element on patterns of n bits: the number of ones; the number of leading zeros and
of trailing zeros, n for a zero element; bit j of the result is bit n - 1 - j. BFE takes len bits from pos up, with the bits above 31 bit
31 of a under a signed type and 0 otherwise, and extends bit len - 1 under a signed type; it gives 0 for len = 0. BFI puts the low bits of
a at pos to pos + len - 1 of c, and drops those that pass bit 31. BYTESEL picks, fills, inverts and clears a byte for each of the four
selectors. Rests on R135, R136, R137. -/
def Obligations.BitFieldsAndBytes : Prop :=
  ∀ (s : State) (q : Iss) (x : Ext) (d a b : Code),
    let n := etWidth q.etype
    let writes := fun (i : Instr) (spec : Nat → Word → Prop) =>
      Issues i s q → ∃ r : Nat → Word, exec i s = .next (q.counted.result r) ∧ ∀ l ∈ q.lanes, spec l (r l)
    let each := fun (rule : Nat → Nat → Prop) (l : Nat) (r : Word) => ∀ k < 32 / n, rule (elemNat n (q.a l) k) (elemNat n r k)
    let pos := fun l => (q.b l).toNat % 256
    let len := fun l => min ((q.b l).toNat / 256 % 256) 32
    let bit := fun l i => if i ≤ 31 then (q.a l).getLsbD i else etSigned q.etype && (q.a l).getLsbD 31
    let byte := fun l k => if k < 4 then elemNat 8 (q.a l) k else elemNat 8 (q.cVal l) (k - 4)
    writes (.popc x d a) (each (fun u r => r = ((List.range n).filter (fun j => u.testBit j)).length))
    ∧ writes (.clz x d a) (each (fun u r => r ≤ n ∧ (∀ j < n, n - r ≤ j → u.testBit j = false) ∧ (r < n → u.testBit (n - 1 - r) = true)))
    ∧ writes (.ctz x d a) (each (fun u r => r ≤ n ∧ (∀ j < r, u.testBit j = false) ∧ (r < n → u.testBit r = true)))
    ∧ writes (.brev x d a) (each (fun u r => ∀ j < n, r.testBit j = u.testBit (n - 1 - j)))
    ∧ writes (.bfe x d a b) (fun l r => (len l = 0 → r = 0) ∧ (0 < len l → ∀ j < 32,
        r.getLsbD j = if j < len l then bit l (pos l + j) else etSigned q.etype && bit l (pos l + (len l - 1))))
    ∧ writes (.bfi x d a b) (fun l r => ∀ j < 32,
        r.getLsbD j = if pos l ≤ j ∧ j < pos l + len l then (q.a l).getLsbD (j - pos l) else (q.cVal l).getLsbD j)
    ∧ writes (.bytesel x d a b) (fun l r => ∀ m < 4,
        let sel := elemNat 8 (q.b l) m
        let v := byte l (sel % 8)
        let v := if sel.testBit 5 then (if v.testBit 7 then 255 else 0) else v
        let v := if sel.testBit 4 then 255 - v else v
        elemNat 8 r m = if sel.testBit 7 then 0 else v)

/-- MOV, S2V, V2S, MOVI and LDI. MOV and S2V copy the 32-bit pattern of a into d of each lane of EXEC. V2S writes the scalar register that d
names with a of the lane of EXEC with the lowest LANEIX, and writes nothing when EXEC is empty. MOVI writes the sign-extended immediate
shifted left by the a field, for shifts 0 to 31; a shift of 32 to 127 is no legal form. LDI writes the small constant in every element:
converted to the float type under the rounding mode (SR as RNE), or fitted to the integer type. Rests on R139, R140, R141, R86. -/
def Obligations.Moves : Prop :=
  ∀ (s : State) (q : Iss) (x : Ext) (l : Option Word) (p : Option Pfx) (d a sh : Code) (imm : BitVec 11),
    (Issues (.mov x d a) s q → exec (.mov x d a) s = .next (q.counted.result (fun i => q.a i)))
    ∧ (Issues (.s2v d a) s q → exec (.s2v d a) s = .next (q.counted.result (fun i => q.a i)))
    ∧ (Issues (.v2s l d a) s q → q.ex ≠ 0 → ∃ m, m ∈ q.lanes ∧ (∀ k ∈ q.lanes, m ≤ k)
        ∧ exec (.v2s l d a) s = .next (q.counted.modGroup (fun g => g.setS d.toNat (q.a m))))
    ∧ (Issues (.v2s l d a) s q → q.ex = 0 → exec (.v2s l d a) s = .next q.counted.s)
    ∧ (Issues (.movi p d sh imm) s q → sh.toNat < 32 ∧
        exec (.movi p d sh imm) s = .next (q.counted.result (fun _ => (imm.signExtend 32) <<< sh.toNat)))
    ∧ (Issues (.ldi p d imm) s q → exec (.ldi p d imm) s = .next (q.counted.result (fun _ =>
        mapElems (etWidth q.etype) (fun _ =>
          if etFloat q.etype then (intToF (etFmt q.etype) (if q.rnd = 5 then 0 else q.rnd) 0 false q.ftz imm.toInt).1
          else fit q.etype (mrSat q.g.mr) imm.toInt))))

/-- IDIV and IREM: on the V780 the handler is entered, on a part that enables major 0x06 the results of R143. On a part that enables major
0x06, IDIV and IREM answer the element-wise results of R143: all ones and x for a zero divisor, -2^(n-1) (or 2^(n-1) - 1 under SAT) and 0
for the one overflow, else the truncated quotient and remainder. On the V780, which enables no disabled major, with a handler that can be
entered and a fragment below depth 2, they enter the handler; the issue is counted without the clock. Rests on R143, R63, R61, R351, R352. -/
def Obligations.DivisionFate : Prop :=
  ∀ (s : State) (q : Iss) (x : Ext) (d a b : Code),
    let n := etWidth q.etype
    let u := fun i k => elemVal q.etype (q.a i) k
    let v := fun i k => elemVal q.etype (q.b i) k
    (Issues (.idiv x d a b) s q → s.skuOn 6 = true → exec (.idiv x d a b) s = .next (q.counted.result (fun i => mapElems n (fun k =>
      if v i k = 0 then 2 ^ n - 1
      else if etSigned q.etype = true ∧ u i k = -Int.ofNat (2 ^ (n - 1)) ∧ v i k = -1 then (if q.sat then 2 ^ (n - 1) - 1 else 2 ^ (n - 1))
      else intMod n (Int.tdiv (u i k) (v i k))))))
    ∧ (Issues (.irem x d a b) s q → s.skuOn 6 = true → exec (.irem x d a b) s = .next (q.counted.result (fun i => mapElems n (fun k =>
      if v i k = 0 then intMod n (u i k) else intMod n (Int.tmod (u i k) (v i k))))))
    ∧ (∀ mk ∈ ([.idiv, .irem] : List (Ext → Code → Code → Code → Instr)),
      IssuesTo (mk x d a b) [] s q → s.skuOn 6 = false → q.f.jr.length < 2 → handlerReady q.t q.g = true →
        exec (mk x d a b) s = .next (q.countedFate.modTeam (fun t => t.enterHandler q.c.g q.c.f q.ex
          (fun depth => windowWords q.c q.g.mr depth (q.ex == 0)) q.c.addr (q.c.addr + BitVec.ofNat 64 q.c.len) false)))

/-- The S-forms of majors 0x09: results of R145 and R146 in the destination register. For a destination S(n), every S-form answers a next
state in which S(n) of the group takes the result of R145, with shifts of 32 and more giving 0, SSEL selecting on the old value of d, and
SCMP writing all ones or zero under the condition of R58; a destination ZERO discards the result and only the issue is counted. They do so
whatever EXEC holds. Rests on R144, R145, R146, R58, R86. -/
def Obligations.ScalarForms : Prop :=
  ∀ (s : State) (q : Iss) (l : Option Word) (c : BitVec 4) (d a b : Code),
    let put := fun (x : Word) => match q.opD with
      | .s n => q.counted.modGroup (fun g => g.setS n x)
      | _ => q.counted.s
    (∀ p ∈ ([(.sadd, fun x y => x + y), (.ssub, fun x y => x - y), (.smul, fun x y => x * y),
        (.sshl, fun x y => if 32 ≤ y.toNat then 0 else x <<< y.toNat), (.sshr, fun x y => if 32 ≤ y.toNat then 0 else x >>> y.toNat),
        (.sand, fun x y => x &&& y), (.sor, fun x y => x ||| y), (.sxor, fun x y => x ^^^ y)] :
          List ((Option Word → Code → Code → Code → Instr) × (Word → Word → Word))),
      Issues (p.1 l d a b) s q → exec (p.1 l d a b) s = .next (put (p.2 (q.uni .a) (q.uni .b))))
    ∧ (Issues (.ssel l d a b) s q → exec (.ssel l d a b) s = .next (put (if q.uni .d ≠ 0 then q.uni .a else q.uni .b)))
    ∧ (Issues (.smov l d a) s q → exec (.smov l d a) s = .next (put (q.uni .a)))
    ∧ (Issues (.scmp l c d a b) s q → exec (.scmp l c d a b) s =
        .next (put (if intCond 32 c.toNat (q.uni .a).toNat (q.uni .b).toNat then BitVec.allOnes 32 else 0)))

/-- AND, OR, XOR, ANDN, NOT, SHF, LEA and AADD, whatever SAT and (but for the LEA scale) the element type. In every unhindered issue these
answer a next state: AND, OR, XOR, ANDN and NOT with the bitwise result of the 32-bit operands in d of each lane of EXEC; SHF with the low
32 bits of cat(b, a) >> c[5:0]; LEA and AADD with the 64-bit sum of the address pair (0 for ZERO) and the index in d and d+1, low word
first: LEA scales the index by 4, 2 or 1 for 32-, 16- and 8-bit types and reads it signed exactly when the type is, AADD adds it signed.
No element type, no SAT enters otherwise. Rests on R132, R134, R138. -/
def Obligations.PatternsFunnelsAddresses : Prop :=
  ∀ (s : State) (q : Iss) (x : Ext) (d a b : Code),
    (∀ p ∈ ([(.and, fun u v => u &&& v), (.or, fun u v => u ||| v), (.xor, fun u v => u ^^^ v), (.andn, fun u v => u &&& ~~~v)] :
        List ((Ext → Code → Code → Code → Instr) × (Word → Word → Word))),
      Issues (p.1 x d a b) s q → exec (p.1 x d a b) s = .next (q.counted.result (fun i => p.2 (q.a i) (q.b i))))
    ∧ (Issues (.not x d a) s q → exec (.not x d a) s = .next (q.counted.result (fun i => ~~~ q.a i)))
    ∧ (Issues (.shf x d a b) s q → exec (.shf x d a b) s = .next (q.counted.result (fun i =>
        ((q.b i ++ q.a i : BitVec 64) >>> ((q.cVal i).toNat % 64)).setWidth 32)))
    ∧ (Issues (.lea x d a b) s q → exec (.lea x d a b) s = .next (q.counted.result64 (fun i =>
        q.a64 i + BitVec.ofInt 64 ((if etSigned q.etype then (q.b i).toInt else Int.ofNat (q.b i).toNat)
          * (if etWidth q.etype = 32 then 4 else if etWidth q.etype = 16 then 2 else 1)))))
    ∧ (Issues (.aadd x d a b) s q → exec (.aadd x d a b) s = .next (q.counted.result64 (fun i => q.a64 i + (q.b i).signExtend 64)))

/-- LREAD.AT, BACK, FWD, FLIP and BCAST read a at another position of the group. In every unhindered issue these answer a next state whose
lanes of EXEC hold in d the value of a at the source position j, where position j holds a lane that exists in the group and has not left
by EXIT, and the lane's own value of a elsewhere. j is b, LANEIX - b, LANEIX + b, LANEIX XOR b with b read unsigned, and for BCAST the
uniform b. Values are those from before the instruction, whatever the lanes at j are doing. Rests on R105, R106. -/
def Obligations.LaneReads : Prop :=
  ∀ (s : State) (q : Iss) (x : Ext) (d a b : Code),
    let read := fun (i : Nat) (j : Int) =>
      if 0 ≤ j ∧ j < Int.ofNat q.g.count ∧ (q.t.lane (q.lid j.toNat)).exited = false then q.a j.toNat else q.a i
    (∀ p ∈ ([(.lreadAt, fun _ b => b), (.lreadBack, fun i b => i - b), (.lreadFwd, fun i b => i + b),
        (.lreadFlip, fun i b => Int.ofNat (i.toNat ^^^ b.toNat))] : List ((Ext → Code → Code → Code → Instr) × (Int → Int → Int))),
      Issues (p.1 x d a b) s q →
        exec (p.1 x d a b) s = .next (q.counted.result (fun i => read i (p.2 (Int.ofNat i) (Int.ofNat (q.b i).toNat)))))
    ∧ (Issues (.bcast x d a b) s q →
        exec (.bcast x d a b) s = .next (q.counted.result (fun i => read i (Int.ofNat (q.uni .b).toNat))))

/-- VOTE.ANY, VOTE.ALL and VOTE.BAL, to a lane result or, under MDST, to a triple. P is the set of lanes of EXEC whose a is not zero. Without
MDST, ANY writes 1 where P is not empty, ALL writes 1 where P is EXEC (an empty EXEC included), 0 otherwise; with MDST the triple d
becomes P for ANY and EXEC minus P for ALL. BAL writes word k of the 96-bit mask P for k = b < 3, else 0. Rests on R107. -/
def Obligations.Votes : Prop :=
  ∀ (s : State) (q : Iss) (x : Ext) (d a b : Code),
    let P : Mask := maskOfList (q.lanes.filter (fun i => q.a i != 0))
    (Issues (.voteAny x d a) s q → exec (.voteAny x d a) s = .next
      (if q.fm.p.mdst then q.counted.modGroup (fun g => g.setTriple d.toNat P)
       else q.counted.result (fun _ => if P = 0 then 0 else 1)))
    ∧ (Issues (.voteAll x d a) s q → exec (.voteAll x d a) s = .next
      (if q.fm.p.mdst then q.counted.modGroup (fun g => g.setTriple d.toNat (q.ex &&& ~~~ P))
       else q.counted.result (fun _ => if P = q.ex then 1 else 0)))
    ∧ (Issues (.voteBal x d a b) s q → exec (.voteBal x d a b) s = .next (q.counted.result (fun _ =>
      if (q.uni .b).toNat < 3 then (P >>> (32 * (q.uni .b).toNat)).setWidth 32 else 0)))

/-- What LANE, GRPID, GETW, ROLE, TEAMID, NTEAM, GRIDID, GETMODE, LCLK, CSRR and SEGRD read. In every unhindered issue these answer a next
state whose lanes of EXEC hold in d the lane's lid, the group's index, the grant word (grant, standing request, generation), the lane's
role, the team's index, the teams of its grid, the grid's serial, the mode register, a half of the group's clock as it stood before this
instruction, the CSR, and in the pair d, d+1 a segment's base or limit. Rests on R98, R99, R220, R221, R230, R253, R365. -/
def Obligations.LaneIdentity : Prop :=
  ∀ (s : State) (q : Iss) (d n : Code) (h lim : BitVec 1) (g : BitVec 3),
    let grid := s.grids.find? (fun r => r.id == q.t.grid)
    (∀ p ∈ ([(.lane, fun i => BitVec.ofNat 32 (q.lid i)), (.grpid, fun _ => BitVec.ofNat 32 q.c.g),
        (.getw, fun _ => BitVec.ofNat 32 (q.t.body.grant % 256 + 2 ^ 8 * (q.t.body.request % 256) + 2 ^ 16 * (q.t.body.gen % 2 ^ 16))),
        (.role, fun i => BitVec.ofNat 32 (q.t.lane (q.lid i)).role), (.teamid, fun _ => BitVec.ofNat 32 q.t.index),
        (.nteam, fun _ => BitVec.ofNat 32 ((grid.map (·.teams)).getD 0)), (.gridid, fun _ => (grid.map (·.serial)).getD 0),
        (.getmode, fun _ => q.g.mr)] : List ((Code → Instr) × (Nat → Word))),
      Issues (p.1 d) s q → exec (p.1 d) s = .next (q.counted.result p.2))
    ∧ (Issues (.lclk d h) s q → exec (.lclk d h) s =
        .next (q.counted.result (fun _ => if h = 1 then hi32 q.g.clock else lo32 q.g.clock)))
    ∧ (Issues (.csrr d n) s q → exec (.csrr d n) s = .next (q.counted.result (fun _ => q.csr n.toNat)))
    ∧ (Issues (.segrd d lim g) s q → exec (.segrd d lim g) s = .next (q.counted.result64 (fun _ =>
        if lim = 1 then BitVec.ofNat 64 (q.segOf g.toNat).limit else (q.segOf g.toNat).base)))

/-- RNG draws of the mixer, FLAGS reads and clears the sticky flags. RNG writes a word of the mixer at the lane's coordinate under an integer
type; under f32, f16x2 and bf16x2 it writes the value of the top 24, 11 and 8 bits as an exact fraction in [0, 1) per element. FLAGS
writes the sticky flags into the lanes of EXEC and clears those that a names; it does so with no lane in EXEC as well. Rests on R181,
R182, R160. -/
def Obligations.RandomAndFlags : Prop :=
  ∀ (s : State) (q : Iss) (x : Ext) (l : Option Word) (d a : Code),
    let w := bitsOf (q.uni .a) 1 0
    (Issues (.rng x d a) s q → 4 < q.etype ∨ q.etype < 2 → exec (.rng x d a) s = .next (q.counted.result (fun i => q.mixWord (8 * q.lid i) w)))
    ∧ (Issues (.rng x d a) s q → q.etype = 2 → exec (.rng x d a) s = .next (q.counted.result (fun i =>
        BitVec.ofNat 32 (fp32.round 0 0 false false false (bitsOf (q.mixWord (8 * q.lid i) w) 31 8) (-24)).1)))
    ∧ (Issues (.rng x d a) s q → q.etype = 3 → exec (.rng x d a) s = .next (q.counted.result (fun i =>
        packElems 3 ([0, 1].map (fun k => (fp16.round 0 0 false false false (bitsOf (q.mixWord (8 * q.lid i + k) w) 31 21) (-11)).1)))))
    ∧ (Issues (.rng x d a) s q → q.etype = 4 → exec (.rng x d a) s = .next (q.counted.result (fun i =>
        packElems 4 ([0, 1].map (fun k => (bf16.round 0 0 false false false (bitsOf (q.mixWord (8 * q.lid i + k) w) 31 24) (-8)).1)))))
    ∧ (Issues (.flags l d a) s q → exec (.flags l d a) s = .next (q.counted.modTeam (fun _ =>
        (q.counted.laneResult 1 (fun _ => BitVec.ofNat 32 (q.g.flags % 32) :: [])).modGroup q.c.g (fun g =>
          { g with flags := (q.g.flags % 32) &&& (31 - bitsOf (q.uni .a) 4 0) }))))

/-- SETW records a width request, SETMODE writes the selected fields of the mode register; both take ILLEGAL otherwise. SETW records a request
of 32, 64 or 96 in the group and changes nothing else; any other value, and any value in a COMPAT16 kernel, takes ILLEGAL. SETMODE
replaces the fields of MR that the mask selects by those of the image, which is the literal form's operand or the immediate; an image with
a reserved value in a selected field takes ILLEGAL. Rests on R47, R48, R91, R96, R219. -/
def Obligations.WidthAndMode : Prop :=
  ∀ (s : State) (q : Iss) (l : Option Word) (m a : Code) (imm : BitVec 11),
    let w := (q.uni .a).toNat
    let img := if a.toNat = 0x74 then imm.toNat else (q.rd (opndOf a) 0).toNat
    let sel := BitVec.ofNat 32 (setmodeSel m)
    (Issues (.setw l a) s q → q.t.hdr.compat16 = false → w = 32 ∨ w = 64 ∨ w = 96 →
      exec (.setw l a) s = .next (q.counted.modGroup (fun g => { g with widthReq := some w })))
    ∧ (Issues (.setw l a) s q → q.t.hdr.compat16 = true ∨ ¬(w = 32 ∨ w = 64 ∨ w = 96) → exec (.setw l a) s = .next (q.trapped (q.trap clsIllegal)))
    ∧ (Issues (.setmode l m a imm) s q → setmodeImageOk m img = true →
      exec (.setmode l m a imm) s = .next (q.counted.modGroup (fun g => { g with mr := (g.mr &&& ~~~ sel) ||| (BitVec.ofNat 32 img &&& sel) })))
    ∧ (Issues (.setmode l m a imm) s q → setmodeImageOk m img = false → exec (.setmode l m a imm) s = .next (q.trapped (q.trap clsIllegal)))

/-- FADD to FSCALE, FMIN to FMAX.num, FABS, FNEG, FCLASS, FRND and FCMP write the results of R167 to R170. Under a float type, where no flag
raised is enabled, each of these answers a next state whose lanes of EXEC hold the element results in d, and whose sticky flags have the
raised flags ORed in (Iss.wrote). FSUB adds the negated operand, FFMA rounds once, FABS and FNEG act on the sign bit alone and raise
nothing, FCMP writes all ones or zero. Rests on R161, R166, R167, R168, R169, R170. -/
def Obligations.FloatArithmetic : Prop :=
  ∀ (s : State) (q : Iss) (x : Ext) (c : BitVec 4) (d a b : Code), etFloat q.etype = true →
    let u := fun i k => q.fmt.input q.ftz (q.ea i k)
    let v := fun i k => q.fmt.input q.ftz (q.eb i k)
    let w := fun i k => q.fmt.input q.ftz (q.ec i k)
    let n := etWidth q.etype
    let writes := fun (i : Instr) (f : Nat → Nat → Nat × Nat) (ops : Nat → Nat → List Nat) =>
      let r := q.lanes.map (fun l => (l, (List.range (etCount q.etype)).map (fun k => (⟨(f l k).1, (f l k).2, ops l k⟩ : ElemRes))))
      Issues i s q → q.fpTrap r = none → exec i s =
        .next (q.wrote 1 (fun l => [packElems q.etype ((List.range (etCount q.etype)).map (fun k => (f l k).1))]) (allFlags r))
    let one := fun i k => [q.ea i k]
    let two := fun i k => [q.ea i k, q.eb i k]
    writes (.fadd x d a b) (fun i k => (q.rctx q.fmt i k).add (u i k) (v i k)) two
    ∧ writes (.fsub x d a b) (fun i k => (q.rctx q.fmt i k).add (u i k) (v i k).negate) two
    ∧ writes (.fmul x d a b) (fun i k => (q.rctx q.fmt i k).mul (u i k) (v i k)) two
    ∧ writes (.ffma x d a b) (fun i k => (q.rctx q.fmt i k).fma (u i k) (v i k) (w i k)) (fun i k => [q.ea i k, q.eb i k, q.ec i k])
    ∧ writes (.fscale x d a b) (fun i k => (q.rctx q.fmt i k).scale (u i k) (sextNat n (q.eb i k))) two
    ∧ writes (.frnd x d a) (fun i k => (q.rctx q.fmt i k).integral (u i k)) one
    ∧ writes (.fmin x d a b) (fun i k => fminmax q.fmt q.ftz false false (q.ea i k) (q.eb i k)) two
    ∧ writes (.fmax x d a b) (fun i k => fminmax q.fmt q.ftz true false (q.ea i k) (q.eb i k)) two
    ∧ writes (.fminNum x d a b) (fun i k => fminmax q.fmt q.ftz false true (q.ea i k) (q.eb i k)) two
    ∧ writes (.fmaxNum x d a b) (fun i k => fminmax q.fmt q.ftz true true (q.ea i k) (q.eb i k)) two
    ∧ writes (.fabs x d a) (fun i k => (q.ea i k % 2 ^ (n - 1), 0)) one
    ∧ writes (.fneg x d a) (fun i k => (q.ea i k ^^^ 2 ^ (n - 1), 0)) one
    ∧ writes (.fclass x d a) (fun i k => (fclassMask q.fmt (q.ea i k), 0)) one
    ∧ writes (.fcmp x c d a b) (fun i k => let r := fcond c.toNat (u i k) (v i k); (if r.1 then 2 ^ n - 1 else 0, r.2)) two

/-- A float instruction takes ILLEGAL under an integer type, and FP_TRAP where a raised flag is enabled. Under an integer type every
instruction of majors 0x10, 0x11 and 0x13 takes ILLEGAL at issue with no effect. Under a float type, where some element of a lane of EXEC
raises an enabled flag, the arithmetic, comparison and minimum instructions, the conversions on their legal pairs and the SFU functions
take FP_TRAP with no effect: the report names the first such lane and element with its operands and holds all flags of the instruction.
Reductions and scans, under any type, report the lowest lane of EXEC (R109); so does CSAMP, whose flags are those of its weights and sums,
and OF of an infinite total. The model's own choices (log 48): which sums raise flags, that the rounding of CSAMP's threshold raises none,
and the element reported where the lowest lane's own prefix raised nothing. FABS, FNEG, FCLASS and DQNT raise nothing and never trap so. A
CVT on a pair that R175 does not list, and PACK and UNPK under any but the 16-bit float types, take ILLEGAL. Rests on R109, R112, R162,
R166, R168, R170, R171, R175, R178, R179, R180, R336. -/
def Obligations.FloatTraps : Prop :=
  ∀ (s : State) (q : Iss) (x : Ext) (p : Option Pfx) (k c e : BitVec 4) (d a b : Code) (h : BitVec 1) (fmt : BitVec 5),
    let e16 := q.etype = 3 ∨ q.etype = 4
    let sat := mrSat q.g.mr
    let cnt := etCount q.etype
    let u := fun i k => q.fmt.input q.ftz (q.ea i k)
    let v := fun i k => q.fmt.input q.ftz (q.eb i k)
    let illegal := fun (i : Instr) => Issues i s q → exec i s = .next (q.trapped (q.trap clsIllegal))
    let report := fun (named e fl : Nat) (ops : List Word) => q.trapped { q.trapAt clsFp named with elem := e, flags := fl, words := ops }
    let traps := fun (i : Instr) (n : Nat) (named : Nat → Nat) (f : Nat → Nat → Nat × Nat) (ops : Nat → Nat → List Nat) =>
      let r := q.lanes.map (fun l => (l, (List.range n).map (fun e => (⟨(f l e).1, (f l e).2, ops l e⟩ : ElemRes))))
      ∀ l e r0, Issues i s q → firstEnabled (mrExcen q.g.mr) r = some (l, e, r0) →
        exec i s = .next (report (named l) e (allFlags r) ((r0.ops.map (BitVec.ofNat 32) ++ [0, 0, 0]).take 3))
    let one := fun i k => [q.ea i k]
    let two := fun i k => [q.ea i k, q.eb i k]
    let whole := fun i (_ : Nat) => [(q.a i).toNat]
    (etFloat q.etype = false → ∀ i ∈ [.fadd x d a b, .fsub x d a b, .fmul x d a b, .ffma x d a b, .fscale x d a b, .frnd x d a, .fmin x d a b,
        .fmax x d a b, .fminNum x d a b, .fmaxNum x d a b, .fabs x d a, .fneg x d a, .fclass x d a, .fcmp x c d a b, .rcp p k d a, .rsq p k d a,
        .sqrt p k d a, .ex2 p k d a, .lg2 p k d a, .sinpi p k d a, .cospi p k d a, .tanh p k d a, .sigm p k d a], illegal i)
    ∧ (etFloat q.etype = true → ∀ z ∈ ([(.fadd x d a b, fun i k => (q.rctx q.fmt i k).add (u i k) (v i k)),
        (.fsub x d a b, fun i k => (q.rctx q.fmt i k).add (u i k) (v i k).negate), (.fmul x d a b, fun i k => (q.rctx q.fmt i k).mul (u i k) (v i k)),
        (.fscale x d a b, fun i k => (q.rctx q.fmt i k).scale (u i k) (sextNat (etWidth q.etype) (q.eb i k))),
        (.fmin x d a b, fun i k => fminmax q.fmt q.ftz false false (q.ea i k) (q.eb i k)),
        (.fmax x d a b, fun i k => fminmax q.fmt q.ftz true false (q.ea i k) (q.eb i k)),
        (.fminNum x d a b, fun i k => fminmax q.fmt q.ftz false true (q.ea i k) (q.eb i k)),
        (.fmaxNum x d a b, fun i k => fminmax q.fmt q.ftz true true (q.ea i k) (q.eb i k)),
        (.fcmp x c d a b, fun i k => let r := fcond c.toNat (u i k) (v i k); (if r.1 then 2 ^ etWidth q.etype - 1 else 0, r.2))] :
          List (Instr × (Nat → Nat → Nat × Nat))), traps z.1 cnt id z.2 two)
    ∧ (etFloat q.etype = true →
        traps (.ffma x d a b) cnt id (fun i k => (q.rctx q.fmt i k).fma (u i k) (v i k) (q.fmt.input q.ftz (q.ec i k))) (fun i k => [q.ea i k, q.eb i k, q.ec i k])
        ∧ traps (.frnd x d a) cnt id (fun i k => (q.rctx q.fmt i k).integral (u i k)) one)
    ∧ (etFloat q.etype = true → ∀ z ∈ ([(.rcp, 0), (.rsq, 1), (.sqrt, 2), (.ex2, 3), (.lg2, 4), (.sinpi, 5), (.cospi, 6), (.tanh, 7), (.sigm, 8)] :
        List ((Option Pfx → BitVec 4 → Code → Code → Instr) × Nat)), traps (z.1 p k d a) cnt id (fun i e => sfuElem z.2 q.fmt q.ftz (q.ea i e)) one)
    ∧ (∀ z ∈ ([(.redAdd, 0, false), (.redMin, 1, false), (.redMax, 2, false), (.scanAdd, 0, true), (.scanMax, 2, true)] :
        List ((Option Pfx → BitVec 4 → Code → Code → Instr) × Nat × Bool)),
      traps (z.1 p k d a) cnt (fun _ => q.lanes.headD 0) (fun i e => q.redElem z.2.2 (redOp z.2.1 q.etype sat q.ftz q.redMode) (fun j => q.ea j e) i) one)
    ∧ (∀ m last, q.lanes.head? = some m → q.lanes.getLast? = some last →
      let tot := fun i => q.redElem true (redOp 0 2 false q.ftz 0) (fun j => (csampWeight q.ftz (q.a j)).1) i
      let fl := q.lanes.foldl (fun f i => f ||| (csampWeight q.ftz (q.a i)).2 ||| (tot i).2) 0 ||| flagIf ((tot last).1 == fp32.infPat) flOF
      Issues (.csamp p k d a) s q → fl &&& mrExcen q.g.mr ≠ 0 → exec (.csamp p k d a) s = .next (report m 0 fl [q.a m, 0, 0]))
    ∧ ((q.etype = 2 ∧ e.toNat < 2) ∨ (e16 ∧ (e = 5 ∨ e = 6)) →
      traps (.cvtF2i x d a e) cnt id (fun i k => fToInt (etWidth e.toNat) (etSigned e.toNat) q.rnd (q.rv i k) sat (u i k)) one)
    ∧ (¬((q.etype = 2 ∧ e.toNat < 2) ∨ (e16 ∧ (e = 5 ∨ e = 6))) → illegal (.cvtF2i x d a e))
    ∧ ((q.etype < 2 ∧ e = 2) ∨ ((q.etype = 5 ∨ q.etype = 6) ∧ (e = 3 ∨ e = 4)) →
      traps (.cvtI2f x d a e) cnt id (fun i k => intToF (etFmt e.toNat) q.rnd (q.rv i k) sat q.ftz (elemVal q.etype (q.a i) k)) one)
    ∧ (¬((q.etype < 2 ∧ e = 2) ∨ ((q.etype = 5 ∨ q.etype = 6) ∧ (e = 3 ∨ e = 4))) → illegal (.cvtI2f x d a e))
    ∧ (q.etype = 2 → e = 3 ∨ e = 4 → traps (.cvtF2f x d a h e) 1 id
      (fun i _ => fconvert (etFmt e.toNat) q.rnd (q.rv i h.toNat) sat q.ftz (fp32.input q.ftz (q.a i).toNat)) whole)
    ∧ (e16 → e = 2 → traps (.cvtF2f x d a h e) 1 id (fun i _ => fconvert fp32 q.rnd (q.rv i 0) sat q.ftz (u i h.toNat)) (fun i _ => [q.ea i h.toNat]))
    ∧ ((q.etype = 3 ∧ e = 4) ∨ (q.etype = 4 ∧ e = 3) → h = 0 →
      traps (.cvtF2f x d a h e) 2 id (fun i k => fconvert (etFmt e.toNat) q.rnd (q.rv i k) sat q.ftz (u i k)) one)
    ∧ (¬((q.etype = 2 ∧ (e = 3 ∨ e = 4)) ∨ (e16 ∧ e = 2) ∨ (((q.etype = 3 ∧ e = 4) ∨ (q.etype = 4 ∧ e = 3)) ∧ h = 0)) → illegal (.cvtF2f x d a h e))
    ∧ traps (.qnt x d a fmt) 1 id (fun i _ => qnt fmt.toNat q.rnd (q.rv i 0) sat q.ftz (q.a i).toNat) whole
    ∧ traps (.mxsc x d a fmt) 1 id (fun i _ => mxscCode fmt.toNat (fp32.input q.ftz (q.a i).toNat)) whole
    ∧ (e16 → traps (.pack x d a b) 2 id (fun i k => fconvert q.fmt q.rnd (q.rv i k) sat q.ftz (fp32.input q.ftz (if k = 0 then q.a i else q.b i).toNat))
        (fun i _ => [(q.a i).toNat, (q.b i).toNat])
      ∧ traps (.unpk x d a) 2 id (fun i k => (toFp32 (u i k), if (u i k).snan then flIV else 0)) one)
    ∧ (¬e16 → illegal (.pack x d a b) ∧ illegal (.unpk x d a))

/-- CVT.F2I, CVT.I2F, CVT.F2F, QNT, DQNT, MXSC, PACK and UNPK on their legal pairs of types. On every legal pair of types, where no flag
raised is enabled, the conversions answer a next state with the converted elements in d and the raised flags ORed in. CVT.F2F into one
half keeps the other half of d, PACK puts a into the low half, UNPK writes the low half into d and the high half into d+1, DQNT raises no
flag and cannot trap. Rests on R175, R176, R177, R178, R179, R180. -/
def Obligations.Conversions : Prop :=
  ∀ (s : State) (q : Iss) (x : Ext) (d a b : Code) (h : BitVec 1) (e : BitVec 4) (fmt : BitVec 5),
    let e16 := q.etype = 3 ∨ q.etype = 4
    let sat := mrSat q.g.mr
    let wide := fun i k => q.fmt.input q.ftz (q.ea i k)
    let writes := fun (i : Instr) (n cnt : Nat) (words : Nat → List Nat → List Word) (f : Nat → Nat → Nat × Nat) (ops : Nat → Nat → List Nat) =>
      let r := q.lanes.map (fun l => (l, (List.range cnt).map (fun k => (⟨(f l k).1, (f l k).2, ops l k⟩ : ElemRes))))
      Issues i s q → q.fpTrap r = none → exec i s =
        .next (q.wrote n (fun l => words l ((List.range cnt).map (fun k => (f l k).1))) (allFlags r))
    let low := fun (_ : Nat) (l : List Nat) => [BitVec.ofNat 32 (l.headD 0)]
    let one := fun i k => [q.ea i k]
    let whole := fun i (_ : Nat) => [(q.a i).toNat]
    ((q.etype = 2 ∧ e.toNat < 2) ∨ (e16 ∧ (e = 5 ∨ e = 6)) → writes (.cvtF2i x d a e) 1 (etCount q.etype) (fun _ l => [packElems q.etype l])
      (fun i k => fToInt (etWidth e.toNat) (etSigned e.toNat) q.rnd (q.rv i k) sat (wide i k)) one)
    ∧ ((q.etype < 2 ∧ e = 2) ∨ ((q.etype = 5 ∨ q.etype = 6) ∧ (e = 3 ∨ e = 4)) →
      writes (.cvtI2f x d a e) 1 (etCount q.etype) (fun _ l => [packElems q.etype l])
        (fun i k => intToF (etFmt e.toNat) q.rnd (q.rv i k) sat q.ftz (elemVal q.etype (q.a i) k)) one)
    ∧ (q.etype = 2 → e = 3 ∨ e = 4 → writes (.cvtF2f x d a h e) 1 1
      (fun i l => let old := (q.rd q.opD i).toNat
        [BitVec.ofNat 32 (if h = 1 then l.headD 0 * 2 ^ 16 + old % 2 ^ 16 else old / 2 ^ 16 * 2 ^ 16 + l.headD 0)])
      (fun i _ => fconvert (etFmt e.toNat) q.rnd (q.rv i h.toNat) sat q.ftz (fp32.input q.ftz (q.a i).toNat)) whole)
    ∧ (e16 → e = 2 → writes (.cvtF2f x d a h e) 1 1 low
      (fun i _ => fconvert fp32 q.rnd (q.rv i 0) sat q.ftz (wide i h.toNat)) (fun i _ => [q.ea i h.toNat]))
    ∧ ((q.etype = 3 ∧ e = 4) ∨ (q.etype = 4 ∧ e = 3) → h = 0 → writes (.cvtF2f x d a h e) 1 2 (fun _ l => [packElems e.toNat l])
      (fun i k => fconvert (etFmt e.toNat) q.rnd (q.rv i k) sat q.ftz (wide i k)) one)
    ∧ writes (.qnt x d a fmt) 1 1 low (fun i _ => qnt fmt.toNat q.rnd (q.rv i 0) sat q.ftz (q.a i).toNat) whole
    ∧ writes (.mxsc x d a fmt) 1 1 low (fun i _ => mxscCode fmt.toNat (fp32.input q.ftz (q.a i).toNat)) whole
    ∧ (Issues (.dqnt x d a fmt) s q →
      exec (.dqnt x d a fmt) s = .next (q.counted.result (fun i => BitVec.ofNat 32 (dqnt fmt.toNat (q.a i).toNat))))
    ∧ (e16 → writes (.pack x d a b) 1 2 (fun _ l => [packElems q.etype l])
      (fun i k => fconvert q.fmt q.rnd (q.rv i k) sat q.ftz (fp32.input q.ftz (if k = 0 then q.a i else q.b i).toNat))
      (fun i _ => [(q.a i).toNat, (q.b i).toNat]))
    ∧ (e16 → writes (.unpk x d a) 2 2 (fun _ l => l.map (BitVec.ofNat 32))
      (fun i k => (toFp32 (wide i k), if (wide i k).snan then flIV else 0)) one)

/-- SFU functions, MATCH, reductions and scans open a lookahead window that holds their result. In every unhindered issue (for the float
functions under a float type, and where no raised flag is enabled) these answer a next state in which the issuing fragment has one more
open window, already complete, whose pending writes are the results in d of the lanes of EXEC with the zeros of MZ, and whose flags are
those raised. The SFU values of the functions that R173 leaves open are free values of Config (log 8). The model's own choices: the window
is already complete (log 11), the flags of a reduction are those of every addition of its tree (log 48), and SINPI of an odd integer gives
a zero of a free sign (log 30). Rests on R49, R108, R109, R110, R111, R163, R171, R172. -/
def Obligations.LongLatencyResults : Prop :=
  ∀ (s : State) (q : Iss) (p : Option Pfx) (k : BitVec 4) (d a : Code),
    let cnt := etCount q.etype
    let opens := fun (pend : List PWrite) (tri : Option (Nat × List Nat × List Nat)) (fl : Nat) =>
      Host.Outcome.next (q.counted.openDone (q.lookahead k) pend tri fl)
    (∀ z ∈ ([(.rcp, 0), (.rsq, 1), (.sqrt, 2), (.ex2, 3), (.lg2, 4), (.sinpi, 5), (.cospi, 6), (.tanh, 7), (.sigm, 8)] :
        List ((Option Pfx → BitVec 4 → Code → Code → Instr) × Nat)),
      let f := fun i e => sfuElem z.2 q.fmt q.ftz (q.ea i e)
      let r := q.lanes.map (fun i => (i, (List.range cnt).map (fun e => (⟨(f i e).1, (f i e).2, [q.ea i e]⟩ : ElemRes))))
      Issues (z.1 p k d a) s q → etFloat q.etype = true → q.fpTrap r = none → exec (z.1 p k d a) s =
        opens (q.pending 1 (fun i => [packElems q.etype ((List.range cnt).map (fun e => (f i e).1))]) ++ q.pendingZeros 1) none (allFlags r))
    ∧ (Issues (.matchLanes p k d a) s q → q.fm.p.mdst = false → exec (.matchLanes p k d a) s =
        opens (q.pending 1 (fun i => [BitVec.ofNat 32 ((q.lanes.find? (fun m => q.a m = q.a i)).getD i)]) ++ q.pendingZeros 1) none 0)
    ∧ (Issues (.matchLanes p k d a) s q → q.fm.p.mdst = true → exec (.matchLanes p k d a) s =
        opens [] (some (d.toNat, (match q.lanes.head? with
          | some f => (q.lanes.filter (fun i => q.a i = q.a f)).map q.lid
          | none => []), q.g.lids q.g.exist)) 0)
    ∧ (∀ z ∈ ([(.redAdd, 0, false), (.redMin, 1, false), (.redMax, 2, false), (.scanAdd, 0, true), (.scanMax, 2, true)] :
        List ((Option Pfx → BitVec 4 → Code → Code → Instr) × Nat × Bool)),
      let f := fun i e => q.redElem z.2.2 (redOp z.2.1 q.etype (mrSat q.g.mr) q.ftz q.redMode) (fun j => q.ea j e) i
      let r := q.lanes.map (fun i => (i, (List.range cnt).map (fun e => (⟨(f i e).1, (f i e).2, [q.ea i e]⟩ : ElemRes))))
      Issues (z.1 p k d a) s q → q.fpTrap r = none → exec (z.1 p k d a) s =
        opens (q.pending 1 (fun i => [packElems q.etype ((List.range cnt).map (fun e => (f i e).1))]) ++ q.pendingZeros 1) none (allFlags r))
    ∧ (∀ z ∈ ([(.redBitAnd, 3), (.redBitOr, 4), (.redBitXor, 5)] : List ((Option Pfx → BitVec 4 → Code → Code → Instr) × Nat)),
      Issues (z.1 p k d a) s q → exec (z.1 p k d a) s =
        opens (q.pending 1 (fun i => [BitVec.ofNat 32 (ofElems 32 [(q.redElem false (redBit z.2) (fun j => elemNat 32 (q.a j) 0) i).1])])
          ++ q.pendingZeros 1) none 0)

/-- CSAMP draws the lane with the least position whose prefix sum exceeds a random fraction of the total. Where the total of the weights is
neither zero nor infinite and EXEC is not empty, CSAMP opens a window whose pending writes give every lane of EXEC the lid of the drawn
lane: the first in ascending order whose inclusive prefix sum exceeds u * 2^-24 of the total rounded towards zero, u being 24 bits of the
mixer at the lowest lid. With EXEC empty, or a total of zero or infinity, it gives all ones. The window carries the flags of the weights
and of the sums, and OF for an infinite total; no one of them is enabled (FloatTraps has the other case). The model's own choices: the
window is already complete (log 11); the flags are those of log 48, which reads R109 and R112: IV of an invalid weight, those of the sums
at the lanes of EXEC, and none for the rounding of the threshold. Rests on R109, R110, R111, R112, R160. -/
def Obligations.CsampDraw : Prop :=
  ∀ (s : State) (q : Iss) (p : Option Pfx) (k : BitVec 4) (d a : Code) (m last : Nat) (neg : Bool) (sig : Nat) (e : Int),
    let tot := fun i => q.redElem true (redOp 0 2 false q.ftz 0) (fun j => (csampWeight q.ftz (q.a j)).1) i
    let fl := q.lanes.foldl (fun f i => f ||| (csampWeight q.ftz (q.a i)).2 ||| (tot i).2) 0
    let u := bitsOf (q.mixWord (8 * q.lid m) 0) 23 0
    let t := (fp32.round 1 0 false false false (u * sig) (e - 24)).1
    let opens := fun (w : Word) (fl : Nat) => fl &&& mrExcen q.g.mr = 0 →
      exec (.csamp p k d a) s = .next (q.counted.openDone (q.lookahead k) (q.pending 1 (fun _ => [w]) ++ q.pendingZeros 1) none fl)
    Issues (.csamp p k d a) s q →
      (q.lanes.head? = some m → q.lanes.getLast? = some last → fp32.decode (tot last).1 = .fin neg sig e → (tot last).1 ≠ 0 →
        opens (match q.lanes.find? (fun i => decide (0 < fcompare (fp32.decode (tot i).1) (fp32.decode t))) with
          | some i => BitVec.ofNat 32 (q.lid i)
          | none => BitVec.allOnes 32) fl)
      ∧ (q.lanes = [] → exec (.csamp p k d a) s = .next (q.counted.openDone (q.lookahead k) (q.pendingZeros 1) none 0))
      ∧ (q.lanes.getLast? = some last → (tot last).1 = 0 → opens (BitVec.allOnes 32) fl)
      ∧ (q.lanes.getLast? = some last → (tot last).1 = fp32.infPat → opens (BitVec.allOnes 32) (fl ||| flOF))

/-- MAND, MOR, MXOR, MANDN, MNOT, MPOP, MFFS, MCUR, MSPILL and MFILL. In every unhindered issue: MAND, MOR, MXOR and MANDN write the bitwise
result of the two triples into triple d, MNOT the complement within the existing positions, MCUR the mask of the fragment; MPOP writes the
number of bits and MFFS the lowest bit's index, or all ones, into S register d. MSPILL writes all ones or zero into each lane of EXEC by
its bit of a; MFILL writes the bits of the lanes of EXEC by whether a is not zero, and keeps the other bits. Rests on R204, R205. -/
def Obligations.MaskInstructions : Prop :=
  ∀ (s : State) (q : Iss) (l : Option Word) (d a b : Code),
    let put := fun (m : Mask) => Host.Outcome.next (q.counted.modGroup (fun g => g.setTriple d.toNat m))
    let put32 := fun (x : Word) => Host.Outcome.next (q.counted.modGroup (fun g => g.setS d.toNat x))
    let E := q.g.exist
    (∀ z ∈ ([(.mand, fun x y => x &&& y), (.mor, fun x y => x ||| y), (.mxor, fun x y => x ^^^ y), (.mandn, fun x y => x &&& ~~~y)] :
        List ((Code → Code → Code → Instr) × (Mask → Mask → Mask))),
      Issues (z.1 d a b) s q → exec (z.1 d a b) s = put (z.2 (q.tri a) (q.tri b)))
    ∧ (Issues (.mnot d a) s q → exec (.mnot d a) s = put (~~~ q.tri a &&& E))
    ∧ (Issues (.mcur d) s q → exec (.mcur d) s = put q.f.mask)
    ∧ (Issues (.mpop d a) s q → exec (.mpop d a) s = put32 (BitVec.ofNat 32 (maskList (q.tri a)).length))
    ∧ (Issues (.mffs d a) s q → (∀ i, (maskList (q.tri a)).head? = some i → exec (.mffs d a) s = put32 (BitVec.ofNat 32 i))
        ∧ (q.tri a = 0 → exec (.mffs d a) s = put32 (BitVec.allOnes 32)))
    ∧ (Issues (.mspill d a) s q → exec (.mspill d a) s =
        .next (q.counted.result (fun i => if (q.tri a).getLsbD i then BitVec.allOnes 32 else 0)))
    ∧ (Issues (.mfill l d a) s q → exec (.mfill l d a) s =
        put ((q.g.triple d.toNat &&& ~~~ q.ex) ||| maskOfList (q.lanes.filter (fun i => q.a i != 0))))

/-- BRA, BRZ and BRX move the fragment, or split it. T is EXEC, or EXEC and the triple that the condition names. BRA goes to the target unless
T is empty, BRZ goes to the target where T is empty; the fragment falls through otherwise. BRX falls through where T is empty, goes to the
target where T is the whole fragment, and else splits: T at the target and the rest at the next instruction, both with the fragment's
chain, the part with the lowest lid in the fragment's place. Rests on R59, R189, R190. -/
def Obligations.Branches : Prop :=
  ∀ (s : State) (q : Iss) (c : BitVec 4) (off : BitVec 21),
    let T := if c = 0 then q.ex else q.ex &&& q.g.triple (8 + 3 * (c.toNat - 1))
    let target := q.c.addr + off.signExtend 64 * 4
    let goes := Host.Outcome.next (q.counted.modFrag (fun f => { f with pc := target }))
    (Issues (.bra c off) s q → exec (.bra c off) s = if T = 0 then .next q.counted.s else goes)
    ∧ (Issues (.brz c off) s q → exec (.brz c off) s = if T = 0 then goes else .next q.counted.s)
    ∧ (Issues (.brx c off) s q → T = 0 → exec (.brx c off) s = .next q.counted.s)
    ∧ (Issues (.brx c off) s q → T = q.f.mask → T ≠ 0 → exec (.brx c off) s = goes)
    ∧ (Issues (.brx c off) s q → T ≠ 0 → T ≠ q.f.mask → exec (.brx c off) s = .next (q.counted.splitInto
        [{ q.counted.f with mask := T, pc := target }, { q.counted.f with mask := q.f.mask &&& ~~~ T }]))

/-- JOIN pushes an entry; LEAVE and CONT park the lanes of EXEC; BRK_DEPTH where the chain does not allow it. JOIN pushes an entry with the
label's address, the lowest lid of the fragment as key and a clear call flag, and takes BRK_DEPTH at depth 31. LEAVE n takes BRK_DEPTH
where n exceeds the depth or one of the top n entries is a call entry; else the lanes of EXEC give up the top n - 1 entries and park at
the next one's address. CONT takes BRK_DEPTH at depth 0 or at a call entry; else the lanes of EXEC park with the label as target. With no
lane in EXEC, LEAVE and CONT move nothing. Rests on R184, R185, R189, R191, R192, R193. -/
def Obligations.JoinLeaveCont : Prop :=
  ∀ (s : State) (q : Iss) (n : BitVec 4) (off : BitVec 21),
    let target := q.c.addr + off.signExtend 64 * 4
    let brk := fun (k : Nat) => Host.Outcome.next (q.trapped { q.trap clsBrk with detail := k })
    let parked := fun (chain : List JEntry) (pc : DWord) (p : Park) =>
      { q.counted.f with mask := q.ex, chain := chain, pc := pc, park := p, slot := none, count := 0 }
    (Issues (.join off) s q → q.f.chain.length < 31 → exec (.join off) s = .next (q.counted.modGroup (fun g =>
        { (g.modFrag q.c.f (fun f => { f with
            chain := { id := q.counted.g.nextId, jaddr := target, key := q.lid (lowPos q.f.mask), callEnt := false } :: f.chain })) with
          nextId := g.nextId + 1 })))
    ∧ (Issues (.join off) s q → 31 ≤ q.f.chain.length → exec (.join off) s = brk 0)
    ∧ (Issues (.leave n) s q → q.f.chain.length < n.toNat ∨ (∃ e ∈ q.f.chain.take n.toNat, e.callEnt = true) → exec (.leave n) s = brk n.toNat)
    ∧ (∀ e rest, Issues (.leave n) s q → q.f.chain.drop (n.toNat - 1) = e :: rest → n ≠ 0 → (∀ x ∈ q.f.chain.take n.toNat, x.callEnt = false) → q.ex ≠ 0 →
        exec (.leave n) s = .next (q.counted.depart [parked (e :: rest) e.jaddr .exitArrived]))
    ∧ (Issues (.leave n) s q → n.toNat ≤ q.f.chain.length → (∀ x ∈ q.f.chain.take n.toNat, x.callEnt = false) → q.ex = 0 →
        exec (.leave n) s = .next q.counted.s)
    ∧ (Issues (.cont off) s q → q.f.chain = [] ∨ (∃ e rest, q.f.chain = e :: rest ∧ e.callEnt = true) → exec (.cont off) s = brk 0)
    ∧ (∀ e rest, Issues (.cont off) s q → q.f.chain = e :: rest → e.callEnt = false → exec (.cont off) s =
        .next (if q.ex = 0 then q.counted.s else q.counted.depart [parked q.f.chain target (.contArrived target)]))

/-- CALL, CALLI and RET, and BRK_DEPTH and ILLEGAL where they cannot. CALL sends the lanes of EXEC to the target with a call entry whose
address is the CALL's plus 4 pushed; CALLI sends each lane to its own 64-bit target, lanes of equal target together. At depth 31 both take
BRK_DEPTH. CALLI takes ILLEGAL, naming the lowest lane, where a target is misaligned or has a bit of [63:52] set. RET parks the lanes of
EXEC at the topmost call entry, and takes BRK_DEPTH where the chain holds none. With no lane in EXEC nothing moves. Rests on R189, R194. -/
def Obligations.CallsAndReturns : Prop :=
  ∀ (s : State) (q : Iss) (a : Code) (off : BitVec 21),
    let brk := Host.Outcome.next (q.trapped { q.trap clsBrk with detail := 0 })
    let ok := fun (x : DWord) => x.toNat % 4 = 0 ∧ x.toNat < 2 ^ 52
    (Issues (.call off) s q → q.f.chain.length < 31 → exec (.call off) s =
        .next (if q.ex = 0 then q.counted.s else q.counted.callTo [(q.c.addr + off.signExtend 64 * 4, q.ex)]))
    ∧ (Issues (.call off) s q → 31 ≤ q.f.chain.length → exec (.call off) s = brk)
    ∧ (Issues (.calli a) s q → (∀ i ∈ q.lanes, ok (q.a64 i)) → q.f.chain.length < 31 → exec (.calli a) s =
        .next (if q.ex = 0 then q.counted.s else q.counted.callTo q.counted.targetGroups))
    ∧ (Issues (.calli a) s q → (∀ i ∈ q.lanes, ok (q.a64 i)) → 31 ≤ q.f.chain.length → exec (.calli a) s = brk)
    ∧ (∀ i, Issues (.calli a) s q → i ∈ q.lanes → ¬ok (q.a64 i) → (∀ j ∈ q.lanes, j < i → ok (q.a64 j)) →
        exec (.calli a) s = .next (q.trapped (q.trapAt clsIllegal i)))
    ∧ (∀ e rest, Issues .ret s q → q.f.chain.dropWhile (fun x => !x.callEnt) = e :: rest → exec .ret s =
        .next (if q.ex = 0 then q.counted.s else q.counted.depart
          [{ q.counted.f with mask := q.ex, chain := e :: rest, pc := e.jaddr, park := .exitArrived, slot := none, count := 0 }]))
    ∧ (Issues .ret s q → (∀ e ∈ q.f.chain, e.callEnt = false) → exec .ret s = brk)

/-- EXIT ends or restarts the lanes of EXEC, YIELD makes the fragment the youngest, NOP only issues. EXIT 0 marks the lanes of EXEC exited and
takes them out of the fragment. EXIT with a successor clears their Q and L registers and the V registers of the blocks that keep names
not, and restarts them with an empty chain as one youngest fragment at the EXIT's address plus four times the count. Inside the handler
EXIT takes ILLEGAL; with no lane in EXEC it moves nothing. YIELD rotates the fragment to the youngest place. NOP leaves only the counts of
an issue. Rests on R189, R195, R196. -/
def Obligations.ExitYieldNop : Prop :=
  ∀ (s : State) (q : Iss) (l : Option Word) (a b : Code),
    let succ := q.uni .a
    let keep := q.uni .b
    (Issues (.exit l a b) s q → q.f.jr = [] → q.ex ≠ 0 → exec (.exit l a b) s =
      .next (Iss.depart { q.counted with s := q.counted.modTeam (fun t => q.lanes.foldl (fun t i => t.modLane (q.lid i) (fun ln =>
          if succ = 0 then { ln with exited := true }
          else { ln with v := ln.v.keep (fun n => keep.getLsbD (n / 8)), q := [], l := [],
                         ue := ln.ue.filter (fun r => match r with
                           | .v n => keep.getLsbD (n / 8)
                           | _ => false) })) t) }
        (if succ = 0 then [] else [{ mask := q.ex, pc := q.c.addr + succ.signExtend 64 * 4 }])))
    ∧ (Issues (.exit l a b) s q → q.f.jr = [] → q.ex = 0 → exec (.exit l a b) s = .next q.counted.s)
    ∧ (Issues (.exit l a b) s q → q.f.jr ≠ [] → exec (.exit l a b) s = .next (q.trapped (q.trap clsIllegal)))
    ∧ (Issues .yield s q → exec .yield s = .next (q.counted.modGroup (fun g => g.rotate q.f.mask)))
    ∧ (Issues .nop s q → exec .nop s = .next q.counted.s)

/-- BARA, BAR and BAR.task arrive, BARW waits, BARC configures, TASKEND arrives at the task barrier, SAFEPT stops. An arrival at a barrier
whose participants hold the role (for BAR.task, every role), none of whose lids has arrived, adds the lids of the whole fragment to the
arrivals and tests the barrier; BARA writes the phase, BAR and BAR.task wait with it. Outside the participants they take ILLEGAL; BAR.task
does so too where the participants lack some role; where a lid has arrived the fragment stalls, at the task barrier as well. BARW goes on
at once where the phase has passed and else waits. BARC sets the participants where the configuration is legal. TASKEND arrives at the
task barrier. SAFEPT stops a group that is in a pre-emption's grace (R371). The model's own readings: a phase is a task boundary where any
arrival of it was a BAR.task (log 34), and a stalled fragment keeps its slot (log 27). Rests on R223, R224, R225, R226, R229, R232, R371. -/
def Obligations.BarrierArrivals : Prop :=
  ∀ (s : State) (q : Iss) (l : Option Word) (d a : Code) (n : BitVec 4) (bar : Barrier),
    q.t.body.barriers[n.toNat]? = some bar →
    let lids := q.fragLids
    let arrives := fun (task : Bool) (keep : State) =>
      ((((keep.modTeam q.c.team (fun t => t.modBody (fun bd =>
        { bd with barriers := listModify bd.barriers n.toNat (fun b => { b with arr := joinLids b.arr lids, task := b.task || task }) }))).testBarrier
          q.c.team n.toNat).modGroup q.c.team q.c.g Group.fixSlots).stopIdle q.c.team)
    let takes := bar.roles.testBit q.g.role = true
    let every := bar.roles &&& q.t.hdr.allRoles = q.t.hdr.allRoles
    let free := lids.any bar.arr.contains = false
    let ill := Host.Outcome.next (q.trapped (q.trap clsIllegal))
    let cfg := q.uni .a
    (Issues (.bara d n) s q → takes → free → exec (.bara d n) s = .next (arrives false (q.counted.result (fun _ => BitVec.ofNat 32 bar.c))))
    ∧ (Issues (.bar n) s q → takes → free → exec (.bar n) s =
        .next (arrives false (q.counted.modFrag (fun f => { f with wait := .barrier n.toNat bar.c }))))
    ∧ (Issues (.barTask n) s q → takes → every → free → exec (.barTask n) s =
        .next (arrives true (q.counted.modFrag (fun f => { f with wait := .barrier n.toNat bar.c }))))
    ∧ (∀ i ∈ [.bara d n, .bar n, .barTask n], Issues i s q → ¬takes → exec i s = ill)
    ∧ (Issues (.barTask n) s q → ¬every → exec (.barTask n) s = ill)
    ∧ (∀ i ∈ [.bara d n, .bar n], Issues i s q → takes → ¬free → exec i s = .next (q.heldBack (.stall n.toNat bar.c)))
    ∧ (Issues (.barTask n) s q → takes → every → ¬free → exec (.barTask n) s = .next (q.heldBack (.stall n.toNat bar.c)))
    ∧ (Issues (.barw l a n) s q → exec (.barw l a n) s =
        .next (if phasePassed bar.c (cfg.toNat % 2 ^ 16) then q.counted.s else q.counted.waitOn (.barrier n.toNat (cfg.toNat % 2 ^ 16))))
    ∧ (Issues (.barc l a n) s q → barcOk q.t bar cfg = true → exec (.barc l a n) s = .next (q.counted.modTeam (fun t => t.modBody (fun bd =>
        { bd with barriers := listModify bd.barriers n.toNat (fun b => { b with roles := bitsOf cfg 3 0, stream := cfg.getLsbD 4 }) }))))
    ∧ (Issues (.barc l a n) s q → barcOk q.t bar cfg = false → exec (.barc l a n) s = ill)
    ∧ (Issues .taskend s q → lids.any q.t.body.taskArr.contains = true → exec .taskend s = .next (q.heldBack (.taskStall q.t.body.task)))
    ∧ (Issues .taskend s q → lids.any q.t.body.taskArr.contains = false → exec .taskend s =
        .next (((((q.counted.modFrag (fun f => { f with wait := .task })).modTeam q.c.team (fun t =>
          t.modBody (fun b => { b with taskArr := joinLids b.taskArr lids }))).testTaskBarrier q.c.team).modGroup q.c.team q.c.g
            Group.fixSlots).stopIdle q.c.team))
    ∧ (Issues .safept s q → exec .safept s = .next (q.counted.modGroup (fun g => { g with stopped := g.stopped || g.grace.isSome })))

/-- LD, ST, LDV and STV: in flight with a window, held back by a full counter, or trapped by the first check that fails. In every unhindered
issue of a load or store form: where some lane fails a check the trap of the first failing check is taken with no effect; where all pass,
the access is put in flight with its parts and its window is opened, on the path of its space; with 63 accesses in flight on the path and
a lane in EXEC it is held back instead. The displacement is the signed disp field times the size; LDV and STV use no displacement and give
their hint. checked is the order of checks of R241. The model's own choice (log 28, DEDUCED from R49, R52 and R245): with no lane in EXEC
the access still opens its window, and is not counted. Rests on R240, R241, R244, R245, R248, R250. -/
def Obligations.LoadsAndStores : Prop :=
  ∀ (s : State) (q : Iss) (p : Option Pfx) (k : BitVec 4) (t a disp : Code) (g : BitVec 3) (w h : BitVec 2),
    let does := fun (i : Instr) (x : Access) (zeros : List PWrite) =>
      Issues i s q →
        (∀ tr, q.counted.checked x = .error tr → exec i s = .next (q.trapped tr))
        ∧ (∀ s' parts, q.counted.checked x = .ok (s', parts) → q.ex = 0 ∨ q.g.counter x.path < 63 →
            exec i s = .next (q.counted.enter s' x.path x.kind parts x.hint k zeros (q.ex == 0)))
        ∧ (∀ s' parts, q.counted.checked x = .ok (s', parts) → q.ex ≠ 0 → 63 ≤ q.g.counter x.path → exec i s = .next (q.heldBack .none))
    (∀ z ∈ ([(.ldGB, 0, 1), (.ldGH, 0, 2), (.ldGW, 0, 4), (.ldGD, 0, 8), (.ldGQ, 0, 16), (.ldSB, 1, 1), (.ldSH, 1, 2),
        (.ldSW, 1, 4), (.ldSD, 1, 8), (.ldSQ, 1, 16), (.ldCB, 2, 1), (.ldCH, 2, 2), (.ldCW, 2, 4), (.ldCD, 2, 8),
        (.ldCQ, 2, 16), (.ldLB, 3, 1), (.ldLH, 3, 2), (.ldLW, 3, 4), (.ldLD, 3, 8), (.ldLQ, 3, 16)] :
        List ((Option Pfx → BitVec 4 → Code → Code → Code → Instr) × Nat × Nat)),
      does (z.1 p k t a disp) (q.loadAccess z.2.1 z.2.2 (disp.toInt * z.2.2) 0) (q.pendingZeros (regsOf z.2.2)))
    ∧ (∀ z ∈ ([(.stGB, 0, 1), (.stGH, 0, 2), (.stGW, 0, 4), (.stGD, 0, 8), (.stGQ, 0, 16), (.stSB, 1, 1), (.stSH, 1, 2),
        (.stSW, 1, 4), (.stSD, 1, 8), (.stSQ, 1, 16), (.stLB, 3, 1), (.stLH, 3, 2), (.stLW, 3, 4), (.stLD, 3, 8),
        (.stLQ, 3, 16)] :
        List ((Option Pfx → BitVec 4 → Code → Code → Code → Instr) × Nat × Nat)),
      does (z.1 p k t a disp) (q.storeAccess z.2.1 z.2.2 (disp.toInt * z.2.2) 0 false 0) [])
    ∧ does (.ldv p k t a g w h) (q.loadAccess g.toNat (vWidthBytes w) 0 h.toNat) (q.pendingZeros (vWidthRegs w))
    ∧ does (.stv p k t a g w h) (q.storeAccess g.toNat (vWidthBytes w) 0 h.toNat false 0) []

/-- The SEG check names the lowest lane that fails it; the parts of an access that passes are those of the lanes of EXEC. Where some lane of
EXEC forms an offset that is negative, ends past the limit or is misaligned, the access takes SEG, naming the lowest such lane with the
offset as address, whatever translation would say. Where an access of 1, 2, 4, 8 or 16 bytes passes its checks, every lane of EXEC passed
the SEG check (the offset a + D is not negative, ends within the limit and is a multiple of the size), its parts are in ascending lanes,
every part belongs to a lane of EXEC and lies at the address the lane forms, with the 8-byte halves of 16 bytes apart, and carries the
lane's data. Rests on R240, R241, R242, R337. -/
def Obligations.AccessParts : Prop :=
  ∀ (q : Iss) (x : Access) (s' : State) (parts : List Part),
   let bad := fun (j : Nat) => let off := Int.ofNat (q.a64 j).toNat + x.disp
     off < 0 ∨ Int.ofNat (q.segOf x.seg).limit < off + Int.ofNat x.size ∨ off % Int.ofNat x.size ≠ 0
   (∀ i ∈ q.lanes, bad i → (∀ j ∈ q.lanes, j < i → ¬bad j) →
      q.checked x = .error { q.trapAt clsSeg i with addr := BitVec.ofInt 64 (Int.ofNat (q.a64 i).toNat + x.disp) })
   ∧ (q.checked x = .ok (s', parts) →
    (∀ i ∈ q.lanes, ¬bad i)
    ∧ parts.map (fun p => (p.lid, p.ix, p.size, p.va, p.scratch, p.data)) =
      q.lanes.flatMap (fun i => (pieces x.size).map (fun m => (q.lid i, m.1, m.2, q.formed x.seg (q.offset x.disp i) i + 8 * m.1,
        x.seg == 1, (x.data i).1 / 2 ^ (64 * m.1) % 2 ^ (8 * m.2)))))

/-- PRF, CWB and CINV go in flight and never trap; WAITC waits for its counter. In every unhindered issue PRF, CWB and CINV put their parts in
flight (of the lanes whose line is in the segment, translates and is CACHED) and open a window, unless their path's counter is full with a
lane in EXEC. WAITC whose counter is at or below the threshold goes on at once; else its fragment waits. The model's own choices: with no
lane in EXEC the access opens its window and is not counted (log 28, DEDUCED), and the translation of all three asks for the permission of
a load, so that a readable page is enough (log 54). Rests on R244, R245, R251, R252. -/
def Obligations.CacheControlAndWaits : Prop :=
  ∀ (s : State) (q : Iss) (l : Option Word) (k : BitVec 4) (a disp : Code) (path : BitVec 3),
    (∀ z ∈ ([(.prf, 0, 0), (.cwb, 1, 2), (.cinv, 2, 2)] : List ((BitVec 4 → Code → Code → Instr) × Nat × Nat)),
      let r := q.counted.lineParts (disp.toInt * 256) q.counted.s q.lanes
      Issues (z.1 k a disp) s q → q.ex = 0 ∨ q.g.counter z.2.2 < 63 → exec (z.1 k a disp) s =
        .next (q.counted.enter r.1 z.2.2 (.cache z.2.1) r.2 0 k [] (q.ex == 0)))
    ∧ (Issues (.waitc l a path) s q → q.g.counter path.toNat ≤ (q.uni .a).toNat → exec (.waitc l a path) s =
        .next (q.counted.modTeam (fun t => t.waitcDone q.c.g q.c.f path.toNat (q.uni .a).toNat)))
    ∧ (Issues (.waitc l a path) s q → (q.uni .a).toNat < q.g.counter path.toNat → exec (.waitc l a path) s =
        .next (q.counted.waitOn (.waitc path.toNat (q.uni .a).toNat)))

/-- FENCE, the acquire and release forms, ATOM and REDM. Where the scope is admitted: FENCE performs the group's earlier accesses, and from
scope .clu up later loads use no older L1 copy; release stores go in flight as stores that release; acquire loads and ATOM are performed
at their issue, with what must come before them, and from .clu up renew the group's view of the L1 (log 4 of this model: performed at
once); REDM goes in flight. With no lane in EXEC the access opens only its window, which is the model's own choice (log 28, DEDUCED).
Rests on R262, R265, R275, R276, R277, R279, R280. -/
def Obligations.ScopedAccesses : Prop :=
  ∀ (s : State) (q : Iss) (p : Option Pfx) (k : BitVec 4) (t a : Code) (sc : BitVec 3) (disp op : BitVec 4),
    let renewed := fun (s : State) => if 2 ≤ sc.toNat then s.renewL1 q.c.team q.c.g else s
    let now := fun (s : State) => s.performNow q.c.team q.c.g q.counted.g.nextId
    let enters := fun (i : Instr) (atomic : Bool) (x : Access) (zeros : List PWrite) (r : State → State) =>
      Issues i s q → q.counted.scopeTrap sc.toNat atomic = none → ∀ s' parts, q.counted.checked x = .ok (s', parts) →
        q.ex = 0 ∨ q.g.counter x.path < 63 →
        let e := q.counted.enter s' x.path x.kind parts x.hint k zeros (q.ex == 0)
        exec i s = .next (if q.ex = 0 then e else r e)
    (Issues (.fence sc) s q → q.counted.scopeTrap sc.toNat false = none → exec (.fence sc) s =
        .next (renewed (q.counted.s.flushGroup q.c.team q.c.g)))
    ∧ (∀ z ∈ ([(.ldGAcqW, 0, 4), (.ldGAcqD, 0, 8), (.ldSAcqW, 1, 4), (.ldSAcqD, 1, 8)] :
        List ((Option Pfx → BitVec 4 → Code → Code → BitVec 3 → BitVec 4 → Instr) × Nat × Nat)),
      enters (z.1 p k t a sc disp) false (q.loadAccess z.2.1 z.2.2 (disp.toInt * z.2.2) 0) (q.pendingZeros (regsOf z.2.2)) (fun e => now (renewed e)))
    ∧ (∀ z ∈ ([(.stGRelW, 0, 4), (.stGRelD, 0, 8), (.stSRelW, 1, 4), (.stSRelD, 1, 8)] :
        List ((Option Pfx → BitVec 4 → Code → Code → BitVec 3 → BitVec 4 → Instr) × Nat × Nat)),
      enters (z.1 p k t a sc disp) false (q.storeAccess z.2.1 z.2.2 (disp.toInt * z.2.2) 0 true sc.toNat) [] id)
    ∧ (∀ z ∈ ([(.atomGW, 0, 4), (.atomGD, 0, 8), (.atomSW, 1, 4), (.atomSD, 1, 8)] :
        List ((Option Pfx → BitVec 4 → Code → Code → BitVec 3 → BitVec 4 → Instr) × Nat × Nat)),
      atomicTypeOk op.toNat q.etype = true →
      enters (z.1 p k t a sc op) true (q.atomAccess z.2.1 z.2.2 sc op true) (q.pendingZeros (regsOf z.2.2)) (fun e => renewed (now e)))
    ∧ (∀ z ∈ ([(.redmGW, 4), (.redmGD, 8)] : List ((Option Pfx → BitVec 4 → Code → Code → BitVec 3 → BitVec 4 → Instr) × Nat)),
      atomicTypeOk op.toNat q.etype = true → enters (z.1 p k t a sc op) true (q.atomAccess 0 z.2 sc op false) [] id)

/-- DET_SCOPE, SCOPE_DENIED and the types an atomic admits. Under MR.DET a scope above .team takes DET_SCOPE. Else an access of scope .sys
where the tenant is not allowed it (bit 0, or bit 1 for an atomic), and an atomic above .team in a kernel of level 1 or 2, take
SCOPE_DENIED. An atomic whose operation does not admit the element type takes ILLEGAL first. None of them has an effect. The S forms
encode no scope above .team: of these traps they meet ILLEGAL alone. Rests on R267, R272, R274, R278, R336. -/
def Obligations.ScopeAndTypeTraps : Prop :=
  ∀ (s : State) (q : Iss) (p : Option Pfx) (k : BitVec 4) (t a : Code) (sc : BitVec 3) (disp op : BitVec 4) (ten : Tenant),
    q.counted.s.tenants[q.t.tenant]? = some ten →
    let det := mrDet q.g.mr = true ∧ 1 < sc.toNat
    let denied := fun (atomic : Bool) => (sc = 5 ∧ ten.hvScope.testBit (if atomic then 1 else 0) = false) ∨ (atomic = true ∧ q.t.hdr.level ≠ 0 ∧ 1 < sc.toNat)
    let ordered : List Instr := [.fence sc, .ldGAcqW p k t a sc disp, .ldGAcqD p k t a sc disp, .stGRelW p k t a sc disp, .stGRelD p k t a sc disp]
    let atomics : List Instr := [.atomGW p k t a sc op, .atomGD p k t a sc op, .redmGW p k t a sc op, .redmGD p k t a sc op]
    (∀ i ∈ ordered, Issues i s q → det → exec i s = .next (q.trapped (q.trap clsDet)))
    ∧ (∀ i ∈ ordered, Issues i s q → ¬det → denied false → exec i s = .next (q.trapped (q.trap clsScope)))
    ∧ (∀ i ∈ atomics ++ [.atomSW p k t a sc op, .atomSD p k t a sc op], Issues i s q → atomicTypeOk op.toNat q.etype = false → exec i s = .next (q.trapped (q.trap clsIllegal)))
    ∧ (∀ i ∈ atomics, Issues i s q → atomicTypeOk op.toNat q.etype = true → det → exec i s = .next (q.trapped (q.trap clsDet)))
    ∧ (∀ i ∈ atomics, Issues i s q → atomicTypeOk op.toNat q.etype = true → ¬det → denied true → exec i s = .next (q.trapped (q.trap clsScope)))

/-- A store that is performed writes its bytes to memory and leaves every other byte. With memory in canonical form, performing an aligned
part of a store of a level-0 team to an UNCACHED, DEVICE or CACHED page writes the bytes of its data, little-endian, from its physical
address: every byte of memory in the part reads as the data's byte after, and every other byte reads as before, or as a combining entry of
the same line leaves it, which drains first (the model's own choice: R259 does not say when an entry drains; log 49, DEDUCED). In every
state, performing any part of any access keeps both memories in canonical form. Rests on R3, R248, R259. -/
def Obligations.StorePerformed : Prop :=
  ∀ (s : State) (tid gi : Nat) (o : Op) (keepL1 : Bool) (p : Part) (t : Team) (rel : Bool) (sc : Nat),
   (s.memWf = true → (s.performPart tid gi o keepL1 p).memWf = true)
   ∧ (s.team? tid = some t → t.hdr.level = 0 → o.kind = .store rel sc → p.scratch = false → p.whole = true → p.size ∈ [1, 2, 4, 8] →
    p.mt ≠ .writeCombine → s.memWf = true →
    ∀ a, (s.performPart tid gi o keepL1 p).physByte a =
      if p.pa ≤ a ∧ a < p.pa + p.size then BitVec.ofNat 8 (p.data / 2 ^ (8 * (a - p.pa))) else (s.drainLine p.pa).physByte a)
   ∧ ((∀ b ∈ s.banks, ∀ e ∈ b.wc, e.line ≠ p.pa / 256) → ∀ a, (s.drainLine p.pa).physByte a = s.physByte a)

/-- TRAP, HALT and DBGBRK take DEBUG; ERET and EMRET leave the handler, ILLEGAL outside it. TRAP n takes DEBUG with SUB 3 and detail n, HALT
with SUB 2, DBGBRK n with SUB 1 and detail n where a debugger is attached to the context; without one DBGBRK has no effect. In the handler
ERET and EMRET leave it, EMRET for the emulated instruction's result; outside the handler they take ILLEGAL. The model's own choice (log
19): EMRET.l, which reads slot 0's register, takes MEM_UE where that register of a lane of X holds an uncorrectable error once the frame
is restored, and names the lowest such lane. Rests on R236, R355, R363. -/
def Obligations.DebugAndHandlerReturns : Prop :=
  ∀ (s : State) (q : Iss) (n : Code) (lst : BitVec 1),
    let debug := fun (sub d : Nat) => Host.Outcome.next (q.trapped { q.trap clsDebug with sub := sub, detail := d })
    let attached := q.counted.s.debuggerOn q.t.ctx
    let leaves := fun (em last : Bool) => Host.Outcome.next (((((q.counted.modTeam (fun t => t.leaveHandler q.c.g q.c.f em last)).endWaits
      q.c.team q.c.g).modGroup q.c.team q.c.g Group.fixSlots).stopIdle q.c.team))
    (Issues (.trap n) s q → exec (.trap n) s = debug 3 n.toNat)
    ∧ (Issues .halt s q → exec .halt s = debug 2 0)
    ∧ (Issues (.dbgbrk n) s q → exec (.dbgbrk n) s = if attached then debug 1 n.toNat else .next q.counted.s)
    ∧ (Issues .eret s q → q.f.jr ≠ [] → exec .eret s = leaves false false)
    ∧ (Issues (.emret lst) s q → q.f.jr ≠ [] → lst = 0 ∨ q.emretBad = none → exec (.emret lst) s = leaves true (lst == 1))
    ∧ (∀ i, Issues (.emret 1) s q → q.f.jr ≠ [] → q.emretBad = some i → exec (.emret 1) s = .next (q.trapped (q.trapAt clsMemUe i)))
    ∧ (∀ i ∈ [.eret, .emret lst], Issues i s q → q.f.jr = [] → exec i s = .next (q.trapped (q.trap clsIllegal)))

/-- WRD, WWR and WINFO: the program's registers through the operand window. In the handler, WRD reads the register that a window slot names at
an offset: a V register as the program sees it (in the bank frame for the reserve), a Q or L register of the frame, an S register, zero,
LANEIX or the literal; WINFO reads a window word. WWR writes the V, Q or L register of every lane of EXEC, and an S register from the
lowest lane. With no lane in EXEC, WWR to an S register writes nothing. Slot 0 naming L0 or ZERO keeps the value in the result hold.
Outside the handler, or at a slot that names nothing, they take ILLEGAL; WRD of a register with an uncorrectable error takes MEM_UE (R236;
that it does so for a register of a bank frame is the model's own choice, log 19). Rests on R236, R353, R354. -/
def Obligations.OperandWindow : Prop :=
  ∀ (s : State) (q : Iss) (l : Option Word) (d a : Code) (j slot : BitVec 2) (ix : BitVec 3) (lv : JrLevel) (rest : List JrLevel),
    let depth := q.f.jr.length
    let budget := q.t.hdr.budget q.g.role
    let lane := fun i => q.t.lane (q.lid i)
    let ill := fun (i : Instr) => exec i s = .next (q.trapped (q.trap clsIllegal))
    let r := slotReg (slotId lv.w slot.toNat) j.toNat budget
    let reads := fun (v : Nat → Word) => exec (.wrd d j slot) s = .next (q.counted.result v)
    let hold := q.counted.modTeam (fun t => q.lanes.foldl (fun t i => t.modLane (q.lid i) (fun ln => ln.setHold depth (q.a i))) t)
    (q.f.jr = lv :: rest →
      (Issues (.wrd d j slot) s q →
        (∀ tr, q.slotError r = some tr → exec (.wrd d j slot) s = .next (q.trapped tr)) ∧ (q.slotError r = none →
        (∀ n, r = .v n → reads (fun i => if budget - 16 ≤ n then ((lane i).frame depth).v.get n else (lane i).v.get n))
        ∧ (∀ n, r = .q n → reads (fun i => ((lane i).frame depth).q.get n)) ∧ (∀ n, r = .l n → reads (fun i => ((lane i).frame depth).l.get n))
        ∧ (∀ n, r = .s n → reads (fun _ => q.g.s.get n)) ∧ (r = .zero → reads (fun _ => 0)) ∧ (r = .laneix → reads (fun i => BitVec.ofNat 32 i))
        ∧ (r = .imm → reads (fun _ => lv.w.getD 2 0)) ∧ (r = .bad → ill (.wrd d j slot))))
      ∧ (Issues (.winfo d ix) s q → exec (.winfo d ix) s = .next (q.counted.result (fun _ => lv.w.getD ix.toNat 0)))
      ∧ (∀ ts, IssuesTo (.wwr l a j slot) ts s q → ts = (match r with
            | .v n => if budget - 16 ≤ n then [] else [.v n 1]
            | .s n => [.s n 1]
            | _ => []) → q.bankedHit r = false →
        (∀ n, r = .v n ∨ r = .q n ∨ (r = .l n ∧ (n ≠ 0 ∨ slot ≠ 0)) → exec (.wwr l a j slot) s = .next (q.counted.wwrLanes lv slot.toNat r))
        ∧ (r = .l 0 ∧ slot = 0 → exec (.wwr l a j slot) s = .next hold)
        ∧ (r = .zero → exec (.wwr l a j slot) s = .next (if slot = 0 then hold else q.counted.s))
        ∧ (∀ n m, r = .s n → q.lanes.head? = some m → exec (.wwr l a j slot) s = .next (q.counted.modGroup (fun g => g.setS n (q.a m))))
        ∧ (∀ n, r = .s n → q.lanes = [] → exec (.wwr l a j slot) s = .next q.counted.s)
        ∧ (r = .laneix ∨ r = .imm ∨ r = .bad → ill (.wwr l a j slot))))
    ∧ (q.f.jr = [] → (Issues (.wrd d j slot) s q → ill (.wrd d j slot)) ∧ (Issues (.winfo d ix) s q → ill (.winfo d ix))
      ∧ (IssuesTo (.wwr l a j slot) [] s q → ill (.wwr l a j slot)))

/-- CSRW, SEGLD, TLBINV and TLBINV.va, and ILLEGAL where they are not allowed. CSRW is legal in the handler only: it writes the low half of
JRNEXT as CSR 10 (bits [1:0] must be 0) and the high half as CSR 11 (bits [31:20] must be 0), and writes of the read-only CSRs are
ignored. SEGLD and TLBINV are legal in the handler and in a system launch. SEGLD loads base and limit of SG0, SG2, SG3, SG6 or SG7 from
the four registers of the lowest lane of EXEC; a limit out of range takes ILLEGAL. TLBINV removes the entries of the context in every core
and cluster of the partition, TLBINV.va those that map the address of the lowest lane. That a task which R391 has moved counts to the
partition on whose clusters it stands is the model's own choice (log 59). Rests on R364, R365, R366, R367. -/
def Obligations.HandlerRegistersAndTranslation : Prop :=
  ∀ (s : State) (q : Iss) (l : Option Word) (a n : Code) (g : BitVec 3) (m : Nat),
    let ill := fun (i : Instr) => exec i s = .next (q.trapped (q.trap clsIllegal))
    let x := q.uni .a
    let jrnext := fun (f : DWord → DWord) => Host.Outcome.next (q.counted.modFrag (fun r =>
      { r with jr := listModify r.jr 0 (fun lv => { lv with jrnext := f lv.jrnext }) }))
    let w := fun k => q.rd (q.opA.next k) m
    let limit := (cat64 (w 3) (w 2)).toNat % 2 ^ 53
    let bad := bitsOf (w 3) 31 21 ≠ 0 ∨ (g = 3 ∧ limit % 16 ≠ 0)
    let may := q.counted.privileged = true
    let drop := fun (p : TlbEntry → Bool) => Host.Outcome.next ((q.counted.s.flushGroup q.c.team q.c.g).tlbDrop (q.counted.s.partOf q.t) p)
    (Issues (.csrw l a n) s q → q.f.jr = [] → ill (.csrw l a n))
    ∧ (Issues (.csrw l a n) s q → q.f.jr ≠ [] → n = 10 → x.toNat % 4 = 0 → exec (.csrw l a n) s = jrnext (fun o => cat64 (hi32 o) x))
    ∧ (Issues (.csrw l a n) s q → q.f.jr ≠ [] → n = 11 → x.toNat < 2 ^ 20 → exec (.csrw l a n) s = jrnext (fun o => cat64 x (lo32 o)))
    ∧ (Issues (.csrw l a n) s q → (n = 10 ∧ x.toNat % 4 ≠ 0) ∨ (n = 11 ∧ 2 ^ 20 ≤ x.toNat) → ill (.csrw l a n))
    ∧ (Issues (.csrw l a n) s q → q.f.jr ≠ [] → n ≠ 10 → n ≠ 11 → exec (.csrw l a n) s = .next q.counted.s)
    ∧ (Issues (.segld a g) s q → ¬may ∨ g ∈ [1, 4, 5] → ill (.segld a g))
    ∧ (Issues (.segld a g) s q → may → g ∉ [1, 4, 5] → q.lanes.head? = some m → ¬bad → exec (.segld a g) s = .next (q.counted.modGroup (fun gr =>
        { gr with seg := listModify gr.seg g.toNat (fun _ => { base := cat64 (w 1) (w 0), limit := limit }) })))
    ∧ (Issues (.segld a g) s q → may → g ∉ [1, 4, 5] → q.lanes.head? = some m → bad →
        exec (.segld a g) s = .next (q.trapped (q.trapAt clsIllegal m)))
    ∧ (∀ i ∈ [.tlbinv, .tlbinvVa a], Issues i s q → ¬may → ill i)
    ∧ (Issues .tlbinv s q → may → exec .tlbinv s = drop (fun e => e.ctx == q.t.ctx))
    ∧ (Issues (.tlbinvVa a) s q → may → q.lanes.head? = some m → exec (.tlbinvVa a) s = drop (fun e => e.maps q.t.ctx (q.a64 m).toNat))

/-- JURYRIG, ILLEGAL and vendor-test words, as group words and as stream words. A group word of the JURYRIG fate enters the handler where a
handler can be entered and the depth is below 2, takes EMUL_DEPTH at depth 2 and JURYRIG where there is no handler; where the word of
EXEC's guard holds an uncorrectable error the entry takes MEM_UE instead; an ILLEGAL word takes ILLEGAL with no effect, its length for a
SKIP as R449's bits count it; a vendor-test word takes ILLEGAL but in the life-cycle state RETURN, where it leaves free values in the
team's state (log 15). As stream words, ILLEGAL and, outside RETURN, vendor test stop the stream with ILLEGAL, and JURYRIG without a live
fragment whose handler can be entered with JURYRIG. Rests on R60, R62, R63, R66, R236, R351, R352, R357, R449. -/
def Obligations.WordsThatNameNoInstruction : Prop :=
  ∀ (s : State) (q : Iss) (qs : SIss) (p l : Option Word) (m : Word) (w : DWord),
    let fm := rawForm p m
    let handler := handlerReady q.t q.g = true
    let sound := q.regError = none
    let free := (s.issuer fm).map Iss.c = some q.c
      ∧ (({ (s.modTeam q.c.team (fun t => t.deliverWhere q.c.g q.c.f (Window.due false))) with cur := s.cur } : State).issuer fm) = some q
      ∧ q.pcMatch = none
    (free → sound → q.f.jr.length < 2 → handler → exec (.juryrig (.group p m l)) s = .next (q.countedFate.modTeam (fun t =>
        t.enterHandler q.c.g q.c.f q.ex (fun depth => windowWords q.c q.g.mr depth (q.ex == 0)) q.c.addr (q.c.addr + BitVec.ofNat 64 q.c.len) false)))
    ∧ (free → 2 ≤ q.f.jr.length → exec (.juryrig (.group p m l)) s = .next (q.trapped (q.trap clsEmul)))
    ∧ (free → q.f.jr.length < 2 → ¬handler → exec (.juryrig (.group p m l)) s = .next (q.trapped (q.trap clsJuryrig)))
    ∧ (free → ∀ tr, q.regError = some tr → q.f.jr.length < 2 → handler → exec (.juryrig (.group p m l)) s = .next (q.trapped tr))
    ∧ (free → exec (.illegal (.group p m l)) s = .next (q.trapped { q.trap clsIllegal with len := q.c.trapLen }))
    ∧ (free → s.fuses.lcs ≠ 3 → exec (.vendorTest (.group p m l)) s = .next (q.trapped { q.trap clsIllegal with len := q.c.trapLen }))
    ∧ (free → sound → s.fuses.lcs = 3 → exec (.vendorTest (.group p m l)) s = .next (q.counted.s.vendor q.c.team))
    ∧ (s.streamIssuer = some qs → exec (.illegal (.stream w)) s = .next (qs.trapped (qs.trap clsIllegal)))
    ∧ (s.streamIssuer = some qs → s.fuses.lcs ≠ 3 → exec (.vendorTest (.stream w)) s = .next (qs.trapped (qs.trap clsIllegal)))
    ∧ (s.streamIssuer = some qs → s.fuses.lcs = 3 → exec (.vendorTest (.stream w)) s = .next (qs.done ((qs.counted 0).s.vendor qs.c.team)))
    ∧ (s.streamIssuer = some qs → qs.t.lowestLive = none →
        exec (.juryrig (.stream w)) s = .next (qs.trapped (qs.trap clsJuryrig)))

/-- What entering the handler saves and where it goes, and what leaving it restores, whatever the handler did. Entering the handler pushes a
level that holds the window words, JRPC, JRNEXT, the open windows, the wait and the pc, opens no window, ends the wait and goes to the
image base plus JRHANDLER; V, Q and L registers keep their values, and the bank frame of the depth takes the reserve V, the Q and the L
registers of each lane of the fragment, X and a hold of 0. Let the handler then change the lanes in any way but for those frames and X,
and the fragment in any way but for its levels and for lanes that leave it. ERET gives the fragment back with its windows and wait, at
JRPC; EMRET gives it back at JRNEXT with its windows counted once. Either restores in every lane the reserve V, Q and L registers that
stood at the entry, and leaves the other V registers as the handler left them; EMRET.l then shifts the last-result file of each lane of X
by the value of slot 0's register, or by the hold. Rests on R119, R122, R352, R353, R354, R355. -/
def Obligations.HandlerEntryAndReturn : Prop :=
  ∀ (t u : Team) (g h : Group) (f k : Frag) (gi fi : Nat) (x : Mask) (w : Nat → List Word) (jrpc jrnext : DWord),
    t.body.groups[gi]? = some g → g.frags[fi]? = some f →
    let d := f.jr.length + 1
    let reserve := fun n => t.hdr.budget g.role - 16 ≤ n ∧ n < t.hdr.budget g.role
    let frag := fun (t : Team) => (t.body.groups[gi]?).bind (fun g => g.frags[fi]?)
    let frame := fun (ln : Lane) => if d = 1 then ln.frame1 else ln.frame2
    let inX := fun (ln : Lane) => if d = 1 then ln.x1 else ln.x2
    let hold := fun (ln : Lane) => if d = 1 then ln.hold1 else ln.hold2
    let e := t.enterHandler gi fi x w jrpc jrnext false
    let lv : JrLevel := { id := g.nextId, w := w d, jrpc := jrpc, jrnext := jrnext, wins := f.wins, wait := f.wait, stream := false, pc := f.pc }
    let r0 := bitsOf ((w d).getD 4 0) 15 0
    frag e = some { f with jr := lv :: f.jr, wins := [], wait := .none, pc := t.image + BitVec.ofNat 64 t.hdr.jrhandler }
    ∧ (∀ lid, (e.lane lid).v = (t.lane lid).v ∧ (e.lane lid).q = (t.lane lid).q ∧ (e.lane lid).l = (t.lane lid).l)
    ∧ (∀ i ∈ maskList f.mask, g.first + i < t.body.lanes.length →
        let a := t.lane (g.first + i)
        let b := e.lane (g.first + i)
        (frame b).q = a.q ∧ (frame b).l = a.l ∧ (∀ n, reserve n → (frame b).v.get n = a.v.get n) ∧ inX b = x.getLsbD i ∧ hold b = 0)
    ∧ (u.hdr = t.hdr → u.body.lanes.length = t.body.lanes.length →
        (∀ lid, frame (u.lane lid) = frame (e.lane lid) ∧ inX (u.lane lid) = inX (e.lane lid)) →
        u.body.groups[gi]? = some h → h.frags[fi]? = some k → h.role = g.role → h.first = g.first →
        k.jr.length = d → k.jr.head? = some lv → k.jr.tail = f.jr → (∀ i ∈ maskList k.mask, i ∈ maskList f.mask) →
        frag (u.leaveHandler gi fi false false) = some { k with jr := f.jr, wait := f.wait, wins := f.wins, pc := jrpc }
        ∧ (∀ lst, frag (u.leaveHandler gi fi true lst) = some { k with jr := f.jr, wait := f.wait, wins := f.wins.map Window.count, pc := jrnext })
        ∧ (∀ em lst, ∀ i ∈ maskList k.mask, g.first + i < t.body.lanes.length →
          let a := t.lane (g.first + i)
          let b := u.lane (g.first + i)
          let z := (u.leaveHandler gi fi em lst).lane (g.first + i)
          let shift := fun (y : Word) => (((a.l.set 3 (a.l.get 2)).set 2 (a.l.get 1)).set 1 (a.l.get 0)).set 0 y
          z.q = a.q ∧ (∀ n, reserve n → z.v.get n = a.v.get n) ∧ (∀ n, ¬reserve n → z.v.get n = b.v.get n)
          ∧ (em = false ∨ lst = false ∨ x.getLsbD i = false → z.l = a.l)
          ∧ (em = true → lst = true → x.getLsbD i = true →
            (r0 < 0x100 → z.l = shift (z.v.get r0)) ∧ (0x100 ≤ r0 → r0 < 0x110 → z.l = shift (a.q.get (r0 - 0x100)))
            ∧ (r0 = 0x110 ∨ r0 = 0x114 → z.l = shift (hold b)) ∧ (0x110 < r0 → r0 ≠ 0x114 → z.l = a.l))))

/-- ECARD, ETAIL, ESEQ and EWAIT. ECARD puts the half card of the lanes of EXEC in flight on path 4 where the slot is inside the chain's ring
and the store passes its checks; with no lane in EXEC only its window opens (the model's own choice, log 28, DEDUCED). ETAIL of n > 0 with
drained counters, a chain with room and an engine, and legal cards publishes them: at level 0 as a publication the fragment waits for, at
levels 1 and 2 as deferred cards; where a check of its step 2 fails it takes that trap, whose report holds the chain and the position in
fields that the model chose (log 29). ETAIL 0 has no effect. ESEQ writes the chain's completion number, tail or error status; EWAIT goes
on at once where the number has been reached and else waits; at levels 1 and 2 it takes ILLEGAL where the number lies 1 to 2^31 - 1 past
the tail. Each takes the trap of a chain that cannot be read. The trailing side of a checked pair reads no chain of its own: its ETAIL takes
the trap that the leading side's took, or notes no card, and where the leading side read no chain its ECARD goes in flight without a place,
its ETAIL is noted alone, and its ESEQ and EWAIT wait (log 17, DESIGN CHOICE). Rests on R265, R289, R290, R292, R296, R297, R388. -/
def Obligations.CardInstructions : Prop :=
  ∀ (s : State) (q : Iss) (l : Option Word) (k : BitVec 4) (h : BitVec 1) (c : BitVec 4) (a b d : Code) (sel : BitVec 2)
      (ld : Lead) (tr : Trap) (s1 s2 : State) (ccb : Loc) (parts : List Part) (m : Nat)
      (slots : List (Nat × Except SlotErr (List Word))),
    let n := (q.uni .a).toNat
    let slot := (q.uni .b).toNat
    let off := s1.ccbRing ccb + 128 * slot + 64 * h.toNat
    let kept := if q.t.levelNow = 0 then 0 else q.t.deferredCards ccb
    let start := s1.ccbTail ccb + kept
    let cards := (cardsRead slots).map (·.2)
    let past := (n + 2 ^ 32 - s1.ccbTail ccb % 2 ^ 32) % 2 ^ 32
    let pub := fun (id : Nat) (cards : List (List Word)) => ({
      id := id, owner := .chain c.toNat ccb, tenant := q.t.tenant, part := q.t.part, ctx := q.t.ctx, cards := cards,
      start := start, seg := q.segOf 5, det := mrDet q.g.mr, site := some (q.trap clsIllegal) } : Publication)
    let told := fun (s : State) => (s.flushGroup q.c.team q.c.g).telNote q.t (q.telCard [q.telPair c.toNat n])
    let published := fun (s : State) (cards : List (List Word)) =>
      if q.t.levelNow ≠ 0 then (told s).modTeam q.c.team (fun t => { t with deferred := t.deferred ++ [.etail c.toNat ccb cards] })
      else ({ told s with pubs := (told s).pubs ++ [pub (told s).nextId cards], nextId := (told s).nextId + 1 } : State).modGroup q.c.team q.c.g
        (fun g => g.modFrag q.c.f (fun r => { r with wait := .etail (told s).nextId q.c.addr }))
    let appended := fun (s : State) (parts : List Part) =>
      q.counted.enter (s.telNote q.t (q.telCard (cardLanes parts))) 4 .card parts 0 k [] false
    let publishes := Issues (.etail l c a) s q ∧ q.g.drained = true ∧ n ≠ 0
    (Issues (.ecard l k h c a b) s q → q.ex = 0 → exec (.ecard l k h c a b) s = .next (q.counted.enter q.counted.s 4 .card [] 0 k [] true))
    ∧ (Issues (.ecard l k h c a b) s q → q.lanes.head? = some m → q.counted.ccb c.toNat = .ok (s1, ccb) → slot < 2 ^ s1.ccbLog2 ccb →
        segFails (q.segOf 5).limit 64 (Int.ofNat off) = false →
        q.counted.cardParts (q.lid m) ((q.segOf 5).base.toNat + off) s1 (List.range 8) = (s2, .ok parts) →
        q.counted.dataTrap false true (q.lanes.map (fun i => (q.lid i, (q.segOf 5).base.toNat + off))) = none → q.g.counter 4 < 63 →
        exec (.ecard l k h c a b) s = .next (appended s2 parts))
    ∧ (Issues (.ecard l k h c a b) s q → q.lanes.head? = some m → q.counted.ccb c.toNat = .error none → q.g.counter 4 < 63 →
        exec (.ecard l k h c a b) s = .next (appended q.counted.s (q.counted.blindCard m slot h.toNat)))
    ∧ (Issues (.ecard l k h c a b) s q → q.ex ≠ 0 → q.counted.ccb c.toNat = .error (some tr) → exec (.ecard l k h c a b) s = .next (q.trapped tr))
    ∧ (Issues (.etail l c a) s q → q.g.drained = true → n = 0 → exec (.etail l c a) s = .next q.counted.s)
    ∧ (Issues (.etail l c a) s q → q.g.drained = false → exec (.etail l c a) s = .next (q.heldBack .none))
    ∧ (publishes → q.counted.ccb c.toNat = .ok (s1, ccb) → q.t.lead = none →
        kept + n ≤ 2 ^ s1.ccbLog2 ccb → s1.chainEngines ccb q.t.tenant ≠ [] →
        State.readSlots q.t.core? q.t.tenant q.t.ctx (q.segOf 5) ccb s1 ((List.range n).map (start + ·)) = (s2, slots) → slotError slots = none →
        cardsFault (s1.ccbClass ccb) (mrDet q.g.mr) (s1.sysord q.t.tenant) (cardsRead slots) = none →
        exec (.etail l c a) s = .next (published s2 cards))
    ∧ (publishes → q.counted.ccb c.toNat = .ok (s1, ccb) → q.t.lead = none →
        s1.etailRead q.t.core? q.t.tenant q.t.ctx (q.segOf 5) ccb c.toNat start kept n (mrDet q.g.mr) (q.trap clsIllegal) = (s2, .error tr) →
        exec (.etail l c a) s = .next (q.trapped (s2.tookBy q.c.team tr)))
    ∧ (publishes → q.counted.ccb c.toNat = .ok (s1, ccb) → q.t.lead = some ld → ld.fault = none → exec (.etail l c a) s = .next (published s1 []))
    ∧ (publishes → q.counted.ccb c.toNat = .ok (s1, ccb) → q.t.lead = some ld → ld.fault = some tr →
        exec (.etail l c a) s = .next (q.trapped (s1.tookBy q.c.team (tr.echo (q.trap clsIllegal)))))
    ∧ (publishes → q.counted.ccb c.toNat = .error none → exec (.etail l c a) s = .next (told q.counted.s))
    ∧ (publishes → q.counted.ccb c.toNat = .error (some tr) → exec (.etail l c a) s = .next (q.trapped tr))
    ∧ (∀ i ∈ [.eseq d sel c, .ewait l a c], Issues i s q →
        (q.counted.ccb c.toNat = .error none → exec i s = .next (q.heldBack .none))
        ∧ (q.counted.ccb c.toNat = .error (some tr) → exec i s = .next (q.trapped tr)))
    ∧ (Issues (.eseq d sel c) s q → q.counted.ccb c.toNat = .ok (s1, ccb) → exec (.eseq d sel c) s =
        .next (({ q.counted with s := s1 } : Iss).result64 (fun _ => s1.eseqValue ccb sel.toNat)))
    ∧ (Issues (.ewait l a c) s q → q.counted.ccb c.toNat = .ok (s1, ccb) → q.t.levelNow ≠ 0 ∧ 1 ≤ past ∧ past < 2 ^ 31 →
        exec (.ewait l a c) s = .next (q.trapped (s1.tookBy q.c.team (q.trap clsIllegal))))
    ∧ (Issues (.ewait l a c) s q → q.counted.ccb c.toNat = .ok (s1, ccb) → ¬(q.t.levelNow ≠ 0 ∧ 1 ≤ past ∧ past < 2 ^ 31) → seqReached (s1.ccbSeq ccb) n = true →
        exec (.ewait l a c) s = .next ((s1.renewL1 q.c.team q.c.g).modGroup q.c.team q.c.g (fun g => { g with hang := 0 })))
    ∧ (Issues (.ewait l a c) s q → q.counted.ccb c.toNat = .ok (s1, ccb) → ¬(q.t.levelNow ≠ 0 ∧ 1 ≤ past ∧ past < 2 ^ 31) → seqReached (s1.ccbSeq ccb) n = false →
        exec (.ewait l a c) s = .next (((s1.modGroup q.c.team q.c.g (fun g => g.modFrag q.c.f (fun f => { f with wait := .ewait ccb n }))).modGroup
          q.c.team q.c.g Group.fixSlots).stopIdle q.c.team))

/-- GRAPH and GCOND: done at once at level 0, deferred at levels 1 and 2, DET_SCOPE under DET, ILLEGAL for a number that names nothing. GRAPH
queues a start of a loaded graph with its argument where the queue has room, and is held back where it has none; GCOND writes one of the
256 condition words. Both perform the group's earlier accesses first, and a checked pair notes them to be compared. At levels 1 and 2 they
join the task's deferred list. A graph that is not loaded or a condition index of 256 or more takes ILLEGAL, then MR.DET takes DET_SCOPE.
Whether a graph is loaded is, on the trailing side of a checked pair, what the leading side was told (log 17). Rests on R292, R302, R303,
R386, R388. -/
def Obligations.GraphInstructions : Prop :=
  ∀ (s : State) (q : Iss) (l : Option Word) (a b : Code) (p : Partition),
    q.counted.s.parts[q.t.part]? = some p →
    let u := q.uni .a
    let v := q.uni .b
    let loaded := match q.t.lead with
      | some ld => ld.trapped clsIllegal = none
      | none => ∃ r ∈ p.graphs, r.num = u.toNat
    let det := mrDet q.g.mr = true
    let f := (q.counted.s.flushGroup q.c.team q.c.g).telNote q.t (q.telCard [q.telPair u.toNat v.toNat])
    let defer := fun (x : Deferred) => f.modTeam q.c.team (fun t => { t with deferred := t.deferred ++ [x] })
    (Issues (.graph l a b) s q → ¬loaded → exec (.graph l a b) s = .next (q.trapped (q.trap clsIllegal)))
    ∧ (Issues (.graph l a b) s q → loaded → det → exec (.graph l a b) s = .next (q.trapped (q.trap clsDet)))
    ∧ (Issues (.graph l a b) s q → loaded → ¬det → q.t.levelNow ≠ 0 → exec (.graph l a b) s = .next (defer (.graph u v)))
    ∧ (Issues (.graph l a b) s q → loaded → ¬det → q.t.levelNow = 0 → p.starts.length < 16 →
        exec (.graph l a b) s = .next (f.modPart q.t.part (fun p => { p with starts := p.starts ++ [(u, v)] })))
    ∧ (Issues (.graph l a b) s q → loaded → ¬det → q.t.levelNow = 0 → 16 ≤ p.starts.length → exec (.graph l a b) s = .next (q.heldBack .none))
    ∧ (Issues (.gcond l a b) s q → 256 ≤ u.toNat → exec (.gcond l a b) s = .next (q.trapped (q.trap clsIllegal)))
    ∧ (Issues (.gcond l a b) s q → u.toNat < 256 → det → exec (.gcond l a b) s = .next (q.trapped (q.trap clsDet)))
    ∧ (Issues (.gcond l a b) s q → u.toNat < 256 → ¬det → exec (.gcond l a b) s = .next (if q.t.levelNow ≠ 0 then defer (.gcond u v)
        else f.modPart q.t.part (fun p => { p with cond := p.cond.set u.toNat v })))

/-- LDMB, MSTART, MACC.RD and MACC.WR, and ILLEGAL without a matrix stream. LDMB whose registers fit the budget and do not meet its address
pair, whose image passes the SEG check and translates, goes in flight for the lowest lane of EXEC; with no lane only its window opens,
which is the model's own choice (log 28, DEDUCED: R314 says no effect). MSTART of a legal control word copies the B block into its buffer
with its format tag and opens a window, or takes MEM_UE where a register of the block holds an uncorrectable error (R236). MACC.RD reads
the accumulator word each lane of EXEC names; MACC.WR writes them, in ascending lids under DET and else in an order left open (log 9).
Without a matrix stream MSTART and MACC take ILLEGAL (R312). Rests on R236, R311, R312, R313, R314, R315, R326, R331. -/
def Obligations.MatrixGroupInstructions : Prop :=
  ∀ (s : State) (q : Iss) (l : Option Word) (k : BitVec 4) (t a b d : Code) (sp u : BitVec 1) (fmt : BitVec 5) (m : Nat)
      (s1 : State) (parts : List Part) (st : Stream),
    let c := fmt.toNat
    let first := blockFirst (q.fm.at .d)
    let n := blockRegs c q.g.count
    let size := mfImage 32 c
    let put := fun (s : State) (parts : List Part) (empty : Bool) =>
      (q.counted.enter s sp.toNat (.block first n size) parts 0 k [] empty).modGroup q.c.team q.c.g (fun g =>
        g.modWindow q.counted.g.nextId (fun w => { w with dst := [.v first n], whole := true }))
    let room := first + n ≤ q.t.hdr.budget q.g.role ∧ ¬(1 < n ∧ spansMeet (first, n) (blockFirst q.opA, 2) = true ∧ (first, n) ≠ (blockFirst q.opA, 2))
    let off : Int := Int.ofNat (q.a64 m).toNat
    let ctl := q.uni .b
    let bf := bitsOf ctl 4 0
    let base := blockFirst q.opA
    let block : Staging := { bytes := Cells.setRange [] 0 ((List.range (mfImage 32 bf)).map (q.t.blockByte q.g base)), tag := some bf }
    (IssuesTo (.ldmb k t a sp fmt) [.v first n] s q → room → q.ex = 0 → exec (.ldmb k t a sp fmt) s = .next (put q.counted.s [] true))
    ∧ (IssuesTo (.ldmb k t a sp fmt) [.v first n] s q → room → q.lanes.head? = some m → imageSegFails (q.segOf sp.toNat).limit size off = false →
        q.counted.imageParts (q.lid m) (q.formed sp.toNat off m) (sp == 1) q.counted.s (List.range (size / 8)) = (s1, .ok parts) →
        (sp = 1 ∨ q.counted.dataTrap true false [(q.lid m, q.formed sp.toNat off m)] = none) → q.g.counter sp.toNat < 63 →
        exec (.ldmb k t a sp fmt) s = .next (put s1 parts false))
    ∧ (Issues (.mstart l k u a b) s q → q.t.body.stream.isSome = true → bf ≠ 0 → ctl &&& ~~~0x31F = 0 →
        base + blockRegs bf q.g.count ≤ q.t.hdr.budget q.g.role → q.blockError base (blockRegs bf q.g.count) = none → exec (.mstart l k u a b) s = .next
          ((q.counted.modTeam (fun t => t.modStream (fun st => { st with b := listModify st.b (4 * u.toNat + bitsOf ctl 9 8) (fun _ => block) }))).modGroup
            q.c.team q.c.g (fun g => { (g.openWindow q.c.f (q.counted.plainWindow k)) with nextId := g.nextId + 1 })))
    ∧ (∀ tr, Issues (.mstart l k u a b) s q → q.t.body.stream.isSome = true → bf ≠ 0 → ctl &&& ~~~0x31F = 0 →
        base + blockRegs bf q.g.count ≤ q.t.hdr.budget q.g.role → q.blockError base (blockRegs bf q.g.count) = some tr →
        exec (.mstart l k u a b) s = .next (q.trapped tr))
    ∧ (Issues (.maccRd l d a) s q → q.t.body.stream = some st → exec (.maccRd l d a) s =
        .next (q.counted.result (fun i => st.acc.get ((q.a i).toNat % 2 ^ 15))))
    ∧ (Issues (.maccWr l a b) s q → q.t.body.stream = some st →
        let r := q.counted.modTeam (fun t => t.modStream (fun st =>
          { st with acc := q.counted.accOrder.foldl (fun c i => c.set ((q.a i).toNat % 2 ^ 15) (q.b i)) st.acc }))
        exec (.maccWr l a b) s = .next { r with freeCount := r.freeCount + 1 })
    ∧ (∀ i ∈ [.mstart l k u a b, .maccRd l d a, .maccWr l a b], Issues i s q → q.t.body.stream = none →
        exec i s = .next (q.trapped (q.trap clsIllegal)))

/-- MZERO, MSCALE, MMA, MLDA, MACC.RD and MACC.WR of the stream. Where the tile is legal and, for MMA, the buffers hold the formats: MZERO
writes +0 into the tile, MSCALE scales each element, MMA leaves acc(r, c) as the tree of R320 gives it. MLDA loads the A image and tags it
where the range is in the scratchpad and no word of it has an error; MACC.RD and MACC.WR move a slot between store and scratchpad. Each
completes and the sequencer goes on (SIss.done). An illegal tile takes ILLEGAL, a range outside the scratchpad takes SEG. Rests on R307,
R311, R317, R318, R319, R320, R330, R332. -/
def Obligations.StreamArithmetic : Prop :=
  ∀ (s : State) (q : SIss) (at' : BitVec 2) (slot : BitVec 3) (scl : BitVec 8) (af bf fmt : BitVec 5) (ab bb ovw abuf : BitVec 1)
      (lsel : BitVec 2) (stride off : BitVec 16), s.streamIssuer = some q →
    let z := q.counted 0
    let a := z.offset off stride lsel
    let n := mfImage 64 fmt.toNat
    let b := 32 * off.toNat
    let w := q.counted 512
    let scaled := fun (x : Nat) => (({ f := accFmt at', mode := 0, rv := 0, ftz := false } : RCtx).scale ((accFmt at').decode x) scl.toInt).1
    let loaded : List Staging → List Staging := fun l => listModify l abuf.toNat (fun _ => { bytes := cutBytes q.t.body.scratch a.toNat n, tag := some fmt.toNat })
    let filled := fun (acc : Cells 32) => (cutBytes q.t.body.scratch b 16384).foldl (fun c p =>
      c.set (slotWord slot.toNat p.1) (c.get (slotWord slot.toNat p.1) ||| BitVec.ofNat 32 (p.2.toNat * 2 ^ (8 * (p.1 % 4)))))
      (acc.keep (fun k => slotOf k != slot.toNat))
    let spilled := fun (c : Cells 8) => (q.st.acc.filter (fun p => slotOf p.1 == slot.toNat)).foldl (fun c p =>
      c.writeNat (b + slotByte p.1) 4 p.2.toNat) (c.keep (fun k => !(decide (b ≤ k) && decide (k < b + 16384))))
    (tileOk at' slot = true → exec (.mzero at' slot) s = .next (q.done (z.modStream (fun st => { st with acc := clearTile st.acc at' slot }))))
    ∧ (tileOk at' slot = true → exec (.mscale scl at' slot) s = 
        .next (q.done (z.modStream (fun st => { st with acc := mapTile st.acc at' slot scaled }))))
    ∧ (tileOk at' slot = false → ∀ i ∈ [.mzero at' slot, .mscale scl at' slot, .mma af bf at' slot ab bb ovw],
        exec i s = .next (q.trapped (q.trap clsIllegal)))
    ∧ (af ≠ 0 → bf ≠ 0 → mfK af.toNat = mfK bf.toNat → tileOk at' slot = true → q.mmaReady af.toNat bf.toNat ab.toNat bb.toNat = true →
        exec (.mma af bf at' slot ab bb ovw) s = .next (q.done ((q.counted 4096).modStream (fun st =>
          { st with acc := q.mmaAcc af.toNat bf.toNat at' slot ab.toNat bb.toNat (ovw == 1) }))))
    ∧ (fmt ≠ 0 → lsel ≠ 3 → w.rangeFails 32 a n = false → w.scratchUE a.toNat n = none → exec (.mlda fmt abuf lsel stride off) s =
        .next (q.done (w.modStream (fun st => { st with a := loaded st.a }))))
    ∧ (fmt ≠ 0 → lsel ≠ 3 → w.rangeFails 32 a n = true → exec (.mlda fmt abuf lsel stride off) s = .next (q.trapped (q.segTrap a)))
    ∧ (w.rangeFails 32 (Int.ofNat b) 16384 = false → exec (.maccRdStream slot off) s = .next (q.done (w.s.modTeam q.c.team (fun t => t.modBody (fun bd =>
        { bd with scratch := spilled bd.scratch, scratchUE := clearScratchUE bd.scratchUE b 16384 })))))
    ∧ (w.rangeFails 32 (Int.ofNat b) 16384 = false → w.scratchUE b 16384 = none → exec (.maccWrStream slot off) s =
        .next (q.done ((w.modStream (fun st => { st with acc := filled st.acc })).telNote q.t
          (q.telDrain ((cutBytes q.t.body.scratch b 16384).map (fun p => { lid := 0, mask := 1, addr := 16384 * slot.toNat + p.1, data := p.2.toNat }))))))
    ∧ (w.rangeFails 32 (Int.ofNat b) 16384 = true → ∀ i ∈ [.maccRdStream slot off, .maccWrStream slot off],
        exec i s = .next (q.trapped (q.segTrap (Int.ofNat b))))

/-- MARRB, MWAITB, MLOOP, MEND and MDRAIN. MARRB at a barrier of the stream that it has not reached arrives and tests the barrier, and stalls
where it has; it takes ILLEGAL at a barrier that is not the stream's. MWAITB goes on where its phase has passed and counts it, else waits.
MLOOP pushes a loop of a count and body that are not zero at a depth below 2 and inside the enclosing loops, else ILLEGAL. MEND ends the
stream. MDRAIN with legal fields, a descriptor in reach and legal, and output that passes its checks writes its rows, merges its maximum
and clears under CLR. Rests on R307, R322, R323, R324, R325, R327, R328, R329. -/
def Obligations.StreamControl : Prop :=
  ∀ (s : State) (q : SIss) (n : BitVec 4) (count : BitVec 16) (body : BitVec 10) (bar : Barrier) (f : DrainFields) (d : DrainDesc)
      (s1 s2 s3 : State) (outs mp : List Part), s.streamIssuer = some q →
    let z := q.counted 0
    let start := q.c.addr + 8
    let stop := start + BitVec.ofNat 64 (8 * body.toNat)
    let ill := fun (i : Instr) => exec i s = .next (q.trapped (q.trap clsIllegal))
    let k := (q.st.t[n.toNat]?).getD 0
    let legal := count ≠ 0 ∧ body ≠ 0 ∧ q.st.loops.length < 2 ∧ ∀ l ∈ q.st.loops, stop.toNat ≤ l.stop.toNat
    let dz := q.counted 1024
    let a := dz.offset f.doff f.dstride f.lsel
    (q.t.body.barriers[n.toNat]? = some bar →
      (bar.stream = false → ill (.marrb n))
      ∧ (bar.stream = true → bar.streamArr = true → exec (.marrb n) s = .next (q.heldBack (.stallBarrier n.toNat bar.c)))
      ∧ (bar.stream = true → bar.streamArr = false → exec (.marrb n) s =
          .next ((z.s.modTeam q.c.team (fun t => (t.modBody (fun bd =>
            { bd with barriers := listModify bd.barriers n.toNat (fun b => { b with streamArr := true }) })).modStream (fun st =>
              st.advance q.c.addr))).testBarrier q.c.team n.toNat))
      ∧ (phasePassed bar.c k = true → exec (.mwaitb n) s = .next (q.done (z.modStream (fun st => { st with t := listModify st.t n.toNat (· + 1) }))))
      ∧ (phasePassed bar.c k = false → exec (.mwaitb n) s = .next (q.heldBack (.waitBarrier n.toNat))))
    ∧ (legal → exec (.mloop count body) s = .next (z.modStream (fun st =>
        { st with addr := start, loops := { start := start, stop := stop, index := 0, count := count.toNat } :: st.loops })))
    ∧ (¬legal → ill (.mloop count body))
    ∧ (exec .mend s = .next ((((z.modStream (fun st => { st with st := .ended })).drainWc (WcEntry.ofGroup q.c.team streamGroup)).testBarriers q.c.team (·.stream)).fixAll q.c.team))
    ∧ (drainOk f = false → ill (.mdrain f))
    ∧ (drainOk f = true → dz.rangeFails 32 a 32 = false → dz.scratchUE a.toNat 32 = none → dz.desc f a.toNat = some d →
        dz.drainSeg (drainSpans f d ++ (if f.maxen = 1 then [(!d.maxsp, d.maxaddr, 4)] else [])) = none →
        dz.drainParts dz.s f d = (s1, .ok outs) → dz.mergeParts f d s1 = (s2, .ok mp) → mp.find? (s2.partPoisoned q.t) = none →
        dz.mergeTrap f = none → s2.takeFor q.t (partLines (outs ++ mp)) = (s3, none) →
        exec (.mdrain f) s = .next (q.done (dz.drainEffect f s3 outs mp)))

/-- Exit arrivals, ageing, HANG, grace, accesses that finish, page walks. A fragment at the join address of its top entry, every result
delivered, closes its windows, is parked there, and what that completes completes. A slot's fragment that has issued 64 instructions gives
its slot up. A group whose hang count is 2^27 traps with every live lane, at the pc of its oldest live fragment. A group without grace
left stops. Some lanes of an access in flight finish, with what must come before them (under DET every lower lane too), and the counter
waits that are over end. A miss is walked: it changes nothing but the TLBs, the L2's standing lines and counts, and the last host request.
Rests on R51, R185, R186, R200, R202, R242, R245, R252, R342, R346, R348, R371. -/
def Obligations.FragmentEvents : Prop :=
  ∀ (s : State) (tid gi fi op core ctx va : Nat) (lanes : Mask) (keepL1 : Bool) (acc : AccessKind) (t : Team) (g : Group) (f : Frag) (o : Op)
      (c : Context) (k : Core), s.team? tid = some t → t.body.groups[gi]? = some g →
    let live := g.frags.filter (·.isLive)
    let lids := g.lids (live.foldl (fun m f => m ||| f.mask) 0)
    let hangTrap : Trap := { id := 0, cls := 12, depth := f.jr.length, g := gi, pc := f.pc, lid := lids.headD 0, task := t.body.task, lids := lids }
    let named := fun (p : Part) => lanes.getLsbD (g.ix p.lid)
    let chosen := fun (p : Part) => named p || (mrDet g.mr && o.parts.any (fun x => named x && decide (p.lid < x.lid)))
    (g.frags[fi]? = some f → t.runs g = true → f.atExit = true → (∀ w ∈ f.wins, w.done = true) → exec (.exitArrival tid gi fi) s =
        .next ((s.modTeam tid (fun t => (t.deliverWhere gi fi (fun _ => true)).modGroup gi (fun g =>
          g.modFrag fi (fun f => { f with park := .exitArrived })))).settle tid gi))
    ∧ (g.frags[fi]? = some f → f.slot.isSome = true → 64 ≤ f.count →
        exec (.fragmentAgeing tid gi fi) s = .next (s.modGroup tid gi (fun g => g.rotate f.mask)))
    ∧ (2 ^ 27 ≤ g.hang → t.runs g = true → live.head? = some f → exec (.hang tid gi) s = .next (s.takeTrap tid hangTrap))
    ∧ (g.grace = some 0 → g.stopped = false →
        exec (.preemptGraceExpiry tid gi) s = .next (s.modGroup tid gi (fun g => { g with stopped := true })))
    ∧ (g.flight.find? (fun o => o.id == op) = some o → o.fin = false → (o.parts = [] ∨ ∃ p ∈ o.parts, chosen p = true) →
        exec (.inFlightFinish tid gi op lanes keepL1) s =
          .next (((s.flushBefore tid gi op).performOp tid gi op chosen keepL1).endWaits tid gi))
    ∧ (s.ctxs.find? (fun c => c.num == ctx) = some c → s.cores[core]? = some k → acc ∉ [.engine, .walk] → va < 2 ^ 52 →
        (∀ e ∈ k.tlb, e.maps ctx va = false) → ∃ u, exec (.pageWalk core ctx va acc) s = .next u
          ∧ { u with cores := s.cores, clusters := s.clusters, banks := s.banks, stamp := s.stamp, hostReq := s.hostReq } = s
          ∧ (u.cores.map (fun c => { c with tlb := [] })) = s.cores.map (fun c => { c with tlb := [] })
          ∧ (u.clusters.map (fun c => { c with tlb := [] })) = s.clusters.map (fun c => { c with tlb := [] }))

/-- Task boundaries, re-slicing, the end of a team, rollback and Telltale mismatches. A boundary whose counters are at zero commits; once
nothing of the commit waits the next task begins with SR counter and task number one higher, at levels 1 and 2 the snapshot is taken, and
the fragments are released. A drained team is re-sliced and its barrier releases. A team that is over commits, frees what it held and
counts for its grid. The first trap of a task is logged with class 2 and the task runs again from its start; a second is fatal; a full
version runs the task at level-0 semantics where the kernel allows it, else is fatal. A mismatch is logged with class 1: at the first the
task runs again, at the second it moves to a core of the lowest free spare pair and the old slot leaves service, and with none free, or at
the third, or in a run at level-0 semantics (R386), it is fatal. The model's own choices: the release waits until the deferred cards and
graphs are accepted (log 46), the snapshot of a task that begins at a re-slice is taken after it, and a victim team stops there (log 34),
the move waits for a mate that stands in a commit or whose own mismatch comes first (log 62). Rests on R97, R209, R229, R384, R385, R386,
R391, R392, R393, R395. -/
def Obligations.TaskEvents : Prop :=
  ∀ (s : State) (tid : Nat) (t t1 : Team) (b : Boundary) (w n : Nat) (tr : Trap) (m : Mismatch) (j : Nat) (t2 : Team), s.team? tid = some t →
    let s1 := s.commitTask tid
    let begun := ((s1.modTeam tid (fun t => ({ t with
      body := { t.body with srCtr := (t.body.srCtr + 1) % 2 ^ 32, task := (t.body.task + 1) % 2 ^ 32 },
      mode := .first, mcount := 0, issued := false, boundary := none, committed := false } : Team).takeSnap (some b))).releaseBoundary tid b).modTeam
      tid Team.stopAtBoundary
    let free := t.committed = true ∨ (t.mismatch = none ∧ t.rollback = none)
    let d := s.drainTeam tid
    let logged := fun (cls outcome : Nat) => d.commitRecord (d.trapRecord t tr cls outcome)
    let again := fun (s : State) (mode : RunMode) => (s.rollBack tid).modTeam tid (fun t => { t with mode := mode })
    let full := tr.cls = 10
    let h := (s.mates j tid).foldl (fun s x => s.drainTeam x.id) d
    let t' := { t with mcount := t.mcount + 1 }
    let noted := fun (s : State) (outcome : Nat) => s.commitRecord (s.teamRecord t' 1 outcome m.group m.lid m.elem m.pc (mismatchDetail m))
    let back := (h.rollBack tid).modTeam tid (fun t => { t with mcount := t'.mcount })
    let mis := t.pairSlot = some j ∧ t.hdr.level = 2 ∧ t.core?.isSome = true ∧ t.committed = false ∧ (t.mismatch = none ∨ t.mismatch = some m)
    (t.boundary = some b → (∀ g ∈ t.body.groups, g.drained = true) → free → s.commitMoves t = true → s1.team? tid = some t1 →
      exec (.taskBoundary tid) s = .next (if s1.commitDone t1 then
        begun.testBarriers tid (·.task) else s1))
    ∧ (t.reslice = some (w, n) → (∀ g ∈ t.body.groups, g.flight = []) → exec (.reslice tid) s =
        .next (((((s.modTeam tid (fun t => { t with reslice := none })).reslice tid w).finishBarrier tid n).modTeam tid (fun t =>
          if t.issued then t else (t.takeSnap none).stopAtBoundary)).settleAll tid))
    ∧ (t.over = true → t.core?.isSome = true → t.boundary = none → t.reslice = none → free → s.commitMoves t = true → s1.team? tid = some t1 →
      exec (.teamEnd tid) s = .next (if s1.commitDone t1 then ((s1.flushTeam tid).freeTeam tid).countTeamEnd t1.grid else s1))
    ∧ (t.rollback = some tr → t.core?.isSome = true → t.mismatch = none → t.committed = false →
        (¬full → t.mode ≠ .rerun → exec (.taskRollback tid) s = .next (again (logged 2 0) .rerun))
        ∧ (¬full → t.mode = .rerun → exec (.taskRollback tid) s = .next ((logged 2 3).fatalTask t tr))
        ∧ (full → t.hdr.vfall = true → exec (.taskRollback tid) s = .next (again (logged 3 2) .levelZero))
        ∧ (full → t.hdr.vfall = false → exec (.taskRollback tid) s = .next ((logged 3 3).fatalTask t tr)))
    ∧ (mis → t.mode = .levelZero → exec (.telltaleMismatch tid m) s = .next ((noted h 3).fatalTask t' (mismatchTrap m t)))
    ∧ (mis → t.mode ≠ .levelZero → t.mcount = 0 → exec (.telltaleMismatch tid m) s = .next (noted back 0))
    ∧ (mis → t.mode ≠ .levelZero → t.mcount = 1 → (h.spareCore t).isSome = true → (∀ x ∈ h.mates j tid, x.keepsSlot = false) →
        back.team? tid = some t2 → ∀ c w, back.spareCore t2 = some (c, w) →
        exec (.telltaleMismatch tid m) s = .next (((noted back 1).moveToSpare tid c w).leaveSlot j tid))
    ∧ (mis → t.mode ≠ .levelZero → (1 < t.mcount ∨ (t.mcount = 1 ∧ h.spareCore t = none)) →
        exec (.telltaleMismatch tid m) s = .next ((noted back 3).fatalTask t' (mismatchTrap m t)))

/-- Placement, resume, and the three kinds of pre-emption request with their save. The next team of a grid stands on the core that the
placement rules choose, and the grid counts it, unless a saved team comes first: an earlier one of the grid, or one of an earlier grid
that some core takes. A saved team before which none comes stands again on the core that takes it. A vacate or resize that R369 does not
refuse chooses its victims (the partition's free cores in the order of R370, or the cores of the mask with the partners of level-2 teams),
gives every victim team its grace and starts; a refused request is done with code 7; a release ends the holds at once. Requests of a
partition are served one at a time in order of arrival. Once every victim team has stopped they are drained; a trap that this raises in a
task at levels 1 and 2 is served first; then their contexts are saved, what no image holds written to the save area (log 40), the request
is over and its command done with code 0. The model's own choices: a refused request is done with code 7, and a kind above 2 is refused by
PREEMPT_VACATE (log 43, DEDUCED from R369 and R413), and the save waits while a pair of a victim is halted by a mismatch (R392). Rests on
R206, R207, R368, R369, R370, R371, R372, R374, R376, R379, R392, R413. -/
def Obligations.PlacementAndPreemption : Prop :=
  ∀ (s : State) (cmd gid tid part : Nat) (g : Grid) (t : Team) (c w : Nat) (x : Command) (p : Preempt),
    let r := x.request
    let placed := newTeam g s.nextId w (s.firstPipe c s.nextId)
    let first := fun (part grid index : Nat) => ∀ y ∈ s.teams, ¬(y.isSaved = true ∧ y.part = part
      ∧ ((y.grid = grid ∧ y.index < index) ∨ (y.grid < grid ∧ (s.resumeCore y).isSome = true)))
    let turn := s.preempting r.part = false ∧ s.preemptBefore x = false
    let done := fun (s : State) (code : Nat) => s.finishCmd cmd code 0
    let bad := s.refuses r = true
    let begins := fun (victims : List Nat) => (s.victimTeams victims).foldl (fun s t => s.grant t.id r.grace)
      (({ s with preempts := s.preempts ++ [{ part := r.part, victims := victims, grace := r.grace, hold := r.hold, remove := r.clmask, command := cmd }] }
        : State).modCmd cmd (fun x => { x with started := true }))
    let vs := s.victimTeams p.victims
    let drained : State := vs.foldl (fun u t => (u.withdraw t.id).drainTeam t.id) s
    let hit := ∃ t ∈ drained.teams, t.rollback.isSome = true ∧ ∃ v ∈ vs, v.id = t.id
    let ctx := drained.contextOf drained.nextId
    let owner := ((drained.parts[part]?).map (fun (x : Partition) => x.owner)).getD 0
    let areas := (p.victims.filter (fun c => !drained.imageFits c)).map (fun c =>
      (drained.saveAt owner c, contextData drained.freeCount (ctx c) ((drained.teamsOn c).filter (fun t => t.hdr.level == 0))))
    let saved : State := areas.foldl (fun u a => u.writeSave a.1 a.2)
      (vs.foldl (fun u t => u.saveVictim drained.imageFits ctx t.id) { drained with nextId := drained.nextId + 1 })
    let ready := ∀ t ∈ vs, t.stoppedWhole = true ∧ s.pairHalted t = false
    let ended : State := { saved with preempts := saved.preempts.filter (fun y => y.part != part) }
    (s.grid? gid = some g → g.placed < g.teams → first g.part g.id g.placed → s.bestCore g.part s.nextId g.tenant g.hdr g.hdr.wreq = some (c, w) →
      exec (.teamPlacement gid) s = .next (({ s with teams := s.teams ++ [placed], nextId := s.nextId + 1 }.modGrid gid (fun g =>
        { g with placed := g.placed + 1 })).stand s.nextId c))
    ∧ (s.team? tid = some t → t.isSaved = true → first t.part t.grid t.index → s.resumeCore t = some (c, w) →
        exec (.teamResume tid) s = .next (s.standAgain tid c w))
    ∧ (s.cmdOf cmd 0x20 = some x → (r.kind = 0 ∨ 2 < r.kind) → turn → bad → exec (.preemptVacate cmd) s = .next (done s 7))
    ∧ (s.cmdOf cmd 0x20 = some x → r.kind = 0 → turn → ¬bad →
        exec (.preemptVacate cmd) s = .next (begins (s.victimsOf ((s.parts[r.part]?).getD {}) r.ncores)))
    ∧ (s.cmdOf cmd 0x20 = some x → r.kind = 1 → turn → bad → exec (.preemptResize cmd) s = .next (done s 7))
    ∧ (s.cmdOf cmd 0x20 = some x → r.kind = 1 → turn → ¬bad →
        exec (.preemptResize cmd) s = .next (begins (s.withPartners (clusterCores (maskClusters r.clmask)))))
    ∧ (s.cmdOf cmd 0x20 = some x → r.kind = 2 → turn → bad → exec (.preemptReleaseHold cmd) s = .next (done s 7))
    ∧ (s.cmdOf cmd 0x20 = some x → r.kind = 2 → turn → ¬bad →
        exec (.preemptReleaseHold cmd) s = .next (done (s.setHeld (clusterCores (maskClusters r.clmask)) false) 0))
    ∧ (s.preempts.find? (fun y => y.part == part) = some p → ready → hit → exec (.contextSave part) s = .next drained)
    ∧ (s.preempts.find? (fun y => y.part == part) = some p → ready → ¬hit → exec (.contextSave part) s =
        .next ((if p.remove ≠ 0 then ended.removeClusters part p.remove else if p.hold then ended.setHeld p.victims true else ended).finishCmd p.command 0 0))

/-- Reports and their rings, command acceptance, berth decisions, command completion. A trap whose groups have drained is reported to Pilot,
to the PF's ring for a stage-2 fault and else the tenant's, once the reports that come before it in its cycle are out (log 63, DEDUCED) and
where its team stands on no mismatch. The oldest held report goes into a ring with room at TAIL, TAIL rises and the
vector is signalled. The launcher takes the first ready record of a partition's berths in round robin (the PF's queues: in ascending
number after the last): HEAD rises and the command waits to run, or is done with code 7 where the record is malformed; the pending bit of
a PF queue without records is cleared. Of the candidates of a berth, among them a holder with work that has had 8 records accepted, the
one with the best key is mapped and its PASSED cleared, that of the others raised. A berth that is to leave the partition is unmapped, its
state cleared and its bit gone (R408; that the unmapping is this event is log 44, DEDUCED). A finished command leaves, its status and then
DONEVAL are written where they translate, page by page (log 43, DEDUCED), and its vector signalled. Rests on R340, R350, R358, R408, R411,
R412, R413, R415, R416, R417, R418, R419. -/
def Obligations.QueueAndReportEvents : Prop :=
  ∀ (s : State) (tid part b q n cmd pa : Nat) (src : TrapSource) (fn : Fn) (t : Team) (tr : Trap) (l : List Byte) (rest : List (List Byte))
      (p : Partition) (k : Berth) (x : Command) (code : Nat) (c : Qcb) (w : List Word) (ten : Nat),
    let r := s.fnRegs fn
    let verdict := if recOk w ∧ opcodeAllowed (.vf ten) q (recOpcode w) then none else some 7
    let said : Command := { id := s.nextId, fn := .vf ten, queue := q, part := part, ctx := c.ctx, pos := c.head, words := w, code := verdict }
    let taken := fun (x : Command) => let u : State := { s with cmds := s.cmds ++ [x], nextId := s.nextId + 1 }
      (((u.recordPa x.fn c).map (fun pa => u.fnRead x.fn pa 64)).getD u).fnWrite x.fn (c.pa + 20) 4 ((c.head + 1) % 2 ^ 32)
    let order := ((List.range 64).map (fun i => (p.rr + 1 + i) % 64)).filter p.hasBerth
    let ready := ((List.range 256).map (fun i => (s.pfNext + i) % 256)).findSome? (fun q => if s.pfRegs.pending.contains q then
      (s.qcb .pf q).bind (fun c => (s.readyRecord .pf q c.tail).map (fun r => (q, r))) else none)
    let gone : State := { s with cmds := s.cmds.filter (fun x => x.id != cmd) }
    let told := fun (s : State) => if recIrq x.words then s.signalVec x.fn (recVec x.words) else s
    let free := s.unmapped part p
    let waiting := free.filter (fun x => x.2.tail != x.2.head)
    let passes := fun (l : List (Nat × Qcb)) => l.foldl (fun s y => s.fnWrite (.vf p.owner) (y.2.pa + 24) 1 (min (if y.1 = n then 0 else y.2.passed + 1) 255)) s
    let mapped := fun (s : State) (tail : Nat) => (s.modBerth b (fun _ => { queue := some (p.owner, n), tail := tail, accepted := 0 })).clearPending (.vf p.owner) n
    let unasked := ∀ y ∈ free, y.2.tail = y.2.head → (s.fnRegs (.vf p.owner)).pending.contains y.1 = false
    (s.team? tid = some t → t.traps.find? (fun tr => !tr.reported && tr.from src) = some tr → (∀ g ∈ tr.groupsOf t, g.drained = true) →
      t.mismatch = none → (∀ u ∈ s.teams, ∀ y ∈ u.traps, y.reportsBefore tr = false) → exec (.trapReport tid src) s = .next ((s.modTeam tid (fun t => { t with traps := t.traps.map (fun (y : Trap) =>
        if y.id == tr.id then { y with reported := true } else y) })).pushReport (if tr.served = some 2 then .pf else .vf t.tenant) (s.trapBytes t tr)))
    ∧ (r.reports = l :: rest → (r.repTail - r.repHead).toNat ≠ r.ringSize →
        s.fnPa fn (bitsOf r.repBase 45 6 * 64 + 64 * (r.repTail.toNat % r.ringSize)) true = some pa → exec (.reportRingWrite fn) s =
          .next (((s.fnWrite fn pa l.length (natOfBytes l)).modFn fn (fun r => { r with repTail := r.repTail + 1, reports := rest })).signalVec fn (if fn = .pf then 15 else 6)))
    ∧ (s.parts[part]? = some p → p.started = true → order.findSome? (fun b => (s.berthReady b).map (fun r => (b, r))) = some (b, ten, q, c, w) →
        exec (.commandAcceptance (.berths part)) s = .next (((taken said).modPart part (fun p => { p with rr := b })).modBerth b (fun k =>
          { k with accepted := k.accepted + 1 })))
    ∧ (ready = none → s.pfRegs.pending.find? (fun q => (s.qcb .pf q).any (fun c => c.tail == c.head)) = some q →
        exec (.commandAcceptance .pfQueues) s = .next (s.clearPending .pf q))
    ∧ (ready = some (q, c, w) →
        let u : State := { (s.acceptRecord .pf q 0 c w) with pfNext := (q + 1) % 256 }
        exec (.commandAcceptance .pfQueues) s = .next (if (c.head + 1) % 2 ^ 32 = c.tail then u.clearPending .pf q else u))
    ∧ (s.partOfBerth b = some (part, p) → s.berths[b]? = some k → b ∈ p.leaving →
        exec (.berthDecision b) s = .next ((s.modBerth b (fun _ => {})).modPart part (fun p => p.dropBerth b)))
    ∧ (s.partOfBerth b = some (part, p) → s.berths[b]? = some k → b ∉ p.leaving → k.queue = none → (n, c) ∈ waiting →
        (∀ y ∈ waiting, y ≠ (n, c) → berthKey none (n, c) < berthKey none y) →
        unasked → exec (.berthDecision b) s = .next (mapped (passes waiting) c.tail))
    ∧ (∀ m held, s.partOfBerth b = some (part, p) → s.berths[b]? = some k → b ∉ p.leaving → k.queue = some (ten, m) → s.qcb (.vf p.owner) m = some held →
        k.tail ≠ held.head → 8 ≤ k.accepted → waiting ≠ [] → (n, c) ∈ (m, held) :: waiting →
        (∀ y ∈ (m, held) :: waiting, y ≠ (n, c) → berthKey (some m) (n, c) < berthKey (some m) y) →
        unasked → exec (.berthDecision b) s = .next (mapped (passes ((m, held) :: waiting)) (if m = n then k.tail else c.tail)))
    ∧ (s.cmds.find? (fun x => x.id == cmd) = some x → x.code = some code →
        (recDoneAddr x.words = 0 → exec (.commandCompletion cmd) s = .next (told gone))
        ∧ (recDoneAddr x.words ≠ 0 → exec (.commandCompletion cmd) s = .next (told ((gone.fnStore x.fn (recDoneAddr x.words + 8) 8
            (code + 2 ^ 32 * (x.result.getD 0 0).toNat)).fnStore x.fn (recDoneAddr x.words) 8 (recDoneVal x.words)))))
    ∧ (∀ a y last, s.fnPa fn a true = some pa → s.fnPa fn (a + 7) true = some last →
        (a % 4096 ≤ 4088 → s.fnStore fn a 8 y = s.fnWrite fn pa 8 y)
        ∧ (4088 < a % 4096 → let m := 4096 - a % 4096
            s.fnStore fn a 8 y = (s.fnWrite fn pa m y).fnWrite fn (last - 7 + m) (8 - m) (y / 2 ^ (8 * m))))
    ∧ (∀ a y, s.fnPa fn a true = none ∨ s.fnPa fn (a + 7) true = none → s.fnStore fn a 8 y = s)

/-- Acceptance, dispatch and completion of cards, and the Quay links. The first request that its tenant's quota and the device's 1,024 let in,
and that waits behind none, is accepted: its cards, read again where the chain's TAIL has risen since the ETAIL read them (log 29), take
the chain's next positions and the ETAIL goes on, or takes the trap that the reading gives. Dispatch gives the first ready card in tenant
order the lowest idle engine it may use. A running card moves its remaining pieces in ascending order (log 21): one that has moved every
byte leaves the scheduler with code 0; one with an error keeps the pieces before it and is held for a stage's owner or fails with its
ERRCODE; a ready card that its chain's failure overtook completes without effect. A send that arrives at a port whose link is up waits
there; a link that goes down fails every running card of the port with ERRCODE 5. That it also loses what has arrived and is unmatched is
the model's own choice (log 22). Rests on R284, R287, R290, R291, R293, R294, R295, R298, R304, R412, R420. -/
def Obligations.CardEvents : Prop :=
  ∀ (s u : State) (p : Publication) (c : Card) (e card port tag va : Nat) (bytes : List Byte) (err : XErr) (stage : Nat) (cards : List (List Word)) (tr : Trap),
    let link := fun (up : Bool) (arr : Option (List (Nat × List Byte))) => s.modPort port (fun q => { q with up := up, arrived := arr.getD q.arrived })
    let mine := s.cards.find? (fun c => c.id == card) = some c
    let up := ((s.quay[port]?).map (·.up)).getD false
    let fails := fun (s : State) (code : Nat) => (s.noteFailure c.owner c.tenant c.pos code).completeCard c code
    let less := fun (u : State) => ({ u with pubs := u.pubs.filter (fun y => y.id != p.id) } : State)
    let runs := mine ∧ c.engine = some e ∧ c.held = none
    let run := State.engineRun (cardBytes c.words + 4) s card e
    (s.nextPub [] s.pubs = some p → s.pubCards p = (u, .ok cards) → exec .cardAcceptance s =
        .next ((cards.foldl (fun (v : State) w => v.acceptCard p w) (less u)).endEtail p.id))
    ∧ (s.nextPub [] s.pubs = some p → s.pubCards p = (u, .error tr) → exec .cardAcceptance s = .next ((less u).trapEtail p.id tr))
    ∧ (p.site = none ∨ (∃ k ccb, p.owner = .chain k ccb ∧ s.ccbTail ccb = p.start) → s.pubCards p = (s, .ok p.cards))
    ∧ (((List.range 17).map (fun i => (s.engineRR + i) % 17)).findSome? s.pickCard = some (c, e) → exec .cardDispatch s =
        .next { (s.modCard c.id (fun c => { c with engine := some e })) with engineRR := (c.tenant + 1) % 17 })
    ∧ (mine → c.engine = none → c.edges = [] → s.errPosOf c.owner < c.pos → exec (.cardCompletion card) s = .next (s.completeCard c 0))
    ∧ (runs → cardOp c.words ∈ [1, 2, 3] → cardBytes c.words ≤ c.moved → exec (.cardCompletion card) s = .next (s.completeCard c 0))
    ∧ (runs → run = .over u → exec (.cardCompletion card) s = .next (u.completeCard c 0))
    ∧ (∀ n, runs → run = .fails u (.code n) → exec (.cardCompletion card) s = .next (fails u n))
    ∧ (runs → run = .fails u (.fault va err) → err.served = none ∨ (∃ k, c.owner = .command k) → exec (.cardCompletion card) s = .next (fails u 2))
    ∧ (runs → run = .fails u (.fault va err) → err.served = some stage → (∀ k, c.owner ≠ .command k) → exec (.cardCompletion card) s =
        .next ((u.modCard c.id (fun c => { c with held := some stage })).pushReport (if stage = 2 then .pf else .vf c.tenant) (c.faultBytes va err)))
    ∧ (up = true → tag < 2 ^ 32 → exec (.quaySendArrival port tag bytes) s =
        .next (s.modPort port (fun q => { q with arrived := q.arrived ++ [(tag, bytes)] })))
    ∧ (up = true → exec (.quayLinkDown port) s =
        .next (((link false (some [])).cards.filter (fun c => c.engine == some port && cardClass c.words == some 3)).foldl (fun u c => u.failCard c 5)
          (link false (some []))))
    ∧ (up = false → port < 2 → exec (.quayLinkUp port) s = .next (link true none))

/-- Loading and starting graphs, and the nodes of the walker. GRLOAD with a number below 64 of a graph that is not running, 1 to 4,096 nodes,
all legal, replaces the partition's graph of that number; else code 7, and 8 where the records do not translate. GRSTART of a loaded graph
joins a queue that has room. The oldest start begins when no instance of its graph runs (a start behind it waits: log 55): its argument in
condition word 0, node 0 ready, the walker's chain without a failure. The oldest ready node acts: a launch node launches or fails, a card
node publishes its card or fails at the position it would take, a branch or while node readies the successor its condition word picks, a
join readies its successor at its last arrival, a loop end its while node, a set node writes its condition word. The model's own choices
(log 45, DEDUCED): a launch node that the launcher refuses is a failed node, and GRLOAD answers code 7 for a node that is not legal. Rests
on R299, R300, R301, R302, R413. -/
def Obligations.GraphEvents : Prop :=
  ∀ (s u : State) (cmd part graph n err : Nat) (x : Command) (p : Partition) (g aw : Word) (rest : List (Word × Word)) (more : List (Nat × Nat))
      (l : List Byte) (card : List Word), s.parts[part]? = some p →
    let num := recArg x.words 0
    let len := recArg x.words 2
    let loads := s.cmdOf cmd 0x09 = some x ∧ x.part = part
    let legal := num < 64 ∧ 1 ≤ len ∧ len ≤ 4096 ∧ p.runOf num = none
    let nodes := (List.range len).map (fun i => ((wordsOf l).drop (8 * i)).take 8)
    let starts := s.cmdOf cmd 0x0A = some x ∧ x.part = part
    let w := p.nodeOf graph n
    let k := nodeKind w
    let ctx := ((p.graphs.find? (fun g => g.num == graph)).map (·.ctx)).getD 0
    let walks := p.ready = (graph, n) :: more
    let took := s.modPart part (fun p => { p with ready := more })
    let running := took.modPart part (fun p => p.modRun graph (fun r => { r with running := r.running ++ [n] }))
    let failed := fun (v : State) => v.modPart part (fun p => p.nodeDone graph n false)
    let acts := fun (f : Partition → Partition) => exec (.graphNode part) s = .next (took.modPart part f)
    let readies := fun (p : Partition) (y : Nat) => (p.addReady graph [y]).modRun graph id
    (loads → ¬legal → exec (.grload cmd) s = .next (s.finishCmd cmd 7 0))
    ∧ (loads → legal → s.readVa x.tenant x.ctx (recArg x.words 1) (32 * len) = (u, none) → exec (.grload cmd) s = .next (u.finishCmd cmd 8 0))
    ∧ (loads → legal → s.readVa x.tenant x.ctx (recArg x.words 1) (32 * len) = (u, some l) → (∃ y ∈ nodes, nodeOk nodes y = false) →
        exec (.grload cmd) s = .next (u.finishCmd cmd 7 0))
    ∧ (loads → legal → s.readVa x.tenant x.ctx (recArg x.words 1) (32 * len) = (u, some l) → (∀ y ∈ nodes, nodeOk nodes y = true) →
        exec (.grload cmd) s = .next ((u.modPart part (fun p =>
          { p with graphs := p.graphs.filter (fun g => g.num != num) ++ [{ num := num, ctx := x.ctx, nodes := nodes }] })).finishCmd cmd 0 0))
    ∧ (starts → (∀ g ∈ p.graphs, g.num ≠ num) → exec (.grstart cmd) s = .next (s.finishCmd cmd 7 0))
    ∧ (starts → (∃ g ∈ p.graphs, g.num = num) → p.starts.length < 16 → exec (.grstart cmd) s = .next ((s.modPart part (fun p =>
        { p with starts := p.starts ++ [(BitVec.ofNat 32 num, BitVec.ofNat 32 (recArg x.words 1))] })).finishCmd cmd 0 0))
    ∧ (p.started = true → p.starts = (g, aw) :: rest → p.runOf g.toNat = none → exec (.graphStart part) s = .next (s.modPart part (fun p =>
        { p with starts := rest, cond := p.cond.set 0 aw, wErrPos := BitVec.allOnes 64, ready := p.ready ++ [(g.toNat, 0)],
                 runs := p.runs ++ [{ graph := g.toNat, arg := aw, running := [], arrivals := [], error := false }] })))
    ∧ (walks → k = 0 → running.launchAt p.owner part ctx (nodeArg w) false none (some (graph, n)) = (u, none) → exec (.graphNode part) s = .next u)
    ∧ (walks → k = 0 → running.launchAt p.owner part ctx (nodeArg w) false none (some (graph, n)) = (u, some err) →
        exec (.graphNode part) s = .next (failed u))
    ∧ (walks → k = 1 → running.nodeCard p ctx (nodeArg w) = (u, some card) → exec (.graphNode part) s = .next { u with
        pubs := u.pubs ++ [{ id := u.nextId, owner := .walker part, tenant := p.owner, part := part, ctx := ctx, cards := [card], node := some (graph, n) }],
        nextId := u.nextId + 1 })
    ∧ (walks → k = 1 → running.nodeCard p ctx (nodeArg w) = (u, none) → exec (.graphNode part) s =
        .next (failed (u.noteFailure (.walker part) p.owner (u.walkerPos part p) 6)))
    ∧ (walks → k = 2 ∨ k = 3 → acts (fun p => readies p (if p.cond.get (nodeCond w) ≠ 0 then nodeSucc1 w else nodeSucc0 w)))
    ∧ (walks → k = 4 → acts (fun p => p.arrive graph n (nodeNpred w) (nodeSucc0 w)))
    ∧ (walks → k = 5 ∨ 6 < k → acts (fun p => readies p (nodeSucc0 w)))
    ∧ (walks → k = 6 → acts (fun p => readies { p with cond := p.cond.set (nodeCond w) (BitVec.ofNat 32 (nodeWord w 2)) } (nodeSucc0 w)))

/-- Launches, COPY, contexts, translations, DEBUG and SIGNAL. A launch whose record and header pass starts a grid with the next serial and
waits for it; else it is done with the code of the first check it breaks. COPY of up to 2^32 - 1 bytes that do not overlap is a card; of
no bytes is done at once. CTXNEW of an aligned root makes a context and answers its number (which one: log 20). CTXDEL, MAPCODE, TLBINV
and S2INV remove the TLB entries they name; CTXDEL waits until no grid of the context remains, and its code leaves the instruction caches
(log 42). DEBUG sets a comparator of a core of the tenant, whose value names a context of the tenant. SIGNAL is done at once. The model's
own choices (log 43, DEDUCED): a COPY of no bytes is done at once, and a length of 2^32 or more, an overlap, and a context that is not the
tenant's are code 7. A debugger attaches to a context or leaves it. Rests on R83, R287, R348, R360, R363, R367, R405, R412, R413, R414. -/
def Obligations.Commands : Prop :=
  ∀ (s u : State) (cmd ctx code n : Nat) (attached : Bool) (x : Command) (par : List Nat),
    let a := recArg x.words
    let done := fun (s : State) (code data : Nat) => s.finishCmd cmd code data
    let launches := fun (i : Instr) (sys : Bool) =>
      (s.launchAt x.tenant x.part x.ctx (a 0) sys (some x.id) none = (u, some code) → exec i s = .next (done u code 0))
      ∧ (s.launchAt x.tenant x.part x.ctx (a 0) sys (some x.id) none = (u, none) → exec i s = .next (u.modCmd cmd (fun c => { c with started := true })))
    let pub : Publication := { id := s.nextId, owner := .command cmd, tenant := x.tenant, part := x.part, ctx := x.ctx, cards := [copyCard (a 0) (a 1) (a 2)] }
    let mine := s.ownCtx x.tenant (a 0) = true
    let drop := fun (s : State) => s.tlbDropAll (fun e => e.ctx == a 0)
    let core := natBits (a 0) 6 0
    let slot := natBits (a 0) 11 8
    let value := cmpValue slot (BitVec.ofNat 128 (a 1 + 2 ^ 64 * a 2))
    let dbg := (∃ p ∈ s.parts, p.en = true ∧ p.owner = x.tenant ∧ p.hasCore core = true) ∧ s.ownCtx x.tenant (cmpCtx value) = true ∧ slot < 12 ∧ cmpOk slot value = true
    (s.cmdOf cmd 0x01 = some x → launches (.launch cmd) false)
    ∧ (s.cmdOf cmd 0x02 = some x → launches (.syslaunch cmd) true)
    ∧ (s.cmdOf cmd 0x03 = some x → a 2 = 0 → exec (.copy cmd) s = .next (done s 0 0))
    ∧ (s.cmdOf cmd 0x03 = some x → a 2 ≠ 0 → (2 ^ 32 ≤ a 2 ∨ cardOk (copyCard (a 0) (a 1) (a 2)) = false) → exec (.copy cmd) s = .next (done s 7 0))
    ∧ (s.cmdOf cmd 0x03 = some x → a 2 ≠ 0 → a 2 < 2 ^ 32 → cardOk (copyCard (a 0) (a 1) (a 2)) = true → exec (.copy cmd) s =
        .next (({ s with pubs := s.pubs ++ [pub], nextId := s.nextId + 1 } : State).modCmd cmd (fun c => { c with started := true })))
    ∧ (s.cmdOf cmd 0x04 = some x → (s.newCtx x.tenant = none ∨ a 0 % 2 ^ 16 ≠ 0) → exec (.ctxnew cmd) s = .next (done s 7 0))
    ∧ (s.cmdOf cmd 0x04 = some x → s.newCtx x.tenant = some n → a 0 % 2 ^ 16 = 0 → exec (.ctxnew cmd) s =
        .next (done { s with ctxs := s.ctxs ++ [{ num := n, tenant := x.tenant, root := BitVec.ofNat 64 (a 0) }] } 0 n))
    ∧ (¬mine → (s.cmdOf cmd 0x05 = some x → exec (.ctxdel cmd) s = .next (done s 7 0))
        ∧ (s.cmdOf cmd 0x06 = some x → exec (.mapcode cmd) s = .next (done s 7 0))
        ∧ (s.cmdOf cmd 0x07 = some x → exec (.tlbinvCommand cmd) s = .next (done s 7 0)))
    ∧ (s.cmdOf cmd 0x05 = some x → mine → (∀ g ∈ s.grids, g.ctx ≠ a 0) → exec (.ctxdel cmd) s =
        .next (done (drop (State.dropCode { s with ctxs := s.ctxs.filter (fun c => c.num != a 0) } (a 0))) 0 0))
    ∧ (s.cmdOf cmd 0x06 = some x → mine → exec (.mapcode cmd) s =
        .next (done (drop (s.modCtx (a 0) (fun c => { c with codeGen := c.codeGen + 1 }))) 0 0))
    ∧ (s.cmdOf cmd 0x07 = some x → mine → par = (List.range s.parts.length).filter (fun p =>
          ((s.parts[p]?).map (fun (y : Partition) => y.en && y.owner == x.tenant)).getD false) → exec (.tlbinvCommand cmd) s =
        .next (done (par.foldl (fun u p => u.tlbDrop p (fun e => if a 1 = 2 ^ 64 - 1 then e.ctx == a 0 else e.maps (a 0) (a 1))) s) 0 0))
    ∧ (s.cmdOf cmd 0x22 = some x → 16 ≤ a 0 → exec (.s2inv cmd) s = .next (done s 7 0))
    ∧ (s.cmdOf cmd 0x22 = some x → a 0 < 16 → exec (.s2inv cmd) s = .next (done (s.tlbDropAll (fun e => s.ownCtx (a 0) e.ctx)) 0 0))
    ∧ (s.cmdOf cmd 0x0B = some x → ¬dbg → exec (.debugCommand cmd) s = .next (done s 7 0))
    ∧ (s.cmdOf cmd 0x0B = some x → dbg → exec (.debugCommand cmd) s =
        .next (done (s.modCore core (fun k => { k with cmps := listModify k.cmps slot (fun _ => value) })) 0 0))
    ∧ (s.cmdOf cmd 0x0C = some x → exec (.signal cmd) s = .next (done s 0 0))
    ∧ ((∃ c ∈ s.ctxs, c.num = ctx) → exec (.debuggerAttach ctx attached) s = .next (s.modCtx ctx (fun c => { c with debugger := attached })))

/-- RETRY, SKIP and KILL by RESUME and by S2RESUME. An answer that names a reported trap (of its owner's stage): RETRY sets the trapped
fragments to the trapped instruction and SKIP past it, the trap is gone and the slots are refilled; a trap that admits no RETRY refuses it
with code 7, and a fault that its owner serves (every trap that S2RESUME names) refuses SKIP so (R350; log 38); KILL ends the grid with a
fatal outcome. An answer to a served fault of a saved team is kept until its resume (R378). An answer that names a held card: RETRY lets
it go on, SKIP is code 7, KILL fails it with ERRCODE 2. A name that fits nothing, or answer code 3, is code 7. Rests on R341, R342, R350,
R358, R378, R413. -/
def Obligations.ResumeAnswers : Prop :=
  ∀ (s : State) (cmd : Nat) (x : Command) (t : Team) (tr : Trap) (k : Card),
    ∀ z ∈ ([(0x08, false, .resumeRetry cmd, .resumeSkip cmd, .resumeKill cmd), (0x21, true, .s2resumeRetry cmd, .s2resumeSkip cmd, .s2resumeKill cmd)] :
      List (Nat × Bool × Instr × Instr × Instr)),
    s.cmdOf cmd z.1 = some x →
    let done := fun (s : State) (code : Nat) => Host.Outcome.next (φ := Fault) (ρ := Refusal) (s.finishCmd cmd code 0)
    let answer := natBits (recArg x.words 1) 9 8
    let card := natBits (recArg x.words 1) 7 0 = 0xFE
    let waits := tr.served.isSome = true ∧ t.isSaved = true
    let answered := fun (retry : Bool) => (s.modTeam t.id (fun t => t.answer tr retry)).modTeam t.id (fun t =>
      t.modBody (fun b => { b with groups := b.groups.map Group.fixSlots }))
    (answer = 0 → ¬card → s.namedTrap x z.2.1 = some (t, tr) → tr.late = false →
        exec z.2.2.1 s = done (if waits then s.keepAnswer t tr 0 else answered true) 0)
    ∧ (answer = 0 → ¬card → s.namedTrap x z.2.1 = some (t, tr) → tr.late = true → exec z.2.2.1 s = done s 7)
    ∧ (answer = 1 → ¬card → s.namedTrap x z.2.1 = some (t, tr) → tr.served = none → exec z.2.2.2.1 s = done (answered false) 0)
    ∧ (answer = 1 → ¬card → s.namedTrap x z.2.1 = some (t, tr) → (∃ m, tr.served = some m) → exec z.2.2.2.1 s = done s 7)
    ∧ (answer = 2 → ¬card → s.namedTrap x z.2.1 = some (t, tr) → exec z.2.2.2.2 s = done (if waits then s.keepAnswer t tr 2 else s.killGrid t.grid tr.cls) 0)
    ∧ (answer = 0 → card → s.namedCard x z.2.1 = some k → exec z.2.2.1 s = done (s.modCard k.id (fun k => { k with held := none })) 0)
    ∧ (answer = 1 → card → exec z.2.2.2.1 s = done s 7)
    ∧ (answer = 2 → card → s.namedCard x z.2.1 = some k → exec z.2.2.2.2 s = done (s.failCard k 2) 0)
    ∧ (answer = 3 → exec z.2.2.1 s = done s 7)
    ∧ ((if card then s.namedCard x z.2.1 = none else s.namedTrap x z.2.1 = none) →
        (answer = 0 → exec z.2.2.1 s = done s 7) ∧ (answer = 1 → exec z.2.2.2.1 s = done s 7) ∧ (answer = 2 → exec z.2.2.2.2 s = done s 7))

/-- Rails, thermal steps and shutdown, brownout, charge, the L2 window, bring-up and resets. A rail whose raise settles stands at the voltage
of the level it sought; one whose hold has run begins to fall. A reading below 125 degrees sets the thermal step; the shutdown logs class
4, gates every cluster, brings every rail to 0 V and keeps no team, card, core or bank; brownout logs class 5 and ends the log. A cluster
cycle leaves CR = max(0, CR + C - B) and C = 0. A bank acts on a window that ended: fewer than 1,024 misses enable no way, 8,192 or more
gate none, any other count changes nothing. Power-up runs the bring-up over memory that was lost, an FLR of the PF over the memory as it
stands: with the firmware slots as at reset (and nothing staged) PHASE is then 4, memory is empty, the rails stand at level 6, and every
register block is at its reset value; where no slot verifies it halts with every clock stopped and keeps nothing that power lost. An FLR
of VF v ends its tenant's grids and clears its queues and registers. The model's own choices (log 16): the factory's slot at reset, which
verifies but in FIELD under another owner, and what is left of a part without power; the votes of a task that R391 has moved (log 59).
Rests on R215, R257, R400, R421, R422, R426, R427, R429, R430, R431, R434. -/
def Obligations.PowerEvents : Prop :=
  ∀ (s : State) (k rail bank v m : Nat) (rest : List Nat) (celsius : Int) (r : Rail) (c : Cluster) (b : Bank),
    let fresh := fun (u : State) => u.boot.phase = 4 ∧ u.mem = [] ∧ u.teams = [] ∧ u.cards = [] ∧ u.cmds = [] ∧ u.parts = State.reset.parts
      ∧ u.tenants = State.reset.tenants ∧ u.vfs = State.reset.vfs ∧ u.pfRegs = State.reset.pfRegs ∧ u.hm.log = s.hm.log
      ∧ u.fuses = s.fuses ∧ u.hostMem = s.hostMem ∧ u.retention = 750 ∧ ∀ r ∈ u.rails, r.mv = 550
    let plainFw := s.boot.slots = State.reset.boot.slots ∧ s.fuses.rollback = 0 ∧ (s.fuses.lcs ≠ 2 ∨ s.fuses.owner = factoryOwner)
    let killed : State := (s.grids.filter (fun (g : Grid) => g.tenant == v - 1)).foldl (fun (s : State) g => s.killGrid g.id 0) s
    let dropped : State := { killed with berths := killed.berths.map (fun (b : Berth) =>
      if b.queue.any (fun (q : Nat × Nat) => q.1 == v - 1) then {} else b) }
    let gone := fun (u : State) => u.teams = [] ∧ u.cards = [] ∧ u.cores = State.reset.cores ∧ u.banks = State.reset.banks ∧ ∀ c ∈ u.clusters, c.gated = true
    (s.rails[rail]? = some r → r.raising = true →
      exec (.railRaiseSettled rail) s = .next (s.modRail rail (fun r => { r with mv := levelMv r.sought, raising := false })).revote)
    ∧ (s.rails[rail]? = some r → r.hold = true →
        exec (.railLowerHoldExpiry rail) s = .next (s.modRail rail (fun r => { r with hold := false, falling := true })).revote)
    ∧ (s.up = true → celsius < 125 → k < 48 → exec (.thermalStep k celsius) s =
        .next (s.modCluster k (fun c => { c with thermal := max (thermalUp celsius) (thermalFall celsius c.thermal) })).revote)
    ∧ (s.hm.thermalDown = false → k < 48 → ∃ u, exec (.thermalShutdown k) s = .next u ∧ u.hm.thermalDown = true ∧ u.up = false
        ∧ gone u ∧ (∀ r ∈ u.rails, r.mv = 0) ∧ u.retention = 0
        ∧ (s.hm.brownout = false → u.hm.seq = s.hm.seq + 1))
    ∧ (s.hm.brownout = false → ∃ u, exec .brownout s = .next u ∧ u.hm.brownout = true ∧ u.hm.seq = s.hm.seq + 1
        ∧ { u with hm := s.hm } = s ∧ ∀ x, u.commitRecord x = u)
    ∧ (k < 48 → s.clusters[k]? = some c → ∃ u, exec (.chargeRecordUpdate k) s = .next u ∧ ∃ c', u.clusters[k]? = some c'
        ∧ (c'.cr : Int) = max 0 (c.cr + c.charge - Config.budgetB c.level) ∧ c'.charge = 0 ∧ ∀ j, j ≠ k → u.clusters[j]? = s.clusters[j]?)
    ∧ (s.banks[bank]? = some b → b.windows = m :: rest → ∃ u, exec (.l2Window bank) s = .next u ∧ ∃ b', u.banks[bank]? = some b'
        ∧ b'.windows = rest ∧ { u with banks := s.banks } = s ∧ (1024 ≤ m → m < 8192 → b'.ways = b.ways ∧ b'.lines = b.lines)
        ∧ (8192 ≤ m → b'.lines = b.lines ∧ ∀ w, b.ways.getLsbD w = true → b'.ways.getLsbD w = true)
        ∧ (m < 1024 → ∀ w, b'.ways.getLsbD w = true → b.ways.getLsbD w = true))
    ∧ (exec .powerUp s = .next s.powerLost.bringUp)
    ∧ (4 ≤ s.boot.phase → s.hm.thermalDown = false → exec .pfFlr s = .next s.bringUp)
    ∧ (plainFw → ∃ u, exec .powerUp s = .next u ∧ fresh u)
    ∧ (4 ≤ s.boot.phase → s.hm.thermalDown = false → plainFw → s.mem.readNat 0 4 ≠ 0x42554E44 → ∃ u, exec .pfFlr s = .next u ∧ fresh u)
    ∧ ((∀ x ∈ s.boot.slots, s.fuses.verifies x = false) → ∃ u, exec .powerUp s = .next u ∧ u.boot.phase = 7 ∧ u.boot.err = 1 ∧ u.boot.slot = 0
        ∧ u.mem = [] ∧ gone u)
    ∧ (1 ≤ v → v ≤ 16 → s.up = true → exec (.vfFlr v) s = .next (dropped.modFn (.vf (v - 1)) (fun _ => {})))

/-- Writes of the host-visible registers, and the start of a partition. While PHASE is below 4 or the part is thermally down a write has no
effect. Else: KICK makes a mapped berth read TAIL again and sets the pending bit of an unmapped queue; HM_WALL_HI sets the wall time; VAL
sets ILPOL or is refused; HM_INJ_CTL changes only ARM while armed, and INJ_SEL nothing then; a tenant block's fields (EN, WCEIL, CARDQ,
VERQ, HV_SCOPE, S2ROOT, SAVE, IALIM) follow the rules on EN; a partition's EN is set only over whole, free masks with an enabled owner,
and cleared only while it is not busy, which wipes what it held; OWNER changes while EN is 0; CLU, CHAN and BERTH take their word while EN
is 0, and while it is 1 gain blocks that no other enabled partition holds; a berth that the word clears leaves at once where it holds no
queue and else is to leave; a Quay port takes EN and OWNER; REPBASE keeps bits 45 to 6 and, on the PF, the first after a bring-up attests;
REPHEAD, TEN, WALL_LO, REPLOG2 and QCBADDR take their words. A partition whose blocks are wiped starts. The model's own choices: a write
that would gain another's block gains none and sets CFGERR, one that would clear the last berth clears none, and EN is cleared and wiped
in one step (log 44); a task that R391 has moved keeps both partitions busy (log 59). Rests on R5, R27, R382, R399, R405, R406, R408,
R410, R416, R420, R436, R445. -/
def Obligations.HostWrites : Prop :=
  ∀ (s : State) (fn : Fn) (v : Word) (hi : Bool) (t p q off : Nat) (x : Tenant) (y : Partition), s.tenants[t]? = some x → s.parts[p]? = some y →
    let writes : List Instr := [.kick fn v, .hmWallHi v, .val v, .hmInjCtl v, .tenantBlockWrite t off v, .partitionBlockWrite p off v, .quayPortWrite q v,
      .repbase fn hi v, .rephead fn v]
    let ten := bitsOf s.hm.mbTen 3 0
    let ilpols := listModify s.tenants ten (fun (t : Tenant) => { t with ilpol := v &&& 0xFFFFFF07 })
    let count := if v.getLsbD 0 then 0 else s.hm.injCount
    let badSpare := ∃ j < 24, v.getLsbD (8 + j) = true ∧ s.tenantSlot ten j = false
    let armed := s.hm.injCtl.getLsbD 0 = true
    let en := v.getLsbD 0
    let w := bitsOf v 15 8
    let owner := bitsOf v 7 4
    let h := if hi then 4 else 0
    let tenBad := (x.en = true ∧ w ≠ x.wceil) ∨ (en = true ∧ w ∉ [32, 64, 96]) ∨ (x.en = true ∧ en = false ∧ ∃ z ∈ s.parts, z.owner = t)
    let tset := fun (f : Tenant → Tenant) => s.modTenant t (fun x => { f x with cfgerr := false })
    let fixed := fun (off : Nat) (old new : DWord) (put : Tenant → Tenant) =>
      (x.en = true → old ≠ new → exec (.tenantBlockWrite t off v) s = .next (s.modTenant t (fun x => { x with cfgerr := true })))
      ∧ (x.en = false ∨ old = new → exec (.tenantBlockWrite t off v) s = .next (tset put))
    let root := setHalf x.s2root hi v &&& fieldMask 45 10
    let save := setHalf x.save hi v &&& fieldMask 45 21
    let ialim := setHalf x.ialim hi v &&& fieldMask 45 21
    let enBad := (∀ m ∈ y.clu, m = 0) ∨ y.chan = 0 ∨ (∀ m ∈ y.berth, m = 0) ∨ s.blocksTaken p y.clu y.chan y.berth = true
      ∨ ((s.tenants[owner]?).map (fun (t : Tenant) => t.en)).getD false = false
    let pset := fun (f : Partition → Partition) => s.modPart p (fun z => { f z with cfgerr := false })
    let refused := Host.Outcome.next (φ := Fault) (ρ := Refusal) (s.modPart p (fun y => { y with cfgerr := true }))
    let clu := fun (k : Nat) (m : Word) (z : Partition) => { z with clu := listModify z.clu k (fun _ => m) }
    let berth := fun (k : Nat) (m : Word) (z : Partition) => { z with berth := listModify z.berth k (fun _ => m) }
    let mask := fun (off : Nat) (old m : Word) (put : Word → Partition → Partition) (then' : State → State) =>
      (y.en = false → exec (.partitionBlockWrite p off v) s = .next (pset (put m)))
      ∧ (y.en = true → s.blocksTaken p (put (old ||| m) y).clu (put (old ||| m) y).chan (put (old ||| m) y).berth = false →
          exec (.partitionBlockWrite p off v) s = .next (then' (pset (put (old ||| m)))))
      ∧ (y.en = true → s.blocksTaken p (put (old ||| m) y).clu (put (old ||| m) y).chan (put (old ||| m) y).berth = true →
          exec (.partitionBlockWrite p off v) s = .next (then' (s.modPart p (fun y => { y with cfgerr := true }))))
    let leave := fun (k : Nat) (u : State) =>
      let old := (y.berth.getD k 0)
      let gone := (List.range 32).filter (fun i => old.getLsbD i && !v.getLsbD i)
      let stays := (List.range 64).any (fun b => !y.leaving.contains b && (if b / 32 = k then v.getLsbD (b % 32) && ((u.parts[p]?).getD {}).hasBerth b else y.hasBerth b))
      if !stays then u else gone.foldl (fun u i => u.modPart p (fun z =>
        if ((s.berths[32 * k + i]?).bind (·.queue)).isSome then { z with leaving := z.leaving.filter (· != 32 * k + i) ++ [32 * k + i] }
        else z.dropBerth (32 * k + i))) u
    let runs := s.cards.any (fun c => c.engine == some q && cardClass c.words == some 3)
    let wiped := ((s.wipeChannels y.chan).wipeClusters y).wipeBerths y
    (s.up = false → (∀ i ∈ writes, exec i s = .next s) ∧ (ownEvent fn off = false → off % 4 = 0 → exec (.registerWrite fn off v) s = .next s))
    ∧ (s.up = true → exec (.kick fn v) s = .next (s.kicked fn (bitsOf v 7 0)))
    ∧ (s.up = true → exec (.hmWallHi v) s = .next { s with hm := { s.hm with wall := v ++ s.hm.wallLo } })
    ∧ (s.up = true → ¬badSpare → exec (.val v) s = .next { s with hm := { s.hm with mbDone := true, mbRefused := false }, tenants := ilpols })
    ∧ (s.up = true → badSpare → exec (.val v) s = .next { s with hm := { s.hm with mbDone := true, mbRefused := true } })
    ∧ (s.up = true → armed → exec (.hmInjCtl v) s = .next { s with hm := { s.hm with injCtl := (s.hm.injCtl &&& ~~~1) ||| (v &&& 1) } })
    ∧ (s.up = true → ¬armed → exec (.hmInjCtl v) s = .next { s with hm := { s.hm with injCtl := v &&& 0x1F3F7F01, injCount := count } })
    ∧ (s.up = true → tenBad → exec (.tenantBlockWrite t 0 v) s = .next (s.modTenant t (fun x => { x with cfgerr := true })))
    ∧ (s.up = true → ¬tenBad → exec (.tenantBlockWrite t 0 v) s = .next (tset (fun x => { x with en := en, wceil := w })))
    ∧ (s.up = true → exec (.tenantBlockWrite t 4 v) s = .next (tset (fun x => { x with cardq := bitsOf v 10 0 })))
    ∧ (s.up = true → exec (.tenantBlockWrite t 8 v) s = .next (tset (fun x => { x with verq := v.toNat })))
    ∧ (s.up = true → exec (.tenantBlockWrite t 0x0C v) s = .next (tset (fun x => { x with hvScope := bitsOf v 1 0 })))
    ∧ (s.up = true → fixed (0x10 + h) x.s2root root (fun x => { x with s2root := root }) ∧ fixed (0x18 + h) x.save save (fun x => { x with save := save })
        ∧ fixed (0x20 + h) x.ialim ialim (fun x => { x with ialim := ialim }))
    ∧ (s.up = true → off ∉ [0, 4, 8, 0xC, 0x10, 0x14, 0x18, 0x1C, 0x20, 0x24] → exec (.tenantBlockWrite t off v) s = .next s)
    ∧ (s.up = true → y.en = false → en = true → enBad → exec (.partitionBlockWrite p 0 v) s = refused)
    ∧ (s.up = true → y.en = false → en = true → ¬enBad → exec (.partitionBlockWrite p 0 v) s =
        .next (s.modPart p (fun y => { y.fresh with en := true, owner := owner, cfgerr := false, busy := true })))
    ∧ (s.up = true → y.en = false → en = false → exec (.partitionBlockWrite p 0 v) s = .next (pset (fun y => { y with owner := owner })))
    ∧ (s.up = true → y.en = true → owner ≠ y.owner → exec (.partitionBlockWrite p 0 v) s = refused)
    ∧ (s.up = true → y.en = true → en = true → owner = y.owner → exec (.partitionBlockWrite p 0 v) s = .next (pset id))
    ∧ (s.up = true → y.en = true → en = false → owner = y.owner → s.partBusy p = true → exec (.partitionBlockWrite p 0 v) s = refused)
    ∧ (s.up = true → y.en = true → en = false → owner = y.owner → s.partBusy p = false → exec (.partitionBlockWrite p 0 v) s =
        .next (wiped.modPart p (fun y => { y.fresh with en := false, busy := false, cfgerr := false })))
    ∧ (s.up = true → mask 8 (y.clu.getD 0 0) v (clu 0) id ∧ mask 0xC (y.clu.getD 1 0) (v &&& 0xFFFF) (clu 1) id
        ∧ mask 0x10 y.chan v (fun m z => { z with chan := m }) id
        ∧ mask 0x18 (y.berth.getD 0 0) v (berth 0) (leave 0) ∧ mask 0x1C (y.berth.getD 1 0) v (berth 1) (leave 1))
    ∧ (s.up = true → off ∉ [0, 8, 0xC, 0x10, 0x18, 0x1C] → exec (.partitionBlockWrite p off v) s = .next s)
    ∧ (y.en = true → y.busy = true → exec (.partitionStart p) s = .next (s.modPart p (fun y => { y with busy := false })))
    ∧ (s.up = true → exec (.quayPortWrite q v) s = .next (s.modPort q (fun z => { z with en := en, owner := if runs then z.owner else owner })))
    ∧ (s.up = true → ∃ u, exec (.repbase fn hi v) s = .next u
        ∧ (fn ≠ .pf ∨ s.boot.attested = true → u = s.modFn fn (fun r => { r with repBase := setHalf r.repBase hi v &&& fieldMask 45 6 }))
        ∧ (fn = .pf → s.boot.attested = false → u.boot.attested = true ∧ u.pfRegs.reports.length = s.pfRegs.reports.length + 104))
    ∧ (s.up = true → exec (.rephead fn v) s = .next (s.modFn fn (fun r => { r with repHead := v })))
    ∧ (s.up = true → exec (.registerWrite .pf 0x100 v) s = .next { s with hm := { s.hm with wallLo := v } })
    ∧ (s.up = true → exec (.registerWrite .pf 0x200 v) s = .next { s with hm := { s.hm with mbTen := v &&& 0xF } })
    ∧ (s.up = true → exec (.registerWrite .pf 0x214 v) s = .next (if s.hm.injCtl.getLsbD 0 then s else { s with hm := { s.hm with injSel := v } }))
    ∧ (s.up = true → ∀ z ∈ [(Fn.vf q, 0), (Fn.pf, 0x40000)],
        exec (.registerWrite z.1 (z.2 + 0x10) v) s = .next (s.modFn z.1 (fun r => { r with repLog2 := bitsOf v 3 0 }))
        ∧ ∀ n < 256, exec (.registerWrite z.1 (z.2 + 0x1000 + 8 * n + h) v) s = .next (s.modFn z.1 (fun r =>
            { r with qcb := r.qcb.set n (setHalf (r.qcb.get n) hi v &&& fieldMask 45 6) })))

/-- What an instruction with a short-latency lane result leaves unchanged. When one of these answers a next state, memory, every device
register, engine, card, command, cluster and other team stand (but for held ports and the charge); of the team, S registers, MR, segments,
barriers, other groups and every other field but what an issue counts stand; in the lanes every V and Q register but the destination's
stands, lanes outside the fragment stand, and outside EXEC the last-result file stands. The flags change for float instructions and
conversions only. Where the instruction trapped instead, the state is the trap's. Rests on R9, R36, R41, R48, R122, R161, R336. -/
def Obligations.LaneFrames : Prop :=
  ∀ (s t : State) (q : Iss) (x : Ext) (p : Option Pfx) (c e : BitVec 4) (d a b sh n : Code) (imm : BitVec 11) (h lim : BitVec 1)
      (g : BitVec 3) (fmt : BitVec 5),
    (∀ i ∈ ([.iadd x d a b, .isub x d a b, .imul x d a b, .imulh x d a b, .imad x d a b, .ineg x d a, .iabs x d a, .imin x d a b, .imax x d a b,
        .isel x d a b, .sad x d a b, .and x d a b, .or x d a b, .xor x d a b, .andn x d a b, .not x d a, .icmp x c d a b, .shl x d a b,
        .shr x d a b, .sar x d a b, .rol x d a b, .shf x d a b, .popc x d a, .clz x d a, .ctz x d a, .brev x d a, .bfe x d a b, .bfi x d a b,
        .bytesel x d a b, .mov x d a, .s2v d a, .movi p d sh imm, .ldi p d imm, .lreadAt x d a b, .lreadBack x d a b, .lreadFwd x d a b,
        .lreadFlip x d a b, .bcast x d a b, .voteBal x d a b, .lane d, .grpid d, .getw d, .role d, .teamid d, .nteam d, .gridid d, .getmode d,
        .lclk d h, .csrr d n, .mspill d a, .rng x d a, .dqnt x d a fmt] : List Instr),
      Issues i s q → exec i s = .next t → LaneFrame q (q.opD.dstRegs 1) 0 t)
    ∧ (∀ i ∈ ([.lea x d a b, .aadd x d a b, .segrd d lim g] : List Instr),
      Issues i s q → exec i s = .next t → LaneFrame q (q.opD.dstRegs 2) 0 t)
    ∧ (∀ i ∈ ([.voteAny x d a, .voteAll x d a] : List Instr),
      Issues i s q → q.fm.p.mdst = false → exec i s = .next t → LaneFrame q (q.opD.dstRegs 1) 0 t)
    ∧ (Issues (.dot4 x d a b) s q → exec (.dot4 x d a b) s = .next t → LaneFrame q (q.opD.dstRegs 1) 0 t ∨ ∃ tr, t = q.trapped tr)
    ∧ (Issues (.imadw x d a b) s q → exec (.imadw x d a b) s = .next t → LaneFrame q (q.opD.dstRegs 2) 0 t ∨ ∃ tr, t = q.trapped tr)
    ∧ (∀ i ∈ ([.fadd x d a b, .fsub x d a b, .fmul x d a b, .ffma x d a b, .fscale x d a b, .frnd x d a, .fmin x d a b, .fmax x d a b,
        .fminNum x d a b, .fmaxNum x d a b, .fabs x d a, .fneg x d a, .fclass x d a, .fcmp x c d a b, .cvtF2i x d a e, .cvtI2f x d a e,
        .cvtF2f x d a h e, .qnt x d a fmt, .mxsc x d a fmt, .pack x d a b] : List Instr),
      Issues i s q → exec i s = .next t → (∃ fl, LaneFrame q (q.opD.dstRegs 1) fl t) ∨ ∃ tr, t = q.trapped tr)
    ∧ (Issues (.unpk x d a) s q → exec (.unpk x d a) s = .next t → (∃ fl, LaneFrame q (q.opD.dstRegs 2) fl t) ∨ ∃ tr, t = q.trapped tr)

/-- What an instruction that writes S registers, a triple, a mode field or the pc leaves unchanged. When one of these answers a next state,
memory, every device register and every other team stand, every lane stands, and of its group everything but what an issue counts stands,
except: the S registers named by the destination (none for ZERO, three for a triple); for SETW the recorded width request; for SETMODE the
mode register; for SAFEPT whether the group has stopped; for JOIN the fragment's chain; for NOP, BRA and BRZ nothing. A SETW, SETMODE or
JOIN that trapped leaves the trap's state instead. Rests on R8, R48, R96, R107, R139, R144, R190, R191, R196, R204, R205. -/
def Obligations.GroupFrames : Prop :=
  ∀ (s t : State) (q : Iss) (x : Ext) (l : Option Word) (c : BitVec 4) (d a b m : Code) (imm : BitVec 11) (off : BitVec 21),
    let sregs := fun (regs : List Nat) => GroupFrame q Group.lessS t ∧ keepsS q regs t
    let trap := ∃ tr, t = q.trapped tr
    (∀ i ∈ ([.sadd l d a b, .ssub l d a b, .smul l d a b, .sshl l d a b, .sshr l d a b, .sand l d a b, .sor l d a b, .sxor l d a b,
        .ssel l d a b, .smov l d a, .scmp l c d a b] : List Instr),
      Issues i s q → exec i s = .next t → sregs (match q.opD with
        | .s n => [n]
        | _ => []))
    ∧ (∀ i ∈ ([.v2s l d a, .mpop d a, .mffs d a] : List Instr), Issues i s q → exec i s = .next t → sregs [d.toNat])
    ∧ (∀ i ∈ ([.mand d a b, .mor d a b, .mxor d a b, .mandn d a b, .mnot d a, .mcur d, .mfill l d a] : List Instr),
      Issues i s q → exec i s = .next t → sregs [d.toNat, d.toNat + 1, d.toNat + 2])
    ∧ (∀ i ∈ ([.voteAny x d a, .voteAll x d a] : List Instr),
      Issues i s q → q.fm.p.mdst = true → exec i s = .next t → sregs [d.toNat, d.toNat + 1, d.toNat + 2])
    ∧ (Issues (.setw l a) s q → exec (.setw l a) s = .next t → GroupFrame q (fun g => { g with widthReq := none }) t ∨ trap)
    ∧ (Issues (.setmode l m a imm) s q → exec (.setmode l m a imm) s = .next t → GroupFrame q Group.lessMr t ∨ trap)
    ∧ (Issues .safept s q → exec .safept s = .next t → GroupFrame q (fun g => { g with stopped := false }) t)
    ∧ (Issues (.join off) s q → exec (.join off) s = .next t →
      GroupFrame q (fun g => g.modFrag q.c.f (fun f => { f with chain := [] })) t ∨ trap)
    ∧ (∀ i ∈ ([.nop, .bra c off, .brz c off] : List Instr), Issues i s q → exec i s = .next t → GroupFrame q (fun g => g) t)

/-- An access that issues stores nothing yet and changes no register: memory, lanes, S registers and other teams stand. When a load, store,
LDV, STV, PRF, CWB, CINV or REDM answers a next state at its issue (in flight, held back or trapped), every byte of memory reads as
before, every other team stands, and of its team the lanes, the scratchpad and the group's S registers, MR, segments and flags stand: its
effect comes when it is performed (R245). Rests on R241, R245, R248, R251, R280, R336. -/
def Obligations.MemoryAtIssue : Prop :=
  ∀ (s t : State) (q : Iss) (p : Option Pfx) (k op : BitVec 4) (r a disp : Code) (g sc : BitVec 3) (w h : BitVec 2),
    (∀ i ∈ ([.ldGB p k r a disp, .ldGH p k r a disp, .ldGW p k r a disp, .ldGD p k r a disp, .ldGQ p k r a disp, .ldSB p k r a disp,
        .ldSH p k r a disp, .ldSW p k r a disp, .ldSD p k r a disp, .ldSQ p k r a disp, .ldCB p k r a disp, .ldCH p k r a disp,
        .ldCW p k r a disp, .ldCD p k r a disp, .ldCQ p k r a disp, .ldLB p k r a disp, .ldLH p k r a disp, .ldLW p k r a disp,
        .ldLD p k r a disp, .ldLQ p k r a disp, .stGB p k r a disp, .stGH p k r a disp, .stGW p k r a disp, .stGD p k r a disp,
        .stGQ p k r a disp, .stSB p k r a disp, .stSH p k r a disp, .stSW p k r a disp, .stSD p k r a disp, .stSQ p k r a disp,
        .stLB p k r a disp, .stLH p k r a disp, .stLW p k r a disp, .stLD p k r a disp, .stLQ p k r a disp, .ldv p k r a g w h,
        .stv p k r a g w h, .prf k a disp, .cwb k a disp, .cinv k a disp, .redmGW p k r a sc op, .redmGD p k r a sc op] : List Instr),
      Issues i s q → exec i s = .next t →
        (∀ n, t.physByte n = q.s.physByte n)
        ∧ (∀ n, n ≠ q.c.team → t.team? n = q.s.team? n)
        ∧ ∃ t' g', t.team? q.c.team = some t' ∧ t'.body.groups[q.c.g]? = some g'
          ∧ t'.body.lanes = q.t.body.lanes ∧ t'.body.scratch = q.t.body.scratch
          ∧ g'.s = q.g.s ∧ g'.mr = q.g.mr ∧ g'.seg = q.g.seg ∧ g'.flags = q.g.flags)

/-- A walk of four levels reaches its page; a translation fails by address, permission and memory type, in that order. A walk that finds three
table pointers and a level-3 leaf answers the leaf's page with its W, X and memory type; an entry with V clear fails with reason 0 at its
level. An address of 2^52 or more fails with reason 2. Under a TLB entry of the core the translation changes no state and answers: reason
1 for a fetch without X, and for a write without W or with X; reason 3 for an atomic on WRITECOMBINE, DEVICE or host memory and for 16
bytes on DEVICE; else the address in the page and the memory type. A refusal names the stage whose own bits or type refuse, and the level
of its leaf (log 14). Rests on R79, R259, R344, R345, R347, R348, R349. -/
def Obligations.TranslationChecks : Prop :=
  ∀ (s : State) (core ten ctx va : Nat) (a : Acc) (k : Core) (e : TlbEntry) (rd : Nat → Nat → Except XErr Nat) (b0 b1 b2 b3 pg wb xb mt : Nat),
    let table := fun (b : Nat) => b * 2 ^ 12 + 3
    let leaf := pg * 2 ^ 12 + 1 + 4 * wb + 8 * xb + 32 * mt
    let pa := e.ppage * 2 ^ e.size + va % 2 ^ e.size
    (va < 2 ^ 52 → b1 < 2 ^ 34 → b2 < 2 ^ 34 → b3 < 2 ^ 34 → pg < 2 ^ 34 → wb < 2 → xb < 2 → mt < 4 →
      rd 0 (b0 + 8 * (va / 2 ^ 39)) = .ok (table b1) → rd 1 (b1 * 2 ^ 12 + 8 * (va / 2 ^ 30 % 512)) = .ok (table b2) →
      rd 2 (b2 * 2 ^ 12 + 8 * (va / 2 ^ 21 % 512)) = .ok (table b3) → rd 3 (b3 * 2 ^ 12 + 8 * (va / 2 ^ 12 % 512)) = .ok leaf →
      walkFrom rd 1 va 4 0 b0 = .ok { base := pg * 2 ^ 12, size := 12, w := wb == 1, x := xb == 1, mt := mtOf mt })
    ∧ (∀ x stage level fuel, x % 2 = 0 → rd level (b0 + 8 * pteIndex level va) = .ok x →
      walkFrom rd stage va (fuel + 1) level b0 = .error { stage := stage, level := level, reason := 0 })
    ∧ (2 ^ 52 ≤ va → s.translate (some core) ten ctx va a = (s, .error { stage := 1, level := 0, reason := 2 }))
    ∧ (va < 2 ^ 52 → s.cores[core]? = some k → k.tlb.find? (fun r => r.maps ctx va) = some e →
      let first := fun (r : Nat) => if r = 3 then inAperture pa = false ∧ e.mt1 = e.mt else if a.kind = .fetch then e.x1 = false else e.x = true ∨ e.w1 = false
      let fails := fun (r : Nat) => ∃ stage level, s.translate (some core) ten ctx va a = (s, .error { stage := stage, level := level, reason := r })
        ∧ (first r → stage = 1 ∧ level = e.level1) ∧ (¬first r → stage = 2 ∧ level = e.level2)
      (a.kind = .fetch → e.x = false → fails 1)
      ∧ (a.kind = .fetch → e.x = true → s.translate (some core) ten ctx va a = (s, .ok (pa, e.mt)))
      ∧ (a.kind ≠ .fetch → a.write = true → e.w = false ∨ e.x = true → fails 1)
      ∧ (a.kind ≠ .fetch → (a.write = true → e.w = true ∧ e.x = false) →
          let odd := (a.kind = .atomic ∧ (e.mt = .writeCombine ∨ e.mt = .device ∨ inAperture pa = true)) ∨ (a.size = 16 ∧ e.mt = .device)
          (odd → fails 3) ∧ (¬odd → s.translate (some core) ten ctx va a = (s, .ok (pa, e.mt)))))

/-- Taking a trap: parking and reporting, or a rollback at levels 1 and 2; what stands; and the order in which an issue's traps rank. Taking a
trap in a team at level 0, and a DEBUG or served XLATE trap at any level, adds it to the team's traps under a new identity and parks every
group that holds a trapped lane: no such group runs, and no rollback is asked. At levels 1 and 2 any other trap asks for the rollback of
the task and the team is halted; that the first one asked stays is the model's own choice (log 37, DEDUCED). Lanes, memory and other teams
stand; the flags the trap carries are ORed in. An instruction that meets several conditions takes the first of: PC comparator, ILLEGAL (of
its form, or decided at its issue), OVERLAP, LKHD_WRITE; and, where none of them holds, MEM_UE where a lane of EXEC reads a register with
an uncorrectable error, naming the lowest such lane. Rests on R129, R236, R336, R337, R338, R339, R361, R385. -/
def Obligations.TrapTaken : Prop :=
  ∀ (s : State) (tid : Nat) (tr : Trap) (t : Team) (q : Iss) (x : Ext) (d a b : Code),
    let tr' : Trap := { tr with id := s.nextId }
    let after := s.takeTrap tid tr
    let parks := t.levelNow = 0 ∨ tr.cls = clsDebug ∨ (tr.cls = clsXlate ∧ tr.served.isSome = true)
    let meets := fun (i : Instr) => i.form = some q.fm ∧ (s.issuer q.fm).map Iss.c = some q.c ∧ (s.atIssue i q.c).issuer q.fm = some q
    let legal := q.fm.ok (q.t.hdr.budget q.g.role)
    (s.team? tid = some t → ∃ t', after.team? tid = some t'
      ∧ (parks → t'.traps = t.traps ++ [tr'] ∧ t'.rollback = t.rollback
          ∧ ∀ g ∈ t'.body.groups, (∃ l ∈ tr.lids, g.first ≤ l ∧ l < g.first + g.count) → t'.runs g = false)
      ∧ (¬parks → t'.traps = t.traps ∧ t'.rollback = some (t.rollback.getD tr') ∧ t'.halted = true)
      ∧ t'.body.lanes = t.body.lanes
      ∧ (∀ gi g, t.body.groups[gi]? = some g → ∃ g', t'.body.groups[gi]? = some g'
          ∧ g'.flags = (if gi = tr.g ∧ tr.stream = false then g.flags ||| tr.flags else g.flags)
          ∧ { g' with flags := g.flags, stopped := g.stopped } = g)
      ∧ (∀ n, after.physByte n = s.physByte n) ∧ (∀ n, n ≠ tid → after.team? n = s.team? n)
      ∧ { after.lessTeams with nextId := s.nextId } = s.lessTeams)
    ∧ (∀ i ∈ ([.iadd x d a b, .isub x d a b, .imul x d a b, .imad x d a b, .fadd x d a b, .and x d a b, .mov x d a] : List Instr), meets i →
      (∀ n lid, q.pcMatch = some (n, lid) → exec i s =
        .next (q.trapped { mkTrap q.t q.g q.f q.c clsDebug lid with sub := 4, detail := n, cmp := some n }))
      ∧ (q.pcMatch = none → legal = false → exec i s = .next (q.trapped { q.trap clsIllegal with len := q.c.trapLen })))
    ∧ (meets (.imadw x d a b) → q.pcMatch = none → legal = true → etWidth q.etype ≠ 32 →
      exec (.imadw x d a b) s = .next (q.trapped (q.trap clsIllegal)))
    ∧ (∀ i ∈ ([.iadd x d a b, .imul x d a b, .imad x d a b, .and x d a b, .mov x d a, .aadd x d a b] : List Instr), meets i →
      q.pcMatch = none → legal = true →
      (q.fm.overlaps = true → exec i s = .next (q.trapped (q.trap clsOverlap)))
      ∧ (q.fm.overlaps = false →
          lkhdHit q.g q.f q.c.f (q.t.hdr.reserveSpan q.g.role).1 (q.t.hdr.reserveSpan q.g.role).2 q.fm.targets = true →
          exec i s = .next (q.trapped (q.trap clsLkhd))))
    ∧ (∀ i ∈ ([.iadd x d a b, .imul x d a b, .imad x d a b, .and x d a b, .mov x d a] : List Instr), meets i →
      q.pcMatch = none → legal = true → q.fm.overlaps = false →
      lkhdHit q.g q.f q.c.f (q.t.hdr.reserveSpan q.g.role).1 (q.t.hdr.reserveSpan q.g.role).2 q.fm.targets = false →
      q.f.ue = false → (∀ o ∈ q.fm.reads ++ q.maskReads, q.g.bad o = false) →
      ∀ m, q.lanes.find? (fun n => q.fm.reads.any (q.t.lane (q.lid n)).bad) = some m →
        exec i s = .next (q.trapped (q.trapAt clsMemUe m)))

/-- The machine right after reset holds the reset values of the register blocks, and meets the invariants. Right after reset no tenant and no
partition is enabled, with WCEIL 96, CARDQ, VERQ, HV_SCOPE, S2ROOT, SAVE and IALIM 0, OWNER, CFGERR, BUSY and the masks 0; the report
registers, the queue tables and both Quay ports read 0; BOOT_STAT has PHASE, ERR and SLOT 0; the mailbox is done and not refused, the
injection is not armed; no rail has a voltage before power is applied (log 10); no team, card, command or context exists. Both memories
are in canonical form and no cluster is clocked too fast. That an unlisted byte of memory reads 0 is the model's choice (log 7). Rests on
R404, R406, R407, R410, R420, R427, R430, R431, R445. -/
def Obligations.ResetState : Prop :=
  let s := State.reset
  (s.tenants.length = 16 ∧ ∀ t ∈ s.tenants, t.en = false ∧ t.wceil = 96 ∧ t.cfgerr = false ∧ t.cardq = 0 ∧ t.verq = 0 ∧ t.hvScope = 0
      ∧ t.s2root = 0 ∧ t.save = 0 ∧ t.ialim = 0)
  ∧ (s.parts.length = 24 ∧ ∀ p ∈ s.parts, p.en = false ∧ p.owner = 0 ∧ p.cfgerr = false ∧ p.busy = false ∧ p.clu = [0, 0] ∧ p.chan = 0
      ∧ p.berth = [0, 0])
  ∧ (∀ r ∈ s.pfRegs :: s.vfs, r.repBase = 0 ∧ r.repLog2 = 0 ∧ r.repHead = 0 ∧ r.repTail = 0 ∧ ∀ q, r.qcb.get q = 0)
  ∧ (∀ p ∈ s.quay, p.en = false ∧ p.owner = 0 ∧ p.up = false)
  ∧ s.boot.phase = 0 ∧ s.boot.err = 0 ∧ s.boot.slot = 0
  ∧ s.hm.mbTen = 0 ∧ s.hm.mbDone = true ∧ s.hm.mbRefused = false ∧ s.hm.injCtl = 0 ∧ s.hm.injSel = 0
  ∧ s.retention = 0 ∧ (s.rails.length = 12 ∧ ∀ r ∈ s.rails, r.mv = 0)
  ∧ s.teams = [] ∧ s.cards = [] ∧ s.cmds = [] ∧ s.ctxs = [] ∧ s.grids = []
  ∧ (∀ a, s.physByte a = 0) ∧ s.memWf = true ∧ s.clocksSafe

/-- A step of a core runs the instruction that the words at the fragment's pc decode to. A code unit is the word that the core's byte
instruction cache holds under the whole tag, else the little-endian value of the four committed bytes at the translated address. The
decoder is given as many words as it needs, and the instruction it reads is the one fetched; so is the one that the decoded-operation
cache holds under the whole tag; where the group's records fit its share of the FRAG region the group fetches it, and an IDIV or IREM
whose bits R449 counts a literal for, on a part that disables it, comes with that literal (log 12). Where a core's one resident group
offers a fragment whose words decode to i, nothing holds it (ageing, HANG, windows, clock gate, port, pipe), no split partner issues with
it and exec of i for that fragment answers a next state that differs, the issue turn of the core steps to that state, the trailing core of
a pair following with the instruction that was fetched, with the core's ages and the rails brought up to date. The turn of the agenda and
the order of choices are the model's (logs 2, 24), and so is the room of the caches (log 42). Rests on R3, R30, R82, R92, R197, R199, R211, R212, R231, R346, R387, R449. -/
def Obligations.StepRunsDecoded : Prop :=
  ∀ (s s1 s2 s3 : State) (t : Team) (va n x0 x1 x2 pa : Nat) (mt : MemType) (i : Instr),
    let u := fun (x : Nat) => BitVec.ofNat 32 x
    let kept := fun (s : State) => t.core?.bind (fun c => (s.cores[c]?).bind (fun k => (k.code.find? (fun e => e.1 == s.codeTag t va)).map (·.2)))
    (va % 4 = 0 → s.translate t.core? t.tenant t.ctx va { kind := .fetch, write := false, size := 4 } = (s1, .ok (pa, mt)) →
      (∀ w, kept s1 = some w → s.codeUnit t va 4 = (s1, .ok w.toNat))
      ∧ (kept s1 = none → (inAperture pa || !s1.poisoned pa 4) = true →
        (∃ v, s.codeUnit t va 4 = (v, .ok (u (s1.physRead pa 4)).toNat) ∧ { v with cores := s1.cores, hostReq := s1.hostReq } = s1)
        ∧ (inAperture pa = inAperture (pa + 3) → s1.physRead pa 4 = (s1.physByte pa).toNat + 2 ^ 8 * (s1.physByte (pa + 1)).toNat
          + 2 ^ 16 * (s1.physByte (pa + 2)).toNat + 2 ^ 24 * (s1.physByte (pa + 3)).toNat)))
    ∧ (s.codeUnit t va 4 = (s1, .ok x0) →
      (decodeWords (u x0) none none = .ok (i, n) → s.decodeAt t va = (s1, .ok { w0 := u x0, instr := i, len := n }))
      ∧ (∀ e, decodeWords (u x0) none none = .error e → s1.codeUnit t (va + 4) 4 = (s2, .ok x1) →
        (decodeWords (u x0) (some (u x1)) none = .ok (i, n) →
          s.decodeAt t va = (s2, .ok { w0 := u x0, w1 := u x1, instr := i, len := n }))
        ∧ (∀ e, decodeWords (u x0) (some (u x1)) none = .error e → s2.codeUnit t (va + 8) 4 = (s3, .ok x2) →
          decodeWords (u x0) (some (u x1)) (some (u x2)) = .ok (i, n) →
            s.decodeAt t va = (s3, .ok { w0 := u x0, w1 := u x1, w2 := u x2, instr := i, len := n }))))
    ∧ (∀ x, s.decodedOp t va = none → s.decodeAt t va = (s1, .ok x) →
        ∃ v, s.fetchWords t va = (v, .ok x) ∧ { v with cores := s1.cores } = s1)
    ∧ (∀ x, s.decodedOp t va = some x → s.codeUnit t va 4 = (s1, .ok x0) → s.fetchWords t va = (s1, .ok x)
        ∧ ∃ ws : List Word, decodeWords (ws.getD 0 0) ws[1]? ws[2]? = .ok (x.instr, x.len))
    ∧ (∀ gi g x l, g.records.length ≤ t.hdr.fragShare → s.fetchWords t va = (s1, .ok x) →
        (x.fateLiteral s1 = false → s.fetchGroup t gi g va = (s1, .ok x))
        ∧ (x.fateLiteral s1 = true → s1.codeUnit t (va + 8) 4 = (s2, .ok l) → s.fetchGroup t gi g va = (s2, .ok { x with w2 := u l, len := 12 })))
    ∧ (∀ (core team gi fi : Nat) (rest : List Turn) (s0 s' : State) (k : Core) (g : Group) (f : Frag) (x : Fetched),
      s.up = true → s.agenda = .issue core :: rest → s0 = { s with agenda := rest } →
      s0.cores[core]? = some k → k.age = [(team, gi)] → k.pipeBusy.getD 0 0 = 0 →
      s0.frag? team gi fi = some (t, g, f) → g.offered = some fi → g.pipe = 0 → t.core? = some core → t.runs g = true →
      s0.pairHalted t = false → f.publishing = false → f.atExit = false → f.count < 64 → g.hang < 2 ^ 27 → t.splitPartner gi = none →
      s0.fetchGroup t gi g f.pc.toNat = (s1, .ok x) → t.gateOpen g gi x.instr = true →
      (∀ w ∈ f.wins, w.due (Instr.closesWindows x.instr) = true → w.done = true) →
      (∀ p, Instr.portOf x.instr = some p → k.portBusy.getD (portIx p) 0 = 0) →
      exec x.instr { s1 with cur := some (x.cur team gi fi f.pc) } = .next s' →
      s'.trace (x.cur team gi fi f.pc) ≠ s0.trace (x.cur team gi fi f.pc) →
      ∃ o : Offer, o.cur = x.cur team gi fi f.pc ∧ o.port = Instr.portOf x.instr ∧ o.after = s'
        ∧ step s = .next ((s0.follow s' team (fun s => s.reissue team gi (.ok x))).modCore core (fun k => k.issuedBy 0 [o] [])).settled)

/-- Words written out from the encodings of the spec decode to their instructions. The decoder reads the spec's worked words, the first word
in the low bits, as the instructions they stand for: with and without prefix and literal, one or more of each family, and the stream
words. Of the fates it reads one word each of major 0, of a reserved bit of NOP and of a prefix after a prefix, and the stream words 0 and MEND
with a reserved bit, as ILLEGAL; the words of zeros of majors 0x18 and 0x1F and of XOP 0x30 and 0x37 as JURYRIG; and those of majors 0x70 and
0x77 and of XOP 0x38 and 0x3F as vendor test. Rests on R30, R33, R39, R41, R43, R44, R60, R61, R64, R65. -/
def Obligations.DecodedWords : Prop :=
  let is := fun (w : Nat) (i : Instr) => decodeTableWord 96 w = some i
  let x : Ext := ⟨none, none⟩
  let p0 : Pfx := Pfx.ofWord 0xFE000000
  is 0x4E800000 .nop ∧ is 0x0000006402018276 (.iadd { x with lit := some 100 } 6 4 0x76)
  ∧ is 0x20720185FE0418A3 (.ffma { x with pfx := some { p0 with rndo := 2, op4 := 0x62, xd := true, xen := true, o4en := true } } 0x48 3 5)
  ∧ is 0x521BA290 (.setmode none 6 0x74 0x290) ∧ is 0x03A28107 (.lea x 10 2 7) ∧ is 0x04C10082 (.icmp x 6 4 1 2)
  ∧ is 0x0A20D400 (.s2v 3 0x28) ∧ is 0x0C024388 (.idiv x 9 7 8) ∧ is 0x10180738 (.ldi none 6 0x738)
  ∧ is 0x00000005120A14F6 (.sadd (some 5) 40 41 0x76) ∧ is 0x14408184 (.scmp none 2 2 3 4) ∧ is 0x22410082 (.fcmp x 2 4 1 2)
  ∧ is 0x24418394 (.cvtF2f x 6 7 1 4) ∧ is 0x26414201 (.rsq none 2 5 4) ∧ is 0x2861C305 (.lreadFlip x 7 6 5)
  ∧ is 0x28A2C200FE000004 (.voteAny { x with pfx := some { p0 with mdst := true } } 11 4) ∧ is 0x2C224400 (.redAdd none 1 9 8)
  ∧ is 0x48400000 (.leave 2) ∧ is 0x4E000300 (.calli 6) ∧ is 0x4E603A74 (.exit none 0x74 0x74) ∧ is 0x5002058E (.mand 8 11 14)
  ∧ is 0x50AA0580 (.mpop 40 11) ∧ is 0x0000000154803B01 (.barc (some 1) 0x76 1) ∧ is 0x55208001 (.lclk 2 1)
  ∧ is 0x74428103 (.ldGW none 2 10 2 3) ∧ is 0x9E22027F (.stGD none 1 8 4 0x7F) ∧ is 0xD3E30165 (.ldv none 15 12 2 6 1 1)
  ∧ is 0xD6008301 (.cinv 0 6 1) ∧ is 0xD8003D03 (.waitc none 0x7A 3) ∧ is 0xB6014132 (.ldGAcqW none 0 5 2 3 2)
  ∧ is 0xC6018137 (.atomGW none 0 6 2 3 7) ∧ is 0x5600C274 (.ecard none 0 0 3 4 0x74) ∧ is 0x58210013 (.eseq 4 1 3)
  ∧ is 0x5A4A010C (.ldmb 2 40 2 0 12) ∧ is 0x5E018280 (.maccRd none 6 5) ∧ is 0x60740001 (.wrd 80 0 1) ∧ is 0x61000406 (.segld 8 6)
  ∧ is 0 (.illegal (.group none 0 none)) ∧ is 0x4E800001 (.illegal (.group none 0x4E800001 none))
  ∧ is 0xFE000000FE000000 (.illegal (.group none 0xFE000000 none)) ∧ is 0x30000000 (.juryrig (.group none 0x30000000 none))
  ∧ is 0x3E000000 (.juryrig (.group none 0x3E000000 none))
  ∧ is 0xE0000000 (.vendorTest (.group none 0xE0000000 none)) ∧ is 0xEE000000 (.vendorTest (.group none 0xEE000000 none))
  ∧ decodeStream 0x1800000000000000 = .mwaitb 0 ∧ decodeStream 0x0C00000000000000 = .mzero 0 0
  ∧ decodeStream 0x1C00080400000000 = .mloop 2 4 ∧ decodeStream 0x0584010800000000 = .mlda 12 0 1 66 0
  ∧ decodeStream 0x098C010000000000 = .mma 12 12 0 0 0 0 1 ∧ decodeStream 0x1480000000000000 = .marrb 2
  ∧ decodeStream 0x10400001080000E0 = .mdrain ⟨2, 0, 0, 0, 0, 0x84, 0, 3, 1, 0, 0⟩
  ∧ decodeStream 0x2400000000000000 = .mend ∧ decodeStream 0 = .illegal (.stream 0)
  ∧ decodeStream 0x2400000000000001 = .illegal (.stream 0x2400000000000001)
  ∧ decodeStream 0xC000000000000000 = .juryrig (.stream 0xC000000000000000)
  ∧ decodeStream 0xDC00000000000000 = .juryrig (.stream 0xDC00000000000000)
  ∧ decodeStream 0xE000000000000000 = .vendorTest (.stream 0xE000000000000000)
  ∧ decodeStream 0xFC00000000000000 = .vendorTest (.stream 0xFC00000000000000)

/-- Decoding the encoding of a well-formed instruction gives it back, for every instruction and every operand. For every well-formed group
instruction (the fates with the words they hold among them) the encoder gives its words, and the decoder reads from their bytes, whatever
follows them, exactly that instruction and leaves the rest. For every well-formed stream instruction the decoder reads it from its 64-bit
word. So two well-formed instructions of equal encodings are equal. Rests on R3, R30, R33, R39, R41, R43, R60, R61, R64, R65. -/
def Obligations.RoundTrip : Prop :=
  (∀ (i : Instr) (f : Form) (rest : List Byte), i.wf = true → i.form = some f →
    ∃ ws, encode i = some ws ∧ decode (wordBytes ws ++ rest) = .ok (i, rest))
  ∧ (∀ (i : Instr) (w : DWord), i.wf = true → encodeStream i = some w → decodeStream w = i)
  ∧ (∀ (i j : Instr) (f g : Form), i.wf = true → j.wf = true → i.form = some f → j.form = some g → encode i = encode j → i = j)
  ∧ (∀ (i j : Instr) (w : DWord), i.wf = true → j.wf = true → encodeStream i = some w → encodeStream j = some w → i = j)

/-- Every step answers a next state, keeps memory in canonical form, and leaves no cluster clocked above its rail. In every state, reachable
or not, the machine answers a next state (no step faults or is refused), whatever instruction or event it runs; a step from a state whose
two memories are in canonical form leaves both in it; nobody is left issuing; and no cluster of a running part is clocked above what the
voltage of its rail allows. In a running part each cluster stands at least at the level that the votes, the mounting cap and the thermal
steps ask for, at the larger of that and the level of its rail's voltage where the rail is not rising, and its clock is gated exactly
where no voting partition holds it. Rests on R3, R22, R424, R425, R426, R427. -/
def Obligations.EveryStep : Prop :=
  ∀ s : State, ∃ t, step s = .next t ∧ t.cur = none ∧ t.clocksSafe ∧ (s.memWf = true → t.memWf = true)
    ∧ (t.up = true → ∀ k c, t.clusters[k]? = some c →
        let want := t.wantLevel t.votes k
        let r := (t.rails[k / 4]?).getD {}
        want ≤ c.level ∧ r.volt ≤ c.level ∧ (r.raising = false → c.level = max want r.volt)
        ∧ c.gated = !(t.votes.any (fun v => v.1.hasCluster k)))
end

