-- ==== Sys2Proof/Laws/Cells.lean ====
section
/-!
SUPPORT. The sparse stores: every operation keeps the canonical form, a read after a write gives the value written, and a write leaves
every other index alone.
-/
namespace Sys2Proof


theorem Cells.wf_cons {w : Nat} (p : Nat × BitVec w) (c : Cells w) :
    Cells.wf (p :: c) = true ↔ p.2 ≠ 0 ∧ (∀ q ∈ c, p.1 < q.1) ∧ c.wf = true := by
  induction c generalizing p with
  | nil => simp [Cells.wf]
  | cons q c ih =>
    obtain ⟨a, v⟩ := p
    obtain ⟨b, u⟩ := q
    simp only [Cells.wf, Bool.and_eq_true, bne_iff_ne, decide_eq_true_eq, List.mem_cons, forall_eq_or_imp]
    constructor
    · rintro ⟨⟨h1, h2⟩, h3⟩
      exact ⟨h1, ⟨h2, fun x hx => Nat.lt_trans h2 (((ih (b, u)).1 h3).2.1 x hx)⟩, h3⟩
    · rintro ⟨h1, ⟨h2, -⟩, h3⟩
      exact ⟨⟨h1, h2⟩, h3⟩

theorem Cells.get_of_lt {w : Nat} (c : Cells w) (k : Nat) (h : ∀ q ∈ c, k < q.1) : c.get k = 0 := by
  induction c with
  | nil => rfl
  | cons p c ih =>
    obtain ⟨a, v⟩ := p
    simp only [List.mem_cons, forall_eq_or_imp] at h
    simp [Cells.get, Nat.ne_of_gt h.1, ih h.2]

theorem Cells.mem_erase {w : Nat} {c : Cells w} {k : Nat} {p : Nat × BitVec w} (h : p ∈ c.erase k) : p ∈ c := by
  induction c with
  | nil => simp [Cells.erase] at h
  | cons q c ih =>
    obtain ⟨a, v⟩ := q
    simp only [Cells.erase] at h
    split at h
    · exact List.mem_cons_of_mem _ h
    · rcases List.mem_cons.1 h with rfl | h
      · exact List.mem_cons_self
      · exact List.mem_cons_of_mem _ (ih h)

theorem Cells.wf_erase {w : Nat} (c : Cells w) (k : Nat) (h : c.wf = true) : (c.erase k).wf = true := by
  induction c with
  | nil => rfl
  | cons q c ih =>
    obtain ⟨a, v⟩ := q
    obtain ⟨h1, h2, h3⟩ := (Cells.wf_cons _ _).1 h
    simp only [Cells.erase]
    split
    · exact h3
    · exact (Cells.wf_cons _ _).2 ⟨h1, fun p hp => h2 p (Cells.mem_erase hp), ih h3⟩

theorem Cells.mem_insert {w : Nat} {c : Cells w} {k : Nat} {v : BitVec w} {p : Nat × BitVec w} (h : p ∈ c.insert k v) :
    p = (k, v) ∨ p ∈ c := by
  induction c with
  | nil => simpa [Cells.insert] using h
  | cons q c ih =>
    obtain ⟨a, u⟩ := q
    simp only [Cells.insert] at h
    split at h
    · simpa using h
    · split at h
      · rcases List.mem_cons.1 h with rfl | h
        · exact .inl rfl
        · exact .inr (List.mem_cons_of_mem _ h)
      · rcases List.mem_cons.1 h with rfl | h
        · exact .inr List.mem_cons_self
        · exact (ih h).imp id (List.mem_cons_of_mem _)

theorem Cells.wf_insert {w : Nat} (c : Cells w) (k : Nat) (v : BitVec w) (hv : v ≠ 0) (h : c.wf = true) : (c.insert k v).wf = true := by
  induction c with
  | nil => simpa [Cells.insert, Cells.wf] using hv
  | cons q c ih =>
    obtain ⟨a, u⟩ := q
    obtain ⟨h1, h2, h3⟩ := (Cells.wf_cons _ _).1 h
    simp only [Cells.insert]
    split
    · rename_i hk
      refine (Cells.wf_cons _ _).2 ⟨hv, ?_, h⟩
      simp only [List.mem_cons, forall_eq_or_imp]
      exact ⟨hk, fun p hp => Nat.lt_trans hk (h2 p hp)⟩
    · split
      · rename_i hk; subst hk
        exact (Cells.wf_cons _ _).2 ⟨hv, h2, h3⟩
      · rename_i h4 h5
        refine (Cells.wf_cons _ _).2 ⟨h1, fun p hp => ?_, ih h3⟩
        rcases Cells.mem_insert hp with rfl | hp
        · change a < k; omega
        · exact h2 p hp

theorem Cells.wf_set {w : Nat} (c : Cells w) (k : Nat) (v : BitVec w) (h : c.wf = true) : (c.set k v).wf = true := by
  unfold Cells.set
  split
  · exact Cells.wf_erase c k h
  · exact Cells.wf_insert c k v (by assumption) h

theorem Cells.wf_setRange {w : Nat} (c : Cells w) (k : Nat) (l : List (BitVec w)) (h : c.wf = true) : (c.setRange k l).wf = true := by
  induction l generalizing c k with
  | nil => exact h
  | cons v l ih => exact ih _ _ (Cells.wf_set c k v h)

theorem Cells.wf_writeNat (c : Cells 8) (k n x : Nat) (h : c.wf = true) : (c.writeNat k n x).wf = true := Cells.wf_setRange c k _ h

theorem Cells.wf_keep {w : Nat} (c : Cells w) (p : Nat → Bool) (h : c.wf = true) : (c.keep p).wf = true := by
  induction c with
  | nil => rfl
  | cons q c ih =>
    obtain ⟨h1, h2, h3⟩ := (Cells.wf_cons _ _).1 h
    unfold Cells.keep
    rw [List.filter_cons]
    split
    · exact (Cells.wf_cons _ _).2 ⟨h1, fun x hx => h2 x ((List.mem_filter.1 hx).1), ih h3⟩
    · exact ih h3

theorem Cells.get_erase {w : Nat} (c : Cells w) (h : c.wf = true) (k i : Nat) : (c.erase k).get i = if i = k then 0 else c.get i := by
  induction c with
  | nil => simp [Cells.erase, Cells.get]
  | cons q c ih =>
    obtain ⟨a, v⟩ := q
    obtain ⟨h1, h2, h3⟩ := (Cells.wf_cons _ _).1 h
    simp only [Cells.erase]
    split
    · rename_i hk; subst hk
      by_cases hi : i = a
      · subst hi; simp [Cells.get_of_lt c i h2]
      · simp [Cells.get, hi, Ne.symm hi]
    · rename_i hk
      simp only [Cells.get, ih h3]
      by_cases hi : i = k
      · subst hi; simp [hk]
      · simp [hi]

theorem Cells.get_insert {w : Nat} (c : Cells w) (k i : Nat) (v : BitVec w) : (c.insert k v).get i = if i = k then v else c.get i := by
  induction c with
  | nil => simp [Cells.insert, Cells.get, eq_comm]
  | cons q c ih =>
    obtain ⟨a, u⟩ := q
    simp only [Cells.insert]
    split
    · simp [Cells.get, eq_comm]
    · split
      · rename_i hk; subst hk
        simp only [Cells.get]
        by_cases hi : i = a
        · simp [hi]
        · simp [hi, Ne.symm hi]
      · rename_i hk
        simp only [Cells.get, ih]
        by_cases hi : i = k
        · subst hi; simp [hk]
        · simp [hi]

/-- A read after a write gives the value written, and the write leaves every other index alone. -/
theorem Cells.get_set {w : Nat} (c : Cells w) (h : c.wf = true) (k i : Nat) (v : BitVec w) :
    (c.set k v).get i = if i = k then v else c.get i := by
  unfold Cells.set
  split
  · rename_i hv; subst hv; exact Cells.get_erase c h k i
  · exact Cells.get_insert c k i v

/-- A write at one index leaves every other index alone, whatever the form. -/
theorem Cells.get_set_ne {w : Nat} (c : Cells w) {k i : Nat} (v : BitVec w) (hi : i ≠ k) : (c.set k v).get i = c.get i := by
  unfold Cells.set
  split
  · induction c with
    | nil => rfl
    | cons q c ih =>
      obtain ⟨a, u⟩ := q
      simp only [Cells.erase]
      split
      · rename_i hk; subst hk; simp [Cells.get, Ne.symm hi]
      · simp only [Cells.get, ih]
  · simp [Cells.get_insert, hi]

theorem Cells.get_setRange_ne {w : Nat} (c : Cells w) (k i : Nat) (l : List (BitVec w)) (h : i < k ∨ k + l.length ≤ i) :
    (c.setRange k l).get i = c.get i := by
  induction l generalizing c k with
  | nil => rfl
  | cons v l ih =>
    simp only [List.length_cons] at h
    rw [Cells.setRange, ih _ _ (by omega), Cells.get_set_ne _ _ (by omega)]

/-- A range that was written reads as what was written. -/
theorem Cells.get_setRange {w : Nat} (c : Cells w) (h : c.wf = true) (k i : Nat) (l : List (BitVec w)) (hi : i < l.length) :
    (c.setRange k l).get (k + i) = l[i] := by
  induction l generalizing c k i with
  | nil => cases hi
  | cons v l ih =>
    rw [Cells.setRange]
    cases i with
    | zero => simp [Cells.get_setRange_ne, Cells.get_set _ h]
    | succ i =>
      have := ih (c.set k v) (Cells.wf_set c k v h) (k + 1) i (by simpa using hi)
      rwa [show k + 1 + i = k + (i + 1) by omega] at this

@[simp] theorem bytesOfNat_length (n x : Nat) : (bytesOfNat n x).length = n := by
  induction n generalizing x with
  | zero => rfl
  | succ n ih => simp [bytesOfNat, ih]

/-- Writing n bytes leaves the bytes outside them alone. -/
theorem Cells.get_writeNat_ne (c : Cells 8) (k n x i : Nat) (h : i < k ∨ k + n ≤ i) : (c.writeNat k n x).get i = c.get i :=
  Cells.get_setRange_ne c k i _ (by simpa using h)

theorem Cells.get_keep {w : Nat} (c : Cells w) (p : Nat → Bool) (i : Nat) : (c.keep p).get i = if p i then c.get i else 0 := by
  induction c with
  | nil => simp [Cells.keep, Cells.get]
  | cons q c ih =>
    obtain ⟨a, v⟩ := q
    unfold Cells.keep at ih ⊢
    rw [List.filter_cons]
    by_cases hp : p a <;> by_cases hi : a = i
    · subst hi; simp [hp, Cells.get]
    · simp [hp, Cells.get, hi, ih]
    · subst hi; simp [hp, ih]
    · simp [hp, Cells.get, hi, ih]

end Sys2Proof
end

