-- ==== Sys2Proof/Laws/State.lean ====
section
/-!
SUPPORT. The fields of the state after each named update: one lemma per field that the update leaves alone (and per field it sets),
true by unfolding, so that no later proof unfolds a record update.
-/
namespace Sys2Proof.Machine

/-! ### `State.modTeam`, `State.modGroup`, `State.modCore`, `State.modCluster` -/

@[simp] theorem State.modTeam_mem (s : State) (t : Nat) (f : Team → Team) : (s.modTeam t f).mem = s.mem := rfl
@[simp] theorem State.modTeam_hostMem (s : State) (t : Nat) (f : Team → Team) : (s.modTeam t f).hostMem = s.hostMem := rfl
@[simp] theorem State.modTeam_hostReq (s : State) (t : Nat) (f : Team → Team) : (s.modTeam t f).hostReq = s.hostReq := rfl
@[simp] theorem State.modTeam_poison (s : State) (t : Nat) (f : Team → Team) : (s.modTeam t f).poison = s.poison := rfl
@[simp] theorem State.modTeam_zeroed (s : State) (t : Nat) (f : Team → Team) : (s.modTeam t f).zeroed = s.zeroed := rfl
@[simp] theorem State.modTeam_cores (s : State) (t : Nat) (f : Team → Team) : (s.modTeam t f).cores = s.cores := rfl
@[simp] theorem State.modTeam_clusters (s : State) (t : Nat) (f : Team → Team) : (s.modTeam t f).clusters = s.clusters := rfl
@[simp] theorem State.modTeam_rails (s : State) (t : Nat) (f : Team → Team) : (s.modTeam t f).rails = s.rails := rfl
@[simp] theorem State.modTeam_retention (s : State) (t : Nat) (f : Team → Team) : (s.modTeam t f).retention = s.retention := rfl
@[simp] theorem State.modTeam_banks (s : State) (t : Nat) (f : Team → Team) : (s.modTeam t f).banks = s.banks := rfl
@[simp] theorem State.modTeam_cards (s : State) (t : Nat) (f : Team → Team) : (s.modTeam t f).cards = s.cards := rfl
@[simp] theorem State.modTeam_pubs (s : State) (t : Nat) (f : Team → Team) : (s.modTeam t f).pubs = s.pubs := rfl
@[simp] theorem State.modTeam_engineRR (s : State) (t : Nat) (f : Team → Team) : (s.modTeam t f).engineRR = s.engineRR := rfl
@[simp] theorem State.modTeam_parts (s : State) (t : Nat) (f : Team → Team) : (s.modTeam t f).parts = s.parts := rfl
@[simp] theorem State.modTeam_tenants (s : State) (t : Nat) (f : Team → Team) : (s.modTeam t f).tenants = s.tenants := rfl
@[simp] theorem State.modTeam_vfs (s : State) (t : Nat) (f : Team → Team) : (s.modTeam t f).vfs = s.vfs := rfl
@[simp] theorem State.modTeam_pfRegs (s : State) (t : Nat) (f : Team → Team) : (s.modTeam t f).pfRegs = s.pfRegs := rfl
@[simp] theorem State.modTeam_berths (s : State) (t : Nat) (f : Team → Team) : (s.modTeam t f).berths = s.berths := rfl
@[simp] theorem State.modTeam_pfNext (s : State) (t : Nat) (f : Team → Team) : (s.modTeam t f).pfNext = s.pfNext := rfl
@[simp] theorem State.modTeam_cmds (s : State) (t : Nat) (f : Team → Team) : (s.modTeam t f).cmds = s.cmds := rfl
@[simp] theorem State.modTeam_ctxs (s : State) (t : Nat) (f : Team → Team) : (s.modTeam t f).ctxs = s.ctxs := rfl
@[simp] theorem State.modTeam_grids (s : State) (t : Nat) (f : Team → Team) : (s.modTeam t f).grids = s.grids := rfl
@[simp] theorem State.modTeam_preempts (s : State) (t : Nat) (f : Team → Team) : (s.modTeam t f).preempts = s.preempts := rfl
@[simp] theorem State.modTeam_quay (s : State) (t : Nat) (f : Team → Team) : (s.modTeam t f).quay = s.quay := rfl
@[simp] theorem State.modTeam_fuses (s : State) (t : Nat) (f : Team → Team) : (s.modTeam t f).fuses = s.fuses := rfl
@[simp] theorem State.modTeam_hm (s : State) (t : Nat) (f : Team → Team) : (s.modTeam t f).hm = s.hm := rfl
@[simp] theorem State.modTeam_boot (s : State) (t : Nat) (f : Team → Team) : (s.modTeam t f).boot = s.boot := rfl
@[simp] theorem State.modTeam_gridSerial (s : State) (t : Nat) (f : Team → Team) : (s.modTeam t f).gridSerial = s.gridSerial := rfl
@[simp] theorem State.modTeam_signals (s : State) (t : Nat) (f : Team → Team) : (s.modTeam t f).signals = s.signals := rfl
@[simp] theorem State.modTeam_agenda (s : State) (t : Nat) (f : Team → Team) : (s.modTeam t f).agenda = s.agenda := rfl
@[simp] theorem State.modTeam_cur (s : State) (t : Nat) (f : Team → Team) : (s.modTeam t f).cur = s.cur := rfl
@[simp] theorem State.modTeam_freeCount (s : State) (t : Nat) (f : Team → Team) : (s.modTeam t f).freeCount = s.freeCount := rfl
@[simp] theorem State.modTeam_cycles (s : State) (t : Nat) (f : Team → Team) : (s.modTeam t f).cycles = s.cycles := rfl
@[simp] theorem State.modTeam_nextId (s : State) (t : Nat) (f : Team → Team) : (s.modTeam t f).nextId = s.nextId := rfl
@[simp] theorem State.modTeam_stamp (s : State) (t : Nat) (f : Team → Team) : (s.modTeam t f).stamp = s.stamp := rfl
@[simp] theorem State.modGroup_mem (s : State) (t g : Nat) (f : Group → Group) : (s.modGroup t g f).mem = s.mem := rfl
@[simp] theorem State.modGroup_hostMem (s : State) (t g : Nat) (f : Group → Group) : (s.modGroup t g f).hostMem = s.hostMem := rfl
@[simp] theorem State.modGroup_hostReq (s : State) (t g : Nat) (f : Group → Group) : (s.modGroup t g f).hostReq = s.hostReq := rfl
@[simp] theorem State.modGroup_poison (s : State) (t g : Nat) (f : Group → Group) : (s.modGroup t g f).poison = s.poison := rfl
@[simp] theorem State.modGroup_zeroed (s : State) (t g : Nat) (f : Group → Group) : (s.modGroup t g f).zeroed = s.zeroed := rfl
@[simp] theorem State.modGroup_cores (s : State) (t g : Nat) (f : Group → Group) : (s.modGroup t g f).cores = s.cores := rfl
@[simp] theorem State.modGroup_clusters (s : State) (t g : Nat) (f : Group → Group) : (s.modGroup t g f).clusters = s.clusters := rfl
@[simp] theorem State.modGroup_rails (s : State) (t g : Nat) (f : Group → Group) : (s.modGroup t g f).rails = s.rails := rfl
@[simp] theorem State.modGroup_retention (s : State) (t g : Nat) (f : Group → Group) : (s.modGroup t g f).retention = s.retention := rfl
@[simp] theorem State.modGroup_banks (s : State) (t g : Nat) (f : Group → Group) : (s.modGroup t g f).banks = s.banks := rfl
@[simp] theorem State.modGroup_cards (s : State) (t g : Nat) (f : Group → Group) : (s.modGroup t g f).cards = s.cards := rfl
@[simp] theorem State.modGroup_pubs (s : State) (t g : Nat) (f : Group → Group) : (s.modGroup t g f).pubs = s.pubs := rfl
@[simp] theorem State.modGroup_engineRR (s : State) (t g : Nat) (f : Group → Group) : (s.modGroup t g f).engineRR = s.engineRR := rfl
@[simp] theorem State.modGroup_parts (s : State) (t g : Nat) (f : Group → Group) : (s.modGroup t g f).parts = s.parts := rfl
@[simp] theorem State.modGroup_tenants (s : State) (t g : Nat) (f : Group → Group) : (s.modGroup t g f).tenants = s.tenants := rfl
@[simp] theorem State.modGroup_vfs (s : State) (t g : Nat) (f : Group → Group) : (s.modGroup t g f).vfs = s.vfs := rfl
@[simp] theorem State.modGroup_pfRegs (s : State) (t g : Nat) (f : Group → Group) : (s.modGroup t g f).pfRegs = s.pfRegs := rfl
@[simp] theorem State.modGroup_berths (s : State) (t g : Nat) (f : Group → Group) : (s.modGroup t g f).berths = s.berths := rfl
@[simp] theorem State.modGroup_pfNext (s : State) (t g : Nat) (f : Group → Group) : (s.modGroup t g f).pfNext = s.pfNext := rfl
@[simp] theorem State.modGroup_cmds (s : State) (t g : Nat) (f : Group → Group) : (s.modGroup t g f).cmds = s.cmds := rfl
@[simp] theorem State.modGroup_ctxs (s : State) (t g : Nat) (f : Group → Group) : (s.modGroup t g f).ctxs = s.ctxs := rfl
@[simp] theorem State.modGroup_grids (s : State) (t g : Nat) (f : Group → Group) : (s.modGroup t g f).grids = s.grids := rfl
@[simp] theorem State.modGroup_preempts (s : State) (t g : Nat) (f : Group → Group) : (s.modGroup t g f).preempts = s.preempts := rfl
@[simp] theorem State.modGroup_quay (s : State) (t g : Nat) (f : Group → Group) : (s.modGroup t g f).quay = s.quay := rfl
@[simp] theorem State.modGroup_fuses (s : State) (t g : Nat) (f : Group → Group) : (s.modGroup t g f).fuses = s.fuses := rfl
@[simp] theorem State.modGroup_hm (s : State) (t g : Nat) (f : Group → Group) : (s.modGroup t g f).hm = s.hm := rfl
@[simp] theorem State.modGroup_boot (s : State) (t g : Nat) (f : Group → Group) : (s.modGroup t g f).boot = s.boot := rfl
@[simp] theorem State.modGroup_gridSerial (s : State) (t g : Nat) (f : Group → Group) : (s.modGroup t g f).gridSerial = s.gridSerial := rfl
@[simp] theorem State.modGroup_signals (s : State) (t g : Nat) (f : Group → Group) : (s.modGroup t g f).signals = s.signals := rfl
@[simp] theorem State.modGroup_agenda (s : State) (t g : Nat) (f : Group → Group) : (s.modGroup t g f).agenda = s.agenda := rfl
@[simp] theorem State.modGroup_cur (s : State) (t g : Nat) (f : Group → Group) : (s.modGroup t g f).cur = s.cur := rfl
@[simp] theorem State.modGroup_freeCount (s : State) (t g : Nat) (f : Group → Group) : (s.modGroup t g f).freeCount = s.freeCount := rfl
@[simp] theorem State.modGroup_cycles (s : State) (t g : Nat) (f : Group → Group) : (s.modGroup t g f).cycles = s.cycles := rfl
@[simp] theorem State.modGroup_nextId (s : State) (t g : Nat) (f : Group → Group) : (s.modGroup t g f).nextId = s.nextId := rfl
@[simp] theorem State.modGroup_stamp (s : State) (t g : Nat) (f : Group → Group) : (s.modGroup t g f).stamp = s.stamp := rfl
@[simp] theorem State.modCore_mem (s : State) (c : Nat) (f : Core → Core) : (s.modCore c f).mem = s.mem := rfl
@[simp] theorem State.modCore_hostMem (s : State) (c : Nat) (f : Core → Core) : (s.modCore c f).hostMem = s.hostMem := rfl
@[simp] theorem State.modCore_hostReq (s : State) (c : Nat) (f : Core → Core) : (s.modCore c f).hostReq = s.hostReq := rfl
@[simp] theorem State.modCore_poison (s : State) (c : Nat) (f : Core → Core) : (s.modCore c f).poison = s.poison := rfl
@[simp] theorem State.modCore_zeroed (s : State) (c : Nat) (f : Core → Core) : (s.modCore c f).zeroed = s.zeroed := rfl
@[simp] theorem State.modCore_teams (s : State) (c : Nat) (f : Core → Core) : (s.modCore c f).teams = s.teams := rfl
@[simp] theorem State.modCore_clusters (s : State) (c : Nat) (f : Core → Core) : (s.modCore c f).clusters = s.clusters := rfl
@[simp] theorem State.modCore_rails (s : State) (c : Nat) (f : Core → Core) : (s.modCore c f).rails = s.rails := rfl
@[simp] theorem State.modCore_retention (s : State) (c : Nat) (f : Core → Core) : (s.modCore c f).retention = s.retention := rfl
@[simp] theorem State.modCore_banks (s : State) (c : Nat) (f : Core → Core) : (s.modCore c f).banks = s.banks := rfl
@[simp] theorem State.modCore_cards (s : State) (c : Nat) (f : Core → Core) : (s.modCore c f).cards = s.cards := rfl
@[simp] theorem State.modCore_pubs (s : State) (c : Nat) (f : Core → Core) : (s.modCore c f).pubs = s.pubs := rfl
@[simp] theorem State.modCore_engineRR (s : State) (c : Nat) (f : Core → Core) : (s.modCore c f).engineRR = s.engineRR := rfl
@[simp] theorem State.modCore_parts (s : State) (c : Nat) (f : Core → Core) : (s.modCore c f).parts = s.parts := rfl
@[simp] theorem State.modCore_tenants (s : State) (c : Nat) (f : Core → Core) : (s.modCore c f).tenants = s.tenants := rfl
@[simp] theorem State.modCore_vfs (s : State) (c : Nat) (f : Core → Core) : (s.modCore c f).vfs = s.vfs := rfl
@[simp] theorem State.modCore_pfRegs (s : State) (c : Nat) (f : Core → Core) : (s.modCore c f).pfRegs = s.pfRegs := rfl
@[simp] theorem State.modCore_berths (s : State) (c : Nat) (f : Core → Core) : (s.modCore c f).berths = s.berths := rfl
@[simp] theorem State.modCore_pfNext (s : State) (c : Nat) (f : Core → Core) : (s.modCore c f).pfNext = s.pfNext := rfl
@[simp] theorem State.modCore_cmds (s : State) (c : Nat) (f : Core → Core) : (s.modCore c f).cmds = s.cmds := rfl
@[simp] theorem State.modCore_ctxs (s : State) (c : Nat) (f : Core → Core) : (s.modCore c f).ctxs = s.ctxs := rfl
@[simp] theorem State.modCore_grids (s : State) (c : Nat) (f : Core → Core) : (s.modCore c f).grids = s.grids := rfl
@[simp] theorem State.modCore_preempts (s : State) (c : Nat) (f : Core → Core) : (s.modCore c f).preempts = s.preempts := rfl
@[simp] theorem State.modCore_quay (s : State) (c : Nat) (f : Core → Core) : (s.modCore c f).quay = s.quay := rfl
@[simp] theorem State.modCore_fuses (s : State) (c : Nat) (f : Core → Core) : (s.modCore c f).fuses = s.fuses := rfl
@[simp] theorem State.modCore_hm (s : State) (c : Nat) (f : Core → Core) : (s.modCore c f).hm = s.hm := rfl
@[simp] theorem State.modCore_boot (s : State) (c : Nat) (f : Core → Core) : (s.modCore c f).boot = s.boot := rfl
@[simp] theorem State.modCore_gridSerial (s : State) (c : Nat) (f : Core → Core) : (s.modCore c f).gridSerial = s.gridSerial := rfl
@[simp] theorem State.modCore_signals (s : State) (c : Nat) (f : Core → Core) : (s.modCore c f).signals = s.signals := rfl
@[simp] theorem State.modCore_agenda (s : State) (c : Nat) (f : Core → Core) : (s.modCore c f).agenda = s.agenda := rfl
@[simp] theorem State.modCore_cur (s : State) (c : Nat) (f : Core → Core) : (s.modCore c f).cur = s.cur := rfl
@[simp] theorem State.modCore_freeCount (s : State) (c : Nat) (f : Core → Core) : (s.modCore c f).freeCount = s.freeCount := rfl
@[simp] theorem State.modCore_cycles (s : State) (c : Nat) (f : Core → Core) : (s.modCore c f).cycles = s.cycles := rfl
@[simp] theorem State.modCore_nextId (s : State) (c : Nat) (f : Core → Core) : (s.modCore c f).nextId = s.nextId := rfl
@[simp] theorem State.modCore_stamp (s : State) (c : Nat) (f : Core → Core) : (s.modCore c f).stamp = s.stamp := rfl
@[simp] theorem State.modCluster_mem (s : State) (c : Nat) (f : Cluster → Cluster) : (s.modCluster c f).mem = s.mem := rfl
@[simp] theorem State.modCluster_hostMem (s : State) (c : Nat) (f : Cluster → Cluster) : (s.modCluster c f).hostMem = s.hostMem := rfl
@[simp] theorem State.modCluster_hostReq (s : State) (c : Nat) (f : Cluster → Cluster) : (s.modCluster c f).hostReq = s.hostReq := rfl
@[simp] theorem State.modCluster_poison (s : State) (c : Nat) (f : Cluster → Cluster) : (s.modCluster c f).poison = s.poison := rfl
@[simp] theorem State.modCluster_zeroed (s : State) (c : Nat) (f : Cluster → Cluster) : (s.modCluster c f).zeroed = s.zeroed := rfl
@[simp] theorem State.modCluster_teams (s : State) (c : Nat) (f : Cluster → Cluster) : (s.modCluster c f).teams = s.teams := rfl
@[simp] theorem State.modCluster_cores (s : State) (c : Nat) (f : Cluster → Cluster) : (s.modCluster c f).cores = s.cores := rfl
@[simp] theorem State.modCluster_rails (s : State) (c : Nat) (f : Cluster → Cluster) : (s.modCluster c f).rails = s.rails := rfl
@[simp] theorem State.modCluster_retention (s : State) (c : Nat) (f : Cluster → Cluster) : (s.modCluster c f).retention = s.retention := rfl
@[simp] theorem State.modCluster_banks (s : State) (c : Nat) (f : Cluster → Cluster) : (s.modCluster c f).banks = s.banks := rfl
@[simp] theorem State.modCluster_cards (s : State) (c : Nat) (f : Cluster → Cluster) : (s.modCluster c f).cards = s.cards := rfl
@[simp] theorem State.modCluster_pubs (s : State) (c : Nat) (f : Cluster → Cluster) : (s.modCluster c f).pubs = s.pubs := rfl
@[simp] theorem State.modCluster_engineRR (s : State) (c : Nat) (f : Cluster → Cluster) : (s.modCluster c f).engineRR = s.engineRR := rfl
@[simp] theorem State.modCluster_parts (s : State) (c : Nat) (f : Cluster → Cluster) : (s.modCluster c f).parts = s.parts := rfl
@[simp] theorem State.modCluster_tenants (s : State) (c : Nat) (f : Cluster → Cluster) : (s.modCluster c f).tenants = s.tenants := rfl
@[simp] theorem State.modCluster_vfs (s : State) (c : Nat) (f : Cluster → Cluster) : (s.modCluster c f).vfs = s.vfs := rfl
@[simp] theorem State.modCluster_pfRegs (s : State) (c : Nat) (f : Cluster → Cluster) : (s.modCluster c f).pfRegs = s.pfRegs := rfl
@[simp] theorem State.modCluster_berths (s : State) (c : Nat) (f : Cluster → Cluster) : (s.modCluster c f).berths = s.berths := rfl
@[simp] theorem State.modCluster_pfNext (s : State) (c : Nat) (f : Cluster → Cluster) : (s.modCluster c f).pfNext = s.pfNext := rfl
@[simp] theorem State.modCluster_cmds (s : State) (c : Nat) (f : Cluster → Cluster) : (s.modCluster c f).cmds = s.cmds := rfl
@[simp] theorem State.modCluster_ctxs (s : State) (c : Nat) (f : Cluster → Cluster) : (s.modCluster c f).ctxs = s.ctxs := rfl
@[simp] theorem State.modCluster_grids (s : State) (c : Nat) (f : Cluster → Cluster) : (s.modCluster c f).grids = s.grids := rfl
@[simp] theorem State.modCluster_preempts (s : State) (c : Nat) (f : Cluster → Cluster) : (s.modCluster c f).preempts = s.preempts := rfl
@[simp] theorem State.modCluster_quay (s : State) (c : Nat) (f : Cluster → Cluster) : (s.modCluster c f).quay = s.quay := rfl
@[simp] theorem State.modCluster_fuses (s : State) (c : Nat) (f : Cluster → Cluster) : (s.modCluster c f).fuses = s.fuses := rfl
@[simp] theorem State.modCluster_hm (s : State) (c : Nat) (f : Cluster → Cluster) : (s.modCluster c f).hm = s.hm := rfl
@[simp] theorem State.modCluster_boot (s : State) (c : Nat) (f : Cluster → Cluster) : (s.modCluster c f).boot = s.boot := rfl
@[simp] theorem State.modCluster_gridSerial (s : State) (c : Nat) (f : Cluster → Cluster) : (s.modCluster c f).gridSerial = s.gridSerial := rfl
@[simp] theorem State.modCluster_signals (s : State) (c : Nat) (f : Cluster → Cluster) : (s.modCluster c f).signals = s.signals := rfl
@[simp] theorem State.modCluster_agenda (s : State) (c : Nat) (f : Cluster → Cluster) : (s.modCluster c f).agenda = s.agenda := rfl
@[simp] theorem State.modCluster_cur (s : State) (c : Nat) (f : Cluster → Cluster) : (s.modCluster c f).cur = s.cur := rfl
@[simp] theorem State.modCluster_freeCount (s : State) (c : Nat) (f : Cluster → Cluster) : (s.modCluster c f).freeCount = s.freeCount := rfl
@[simp] theorem State.modCluster_cycles (s : State) (c : Nat) (f : Cluster → Cluster) : (s.modCluster c f).cycles = s.cycles := rfl
@[simp] theorem State.modCluster_nextId (s : State) (c : Nat) (f : Cluster → Cluster) : (s.modCluster c f).nextId = s.nextId := rfl
@[simp] theorem State.modCluster_stamp (s : State) (c : Nat) (f : Cluster → Cluster) : (s.modCluster c f).stamp = s.stamp := rfl
@[simp] theorem State.modCore_cores (s : State) (c : Nat) (f : Core → Core) : (s.modCore c f).cores = listModify s.cores c f := rfl
@[simp] theorem State.modCluster_clusters (s : State) (c : Nat) (f : Cluster → Cluster) : (s.modCluster c f).clusters = listModify s.clusters c f := rfl

/-! ### `Team.modBody`, `Team.modGroup`, `Team.modLane` -/

@[simp] theorem Team.modBody_id (t : Team) (f : Body → Body) : (t.modBody f).id = t.id := rfl
@[simp] theorem Team.modBody_grid (t : Team) (f : Body → Body) : (t.modBody f).grid = t.grid := rfl
@[simp] theorem Team.modBody_index (t : Team) (f : Body → Body) : (t.modBody f).index = t.index := rfl
@[simp] theorem Team.modBody_tenant (t : Team) (f : Body → Body) : (t.modBody f).tenant = t.tenant := rfl
@[simp] theorem Team.modBody_part (t : Team) (f : Body → Body) : (t.modBody f).part = t.part := rfl
@[simp] theorem Team.modBody_ctx (t : Team) (f : Body → Body) : (t.modBody f).ctx = t.ctx := rfl
@[simp] theorem Team.modBody_hdr (t : Team) (f : Body → Body) : (t.modBody f).hdr = t.hdr := rfl
@[simp] theorem Team.modBody_image (t : Team) (f : Body → Body) : (t.modBody f).image = t.image := rfl
@[simp] theorem Team.modBody_seed (t : Team) (f : Body → Body) : (t.modBody f).seed = t.seed := rfl
@[simp] theorem Team.modBody_place (t : Team) (f : Body → Body) : (t.modBody f).place = t.place := rfl
@[simp] theorem Team.modBody_pairSlot (t : Team) (f : Body → Body) : (t.modBody f).pairSlot = t.pairSlot := rfl
@[simp] theorem Team.modBody_context (t : Team) (f : Body → Body) : (t.modBody f).context = t.context := rfl
@[simp] theorem Team.modBody_trail (t : Team) (f : Body → Body) : (t.modBody f).trail = t.trail := rfl
@[simp] theorem Team.modBody_tel (t : Team) (f : Body → Body) : (t.modBody f).tel = t.tel := rfl
@[simp] theorem Team.modBody_took (t : Team) (f : Body → Body) : (t.modBody f).took = t.took := rfl
@[simp] theorem Team.modBody_lead (t : Team) (f : Body → Body) : (t.modBody f).lead = t.lead := rfl
@[simp] theorem Team.modBody_snap (t : Team) (f : Body → Body) : (t.modBody f).snap = t.snap := rfl
@[simp] theorem Team.modBody_snapTraps (t : Team) (f : Body → Body) : (t.modBody f).snapTraps = t.snapTraps := rfl
@[simp] theorem Team.modBody_snapAt (t : Team) (f : Body → Body) : (t.modBody f).snapAt = t.snapAt := rfl
@[simp] theorem Team.modBody_mode (t : Team) (f : Body → Body) : (t.modBody f).mode = t.mode := rfl
@[simp] theorem Team.modBody_mcount (t : Team) (f : Body → Body) : (t.modBody f).mcount = t.mcount := rfl
@[simp] theorem Team.modBody_mismatch (t : Team) (f : Body → Body) : (t.modBody f).mismatch = t.mismatch := rfl
@[simp] theorem Team.modBody_versions (t : Team) (f : Body → Body) : (t.modBody f).versions = t.versions := rfl
@[simp] theorem Team.modBody_deferred (t : Team) (f : Body → Body) : (t.modBody f).deferred = t.deferred := rfl
@[simp] theorem Team.modBody_boundary (t : Team) (f : Body → Body) : (t.modBody f).boundary = t.boundary := rfl
@[simp] theorem Team.modBody_committed (t : Team) (f : Body → Body) : (t.modBody f).committed = t.committed := rfl
@[simp] theorem Team.modBody_reslice (t : Team) (f : Body → Body) : (t.modBody f).reslice = t.reslice := rfl
@[simp] theorem Team.modBody_seg0 (t : Team) (f : Body → Body) : (t.modBody f).seg0 = t.seg0 := rfl
@[simp] theorem Team.modBody_args (t : Team) (f : Body → Body) : (t.modBody f).args = t.args := rfl
@[simp] theorem Team.modBody_segT (t : Team) (f : Body → Body) : (t.modBody f).segT = t.segT := rfl
@[simp] theorem Team.modBody_traps (t : Team) (f : Body → Body) : (t.modBody f).traps = t.traps := rfl
@[simp] theorem Team.modBody_rollback (t : Team) (f : Body → Body) : (t.modBody f).rollback = t.rollback := rfl
@[simp] theorem Team.modBody_issued (t : Team) (f : Body → Body) : (t.modBody f).issued = t.issued := rfl
@[simp] theorem Team.modBody_body (t : Team) (f : Body → Body) : (t.modBody f).body = f t.body := rfl
@[simp] theorem Team.modGroup_id (t : Team) (g : Nat) (f : Group → Group) : (t.modGroup g f).id = t.id := rfl
@[simp] theorem Team.modGroup_grid (t : Team) (g : Nat) (f : Group → Group) : (t.modGroup g f).grid = t.grid := rfl
@[simp] theorem Team.modGroup_index (t : Team) (g : Nat) (f : Group → Group) : (t.modGroup g f).index = t.index := rfl
@[simp] theorem Team.modGroup_tenant (t : Team) (g : Nat) (f : Group → Group) : (t.modGroup g f).tenant = t.tenant := rfl
@[simp] theorem Team.modGroup_part (t : Team) (g : Nat) (f : Group → Group) : (t.modGroup g f).part = t.part := rfl
@[simp] theorem Team.modGroup_ctx (t : Team) (g : Nat) (f : Group → Group) : (t.modGroup g f).ctx = t.ctx := rfl
@[simp] theorem Team.modGroup_hdr (t : Team) (g : Nat) (f : Group → Group) : (t.modGroup g f).hdr = t.hdr := rfl
@[simp] theorem Team.modGroup_image (t : Team) (g : Nat) (f : Group → Group) : (t.modGroup g f).image = t.image := rfl
@[simp] theorem Team.modGroup_seed (t : Team) (g : Nat) (f : Group → Group) : (t.modGroup g f).seed = t.seed := rfl
@[simp] theorem Team.modGroup_place (t : Team) (g : Nat) (f : Group → Group) : (t.modGroup g f).place = t.place := rfl
@[simp] theorem Team.modGroup_pairSlot (t : Team) (g : Nat) (f : Group → Group) : (t.modGroup g f).pairSlot = t.pairSlot := rfl
@[simp] theorem Team.modGroup_context (t : Team) (g : Nat) (f : Group → Group) : (t.modGroup g f).context = t.context := rfl
@[simp] theorem Team.modGroup_trail (t : Team) (g : Nat) (f : Group → Group) : (t.modGroup g f).trail = t.trail := rfl
@[simp] theorem Team.modGroup_tel (t : Team) (g : Nat) (f : Group → Group) : (t.modGroup g f).tel = t.tel := rfl
@[simp] theorem Team.modGroup_took (t : Team) (g : Nat) (f : Group → Group) : (t.modGroup g f).took = t.took := rfl
@[simp] theorem Team.modGroup_lead (t : Team) (g : Nat) (f : Group → Group) : (t.modGroup g f).lead = t.lead := rfl
@[simp] theorem Team.modGroup_snap (t : Team) (g : Nat) (f : Group → Group) : (t.modGroup g f).snap = t.snap := rfl
@[simp] theorem Team.modGroup_snapTraps (t : Team) (g : Nat) (f : Group → Group) : (t.modGroup g f).snapTraps = t.snapTraps := rfl
@[simp] theorem Team.modGroup_snapAt (t : Team) (g : Nat) (f : Group → Group) : (t.modGroup g f).snapAt = t.snapAt := rfl
@[simp] theorem Team.modGroup_mode (t : Team) (g : Nat) (f : Group → Group) : (t.modGroup g f).mode = t.mode := rfl
@[simp] theorem Team.modGroup_mcount (t : Team) (g : Nat) (f : Group → Group) : (t.modGroup g f).mcount = t.mcount := rfl
@[simp] theorem Team.modGroup_mismatch (t : Team) (g : Nat) (f : Group → Group) : (t.modGroup g f).mismatch = t.mismatch := rfl
@[simp] theorem Team.modGroup_versions (t : Team) (g : Nat) (f : Group → Group) : (t.modGroup g f).versions = t.versions := rfl
@[simp] theorem Team.modGroup_deferred (t : Team) (g : Nat) (f : Group → Group) : (t.modGroup g f).deferred = t.deferred := rfl
@[simp] theorem Team.modGroup_boundary (t : Team) (g : Nat) (f : Group → Group) : (t.modGroup g f).boundary = t.boundary := rfl
@[simp] theorem Team.modGroup_committed (t : Team) (g : Nat) (f : Group → Group) : (t.modGroup g f).committed = t.committed := rfl
@[simp] theorem Team.modGroup_reslice (t : Team) (g : Nat) (f : Group → Group) : (t.modGroup g f).reslice = t.reslice := rfl
@[simp] theorem Team.modGroup_seg0 (t : Team) (g : Nat) (f : Group → Group) : (t.modGroup g f).seg0 = t.seg0 := rfl
@[simp] theorem Team.modGroup_args (t : Team) (g : Nat) (f : Group → Group) : (t.modGroup g f).args = t.args := rfl
@[simp] theorem Team.modGroup_segT (t : Team) (g : Nat) (f : Group → Group) : (t.modGroup g f).segT = t.segT := rfl
@[simp] theorem Team.modGroup_traps (t : Team) (g : Nat) (f : Group → Group) : (t.modGroup g f).traps = t.traps := rfl
@[simp] theorem Team.modGroup_rollback (t : Team) (g : Nat) (f : Group → Group) : (t.modGroup g f).rollback = t.rollback := rfl
@[simp] theorem Team.modGroup_issued (t : Team) (g : Nat) (f : Group → Group) : (t.modGroup g f).issued = t.issued := rfl
@[simp] theorem Team.modGroup_body_lanes (t : Team) (g : Nat) (f : Group → Group) : (t.modGroup g f).body.lanes = t.body.lanes := rfl
@[simp] theorem Team.modGroup_body_barriers (t : Team) (g : Nat) (f : Group → Group) : (t.modGroup g f).body.barriers = t.body.barriers := rfl
@[simp] theorem Team.modGroup_body_taskArr (t : Team) (g : Nat) (f : Group → Group) : (t.modGroup g f).body.taskArr = t.body.taskArr := rfl
@[simp] theorem Team.modGroup_body_grant (t : Team) (g : Nat) (f : Group → Group) : (t.modGroup g f).body.grant = t.body.grant := rfl
@[simp] theorem Team.modGroup_body_request (t : Team) (g : Nat) (f : Group → Group) : (t.modGroup g f).body.request = t.body.request := rfl
@[simp] theorem Team.modGroup_body_gen (t : Team) (g : Nat) (f : Group → Group) : (t.modGroup g f).body.gen = t.body.gen := rfl
@[simp] theorem Team.modGroup_body_srCtr (t : Team) (g : Nat) (f : Group → Group) : (t.modGroup g f).body.srCtr = t.body.srCtr := rfl
@[simp] theorem Team.modGroup_body_task (t : Team) (g : Nat) (f : Group → Group) : (t.modGroup g f).body.task = t.body.task := rfl
@[simp] theorem Team.modGroup_body_scratch (t : Team) (g : Nat) (f : Group → Group) : (t.modGroup g f).body.scratch = t.body.scratch := rfl
@[simp] theorem Team.modGroup_body_scratchUE (t : Team) (g : Nat) (f : Group → Group) : (t.modGroup g f).body.scratchUE = t.body.scratchUE := rfl
@[simp] theorem Team.modGroup_body_stream (t : Team) (g : Nat) (f : Group → Group) : (t.modGroup g f).body.stream = t.body.stream := rfl
@[simp] theorem Team.modGroup_body_groups (t : Team) (g : Nat) (f : Group → Group) : (t.modGroup g f).body.groups = listModify t.body.groups g f := rfl
@[simp] theorem Team.modLane_id (t : Team) (l : Nat) (f : Lane → Lane) : (t.modLane l f).id = t.id := rfl
@[simp] theorem Team.modLane_grid (t : Team) (l : Nat) (f : Lane → Lane) : (t.modLane l f).grid = t.grid := rfl
@[simp] theorem Team.modLane_index (t : Team) (l : Nat) (f : Lane → Lane) : (t.modLane l f).index = t.index := rfl
@[simp] theorem Team.modLane_tenant (t : Team) (l : Nat) (f : Lane → Lane) : (t.modLane l f).tenant = t.tenant := rfl
@[simp] theorem Team.modLane_part (t : Team) (l : Nat) (f : Lane → Lane) : (t.modLane l f).part = t.part := rfl
@[simp] theorem Team.modLane_ctx (t : Team) (l : Nat) (f : Lane → Lane) : (t.modLane l f).ctx = t.ctx := rfl
@[simp] theorem Team.modLane_hdr (t : Team) (l : Nat) (f : Lane → Lane) : (t.modLane l f).hdr = t.hdr := rfl
@[simp] theorem Team.modLane_image (t : Team) (l : Nat) (f : Lane → Lane) : (t.modLane l f).image = t.image := rfl
@[simp] theorem Team.modLane_seed (t : Team) (l : Nat) (f : Lane → Lane) : (t.modLane l f).seed = t.seed := rfl
@[simp] theorem Team.modLane_place (t : Team) (l : Nat) (f : Lane → Lane) : (t.modLane l f).place = t.place := rfl
@[simp] theorem Team.modLane_pairSlot (t : Team) (l : Nat) (f : Lane → Lane) : (t.modLane l f).pairSlot = t.pairSlot := rfl
@[simp] theorem Team.modLane_context (t : Team) (l : Nat) (f : Lane → Lane) : (t.modLane l f).context = t.context := rfl
@[simp] theorem Team.modLane_trail (t : Team) (l : Nat) (f : Lane → Lane) : (t.modLane l f).trail = t.trail := rfl
@[simp] theorem Team.modLane_tel (t : Team) (l : Nat) (f : Lane → Lane) : (t.modLane l f).tel = t.tel := rfl
@[simp] theorem Team.modLane_took (t : Team) (l : Nat) (f : Lane → Lane) : (t.modLane l f).took = t.took := rfl
@[simp] theorem Team.modLane_lead (t : Team) (l : Nat) (f : Lane → Lane) : (t.modLane l f).lead = t.lead := rfl
@[simp] theorem Team.modLane_snap (t : Team) (l : Nat) (f : Lane → Lane) : (t.modLane l f).snap = t.snap := rfl
@[simp] theorem Team.modLane_snapTraps (t : Team) (l : Nat) (f : Lane → Lane) : (t.modLane l f).snapTraps = t.snapTraps := rfl
@[simp] theorem Team.modLane_snapAt (t : Team) (l : Nat) (f : Lane → Lane) : (t.modLane l f).snapAt = t.snapAt := rfl
@[simp] theorem Team.modLane_mode (t : Team) (l : Nat) (f : Lane → Lane) : (t.modLane l f).mode = t.mode := rfl
@[simp] theorem Team.modLane_mcount (t : Team) (l : Nat) (f : Lane → Lane) : (t.modLane l f).mcount = t.mcount := rfl
@[simp] theorem Team.modLane_mismatch (t : Team) (l : Nat) (f : Lane → Lane) : (t.modLane l f).mismatch = t.mismatch := rfl
@[simp] theorem Team.modLane_versions (t : Team) (l : Nat) (f : Lane → Lane) : (t.modLane l f).versions = t.versions := rfl
@[simp] theorem Team.modLane_deferred (t : Team) (l : Nat) (f : Lane → Lane) : (t.modLane l f).deferred = t.deferred := rfl
@[simp] theorem Team.modLane_boundary (t : Team) (l : Nat) (f : Lane → Lane) : (t.modLane l f).boundary = t.boundary := rfl
@[simp] theorem Team.modLane_committed (t : Team) (l : Nat) (f : Lane → Lane) : (t.modLane l f).committed = t.committed := rfl
@[simp] theorem Team.modLane_reslice (t : Team) (l : Nat) (f : Lane → Lane) : (t.modLane l f).reslice = t.reslice := rfl
@[simp] theorem Team.modLane_seg0 (t : Team) (l : Nat) (f : Lane → Lane) : (t.modLane l f).seg0 = t.seg0 := rfl
@[simp] theorem Team.modLane_args (t : Team) (l : Nat) (f : Lane → Lane) : (t.modLane l f).args = t.args := rfl
@[simp] theorem Team.modLane_segT (t : Team) (l : Nat) (f : Lane → Lane) : (t.modLane l f).segT = t.segT := rfl
@[simp] theorem Team.modLane_traps (t : Team) (l : Nat) (f : Lane → Lane) : (t.modLane l f).traps = t.traps := rfl
@[simp] theorem Team.modLane_rollback (t : Team) (l : Nat) (f : Lane → Lane) : (t.modLane l f).rollback = t.rollback := rfl
@[simp] theorem Team.modLane_issued (t : Team) (l : Nat) (f : Lane → Lane) : (t.modLane l f).issued = t.issued := rfl
@[simp] theorem Team.modLane_body_groups (t : Team) (l : Nat) (f : Lane → Lane) : (t.modLane l f).body.groups = t.body.groups := rfl
@[simp] theorem Team.modLane_body_barriers (t : Team) (l : Nat) (f : Lane → Lane) : (t.modLane l f).body.barriers = t.body.barriers := rfl
@[simp] theorem Team.modLane_body_taskArr (t : Team) (l : Nat) (f : Lane → Lane) : (t.modLane l f).body.taskArr = t.body.taskArr := rfl
@[simp] theorem Team.modLane_body_grant (t : Team) (l : Nat) (f : Lane → Lane) : (t.modLane l f).body.grant = t.body.grant := rfl
@[simp] theorem Team.modLane_body_request (t : Team) (l : Nat) (f : Lane → Lane) : (t.modLane l f).body.request = t.body.request := rfl
@[simp] theorem Team.modLane_body_gen (t : Team) (l : Nat) (f : Lane → Lane) : (t.modLane l f).body.gen = t.body.gen := rfl
@[simp] theorem Team.modLane_body_srCtr (t : Team) (l : Nat) (f : Lane → Lane) : (t.modLane l f).body.srCtr = t.body.srCtr := rfl
@[simp] theorem Team.modLane_body_task (t : Team) (l : Nat) (f : Lane → Lane) : (t.modLane l f).body.task = t.body.task := rfl
@[simp] theorem Team.modLane_body_scratch (t : Team) (l : Nat) (f : Lane → Lane) : (t.modLane l f).body.scratch = t.body.scratch := rfl
@[simp] theorem Team.modLane_body_scratchUE (t : Team) (l : Nat) (f : Lane → Lane) : (t.modLane l f).body.scratchUE = t.body.scratchUE := rfl
@[simp] theorem Team.modLane_body_stream (t : Team) (l : Nat) (f : Lane → Lane) : (t.modLane l f).body.stream = t.body.stream := rfl
@[simp] theorem Team.modLane_body_lanes (t : Team) (l : Nat) (f : Lane → Lane) : (t.modLane l f).body.lanes = listModify t.body.lanes l f := rfl

/-! ### `Group.modFrag` and `Group.setS` -/

@[simp] theorem Group.modFrag_role (g : Group) (k : Nat) (f : Frag → Frag) : (g.modFrag k f).role = g.role := rfl
@[simp] theorem Group.modFrag_first (g : Group) (k : Nat) (f : Frag → Frag) : (g.modFrag k f).first = g.first := rfl
@[simp] theorem Group.modFrag_count (g : Group) (k : Nat) (f : Frag → Frag) : (g.modFrag k f).count = g.count := rfl
@[simp] theorem Group.modFrag_pipe (g : Group) (k : Nat) (f : Frag → Frag) : (g.modFrag k f).pipe = g.pipe := rfl
@[simp] theorem Group.modFrag_s (g : Group) (k : Nat) (f : Frag → Frag) : (g.modFrag k f).s = g.s := rfl
@[simp] theorem Group.modFrag_ue (g : Group) (k : Nat) (f : Frag → Frag) : (g.modFrag k f).ue = g.ue := rfl
@[simp] theorem Group.modFrag_mr (g : Group) (k : Nat) (f : Frag → Frag) : (g.modFrag k f).mr = g.mr := rfl
@[simp] theorem Group.modFrag_seg (g : Group) (k : Nat) (f : Frag → Frag) : (g.modFrag k f).seg = g.seg := rfl
@[simp] theorem Group.modFrag_flags (g : Group) (k : Nat) (f : Frag → Frag) : (g.modFrag k f).flags = g.flags := rfl
@[simp] theorem Group.modFrag_flight (g : Group) (k : Nat) (f : Frag → Frag) : (g.modFrag k f).flight = g.flight := rfl
@[simp] theorem Group.modFrag_clock (g : Group) (k : Nat) (f : Frag → Frag) : (g.modFrag k f).clock = g.clock := rfl
@[simp] theorem Group.modFrag_hang (g : Group) (k : Nat) (f : Frag → Frag) : (g.modFrag k f).hang = g.hang := rfl
@[simp] theorem Group.modFrag_widthReq (g : Group) (k : Nat) (f : Frag → Frag) : (g.modFrag k f).widthReq = g.widthReq := rfl
@[simp] theorem Group.modFrag_l1Stamp (g : Group) (k : Nat) (f : Frag → Frag) : (g.modFrag k f).l1Stamp = g.l1Stamp := rfl
@[simp] theorem Group.modFrag_nextId (g : Group) (k : Nat) (f : Frag → Frag) : (g.modFrag k f).nextId = g.nextId := rfl
@[simp] theorem Group.modFrag_grace (g : Group) (k : Nat) (f : Frag → Frag) : (g.modFrag k f).grace = g.grace := rfl
@[simp] theorem Group.modFrag_stopped (g : Group) (k : Nat) (f : Frag → Frag) : (g.modFrag k f).stopped = g.stopped := rfl
@[simp] theorem Group.modFrag_frags (g : Group) (k : Nat) (f : Frag → Frag) : (g.modFrag k f).frags = listModify g.frags k f := rfl
@[simp] theorem Group.setS_role (g : Group) (n : Nat) (v : Word) : (g.setS n v).role = g.role := rfl
@[simp] theorem Group.setS_first (g : Group) (n : Nat) (v : Word) : (g.setS n v).first = g.first := rfl
@[simp] theorem Group.setS_count (g : Group) (n : Nat) (v : Word) : (g.setS n v).count = g.count := rfl
@[simp] theorem Group.setS_pipe (g : Group) (n : Nat) (v : Word) : (g.setS n v).pipe = g.pipe := rfl
@[simp] theorem Group.setS_mr (g : Group) (n : Nat) (v : Word) : (g.setS n v).mr = g.mr := rfl
@[simp] theorem Group.setS_seg (g : Group) (n : Nat) (v : Word) : (g.setS n v).seg = g.seg := rfl
@[simp] theorem Group.setS_flags (g : Group) (n : Nat) (v : Word) : (g.setS n v).flags = g.flags := rfl
@[simp] theorem Group.setS_flight (g : Group) (n : Nat) (v : Word) : (g.setS n v).flight = g.flight := rfl
@[simp] theorem Group.setS_clock (g : Group) (n : Nat) (v : Word) : (g.setS n v).clock = g.clock := rfl
@[simp] theorem Group.setS_hang (g : Group) (n : Nat) (v : Word) : (g.setS n v).hang = g.hang := rfl
@[simp] theorem Group.setS_widthReq (g : Group) (n : Nat) (v : Word) : (g.setS n v).widthReq = g.widthReq := rfl
@[simp] theorem Group.setS_l1Stamp (g : Group) (n : Nat) (v : Word) : (g.setS n v).l1Stamp = g.l1Stamp := rfl
@[simp] theorem Group.setS_frags (g : Group) (n : Nat) (v : Word) : (g.setS n v).frags = g.frags := rfl
@[simp] theorem Group.setS_nextId (g : Group) (n : Nat) (v : Word) : (g.setS n v).nextId = g.nextId := rfl
@[simp] theorem Group.setS_grace (g : Group) (n : Nat) (v : Word) : (g.setS n v).grace = g.grace := rfl
@[simp] theorem Group.setS_stopped (g : Group) (n : Nat) (v : Word) : (g.setS n v).stopped = g.stopped := rfl
@[simp] theorem Group.setTriple_role (g : Group) (n : Nat) (m : Mask) : (g.setTriple n m).role = g.role := rfl
@[simp] theorem Group.setTriple_first (g : Group) (n : Nat) (m : Mask) : (g.setTriple n m).first = g.first := rfl
@[simp] theorem Group.setTriple_count (g : Group) (n : Nat) (m : Mask) : (g.setTriple n m).count = g.count := rfl
@[simp] theorem Group.setTriple_pipe (g : Group) (n : Nat) (m : Mask) : (g.setTriple n m).pipe = g.pipe := rfl
@[simp] theorem Group.setTriple_mr (g : Group) (n : Nat) (m : Mask) : (g.setTriple n m).mr = g.mr := rfl
@[simp] theorem Group.setTriple_seg (g : Group) (n : Nat) (m : Mask) : (g.setTriple n m).seg = g.seg := rfl
@[simp] theorem Group.setTriple_flags (g : Group) (n : Nat) (m : Mask) : (g.setTriple n m).flags = g.flags := rfl
@[simp] theorem Group.setTriple_flight (g : Group) (n : Nat) (m : Mask) : (g.setTriple n m).flight = g.flight := rfl
@[simp] theorem Group.setTriple_clock (g : Group) (n : Nat) (m : Mask) : (g.setTriple n m).clock = g.clock := rfl
@[simp] theorem Group.setTriple_hang (g : Group) (n : Nat) (m : Mask) : (g.setTriple n m).hang = g.hang := rfl
@[simp] theorem Group.setTriple_widthReq (g : Group) (n : Nat) (m : Mask) : (g.setTriple n m).widthReq = g.widthReq := rfl
@[simp] theorem Group.setTriple_l1Stamp (g : Group) (n : Nat) (m : Mask) : (g.setTriple n m).l1Stamp = g.l1Stamp := rfl
@[simp] theorem Group.setTriple_frags (g : Group) (n : Nat) (m : Mask) : (g.setTriple n m).frags = g.frags := rfl
@[simp] theorem Group.setTriple_nextId (g : Group) (n : Nat) (m : Mask) : (g.setTriple n m).nextId = g.nextId := rfl
@[simp] theorem Group.setTriple_grace (g : Group) (n : Nat) (m : Mask) : (g.setTriple n m).grace = g.grace := rfl
@[simp] theorem Group.setTriple_stopped (g : Group) (n : Nat) (m : Mask) : (g.setTriple n m).stopped = g.stopped := rfl

end Sys2Proof.Machine
end

