-- ==== Sys2Proof/Laws/Lists.lean ====
section
/-!
SUPPORT. Replacing an element of a list, and the team and group found after one was changed.
-/
namespace Sys2Proof

/-! ### Replacing an element -/

@[simp] theorem listModify_length {α : Type} (l : List α) (k : Nat) (f : α → α) : (listModify l k f).length = l.length := by
  induction l generalizing k with
  | nil => cases k <;> rfl
  | cons a as ih => cases k <;> simp [listModify, ih]

theorem listModify_getElem? {α : Type} (l : List α) (k i : Nat) (f : α → α) :
    (listModify l k f)[i]? = if i = k then (l[i]?).map f else l[i]? := by
  induction l generalizing k i with
  | nil => cases k <;> simp [listModify]
  | cons a as ih =>
    cases k with
    | zero => cases i <;> simp [listModify]
    | succ k => cases i with
      | zero => simp [listModify]
      | succ i => simp [listModify, ih]

@[simp] theorem listModify_getElem?_self {α : Type} (l : List α) (k : Nat) (f : α → α) : (listModify l k f)[k]? = (l[k]?).map f := by
  simp [listModify_getElem?]

theorem listModify_getElem?_ne {α : Type} (l : List α) {k i : Nat} (f : α → α) (h : i ≠ k) : (listModify l k f)[i]? = l[i]? := by
  simp [listModify_getElem?, h]

theorem listModify_listModify {α : Type} (l : List α) (k : Nat) (f g : α → α) :
    listModify (listModify l k f) k g = listModify l k (fun a => g (f a)) := by
  induction l generalizing k with
  | nil => cases k <;> rfl
  | cons a as ih => cases k <;> simp [listModify, ih]

theorem listModify_congr {α : Type} (l : List α) (k : Nat) (f g : α → α) (h : ∀ a ∈ l[k]?, f a = g a) :
    listModify l k f = listModify l k g := by
  induction l generalizing k with
  | nil => cases k <;> rfl
  | cons a as ih =>
    cases k with
    | zero => simpa [listModify] using h
    | succ k => simpa [listModify] using ih k (by simpa using h)

theorem listModify_id {α : Type} (l : List α) (k : Nat) (f : α → α) (h : ∀ a ∈ l[k]?, f a = a) : listModify l k f = l := by
  induction l generalizing k with
  | nil => cases k <;> rfl
  | cons a as ih =>
    cases k with
    | zero => simpa [listModify] using h
    | succ k => simpa [listModify] using ih k (by simpa using h)

end Sys2Proof

namespace Sys2Proof.Machine

/-! ### The team and the group found -/

/-- A team is found changed after a change that keeps its identity. -/
theorem State.team?_modTeam (s : State) (tid : Nat) (f : Team → Team) (hf : ∀ t, t.id = tid → (f t).id = tid) (k : Nat) :
    (s.modTeam tid f).team? k = (s.team? k).map (fun t => if k = tid then f t else t) := by
  unfold State.team? State.modTeam
  simp only [List.find?_map]
  have hp : ((fun x : Team => x.id == k) ∘ fun x => if x.id == tid then f x else x) = (fun x => x.id == k) := by
    funext x
    by_cases h : x.id = tid
    · simp [h, hf x h]
    · simp [h]
  rw [hp]
  cases h : s.teams.find? (fun x => x.id == k) with
  | none => rfl
  | some t =>
    have := List.find?_some h
    simp_all

theorem State.team?_modTeam_self (s : State) (tid : Nat) (f : Team → Team) (hf : ∀ t, t.id = tid → (f t).id = tid) :
    (s.modTeam tid f).team? tid = (s.team? tid).map f := by
  simp [State.team?_modTeam s tid f hf]

theorem State.team?_modTeam_ne (s : State) (tid : Nat) (f : Team → Team) (hf : ∀ t, t.id = tid → (f t).id = tid) {k : Nat} (h : k ≠ tid) :
    (s.modTeam tid f).team? k = s.team? k := by
  simp [State.team?_modTeam s tid f hf, h]

/-- The team found has the identity looked for. -/
theorem State.team?_id {s : State} {k : Nat} {t : Team} (h : s.team? k = some t) : t.id = k := by
  simpa using List.find?_some h

/-- Two changes of one team are one change. -/
theorem State.modTeam_modTeam (s : State) (tid : Nat) (f g : Team → Team) (hf : ∀ t, (f t).id = t.id) :
    (s.modTeam tid f).modTeam tid g = s.modTeam tid (fun t => g (f t)) := by
  simp only [State.modTeam, List.map_map]
  congr 1
  refine List.map_congr_left (fun t _ => ?_)
  by_cases h : t.id = tid <;> simp [h, hf]

@[simp] theorem State.team?_modCore (s : State) (c : Nat) (f : Core → Core) (k : Nat) : (s.modCore c f).team? k = s.team? k := rfl
@[simp] theorem State.team?_modCluster (s : State) (c : Nat) (f : Cluster → Cluster) (k : Nat) : (s.modCluster c f).team? k = s.team? k := rfl

end Sys2Proof.Machine
end

