-- ==== Sys2Proof/Laws/Device.lean ====
section
/-!
SUPPORT. What the shared operations of the device can do, said once: the trailing core of a checked pair, the trap log, the rails, the
working-set estimator. A proof about an event cites these and does not unfold the operation.
-/
namespace Sys2Proof.Machine

/-! ### The trailing core (R387-R389) -/

/-- A trailing core makes no request: placing a part changes nothing (R388). -/
theorem State.place_trailing (s : State) (t : Team) (l : Lead) (h : t.lead = some l) (one : Bool) (lid ix va n d d2 : Nat) (a : Acc) :
    s.place t one lid ix va n d d2 a = (s, l.answers one lid ix va n d d2) := by
  simp [State.place, h]

/-- A trailing core takes no version line (R271, R388). -/
theorem State.takeFor_trailing (s : State) (t : Team) (l : Lead) (h : t.lead = some l) (w : List (Part × Nat)) :
    s.takeFor t w = (s, l.versionFull w) := by
  simp [State.takeFor, h]

/-- A team without a difference between its two cores needs no second side. -/
theorem State.follow_none (s s' : State) (tid : Nat) (e : State → Option State) (h : ∀ t, s.team? tid = some t → t.trail = none) :
    s.follow s' tid e = s' := by
  unfold State.follow
  split
  · rename_i t t' ht ht'
    simp [h t ht]
  · rfl

/-- Where no team differs between its two cores, a step is taken once. -/
theorem State.both_eq (s : State) (e : State → Option State) (h : ∀ t ∈ s.teams, t.trail = none) : s.both e = e s := by
  have hf : s.teams.filter (fun t => t.trail.isSome) = [] := by
    rw [List.filter_eq_nil_iff]
    intro t ht
    simp [h t ht]
  simp [State.both, hf]

/-- An access that both sides have alike stays as it is. -/
theorem Op.shadow_self (o : Op) : o.shadow (some o) = o := by
  have hf : o.parts.filter (fun p => o.parts.any (fun y => y.lid == p.lid && y.ix == p.ix)) = o.parts :=
    List.filter_eq_self.mpr fun p hp => List.any_eq_true.mpr ⟨p, hp, by simp⟩
  unfold Op.shadow
  split
  · rfl
  · split
    · rename_i x _ h
      cases h
      rw [hf]
    all_goals first | contradiction | rfl

/-- Two equal sides show Telltale nothing. -/
theorem Body.lag_self (b : Body) (h : ∀ g ∈ b.groups, ∀ o ∈ g.flight, (g.flight.find? (fun x => x.id == o.id)) = some o) : b.lag b = none := by
  have hg : ∀ g ∈ b.groups, Group.shadows g g = g := by
    intro g hm
    have : g.flight.map (fun o => o.shadow (g.flight.find? (fun x => x.id == o.id))) = g.flight := by
      conv => rhs; rw [← List.map_id g.flight]
      refine List.map_congr_left fun o ho => ?_
      simp [h g hm o ho, Op.shadow_self]
    unfold Group.shadows
    rw [this]
  have : b.groups.zipIdx.map (fun g => ((b.groups[g.2]?).map g.1.shadows).getD g.1) = b.groups := by
    apply List.ext_getElem?
    intro i
    simp only [List.getElem?_map, List.getElem?_zipIdx]
    cases hi : b.groups[i]? with
    | none => simp
    | some g => simp [hi, hg g (List.mem_of_getElem? hi)]
  simp [Body.lag, this]

/-! ### The trap log (R394-R400) -/

/-- Writing a head changes the Harbourmaster's own fields alone. -/
theorem State.writeHead_eq (s : State) : ∃ h, s.writeHead = { s with hm := h } := by
  unfold State.writeHead
  split <;> exact ⟨_, rfl⟩

/-- A commit changes the Harbourmaster's own fields alone. -/
theorem State.commitRecord_eq (s : State) (r : LogRec) : ∃ h, s.commitRecord r = { s with hm := h } := by
  unfold State.commitRecord
  split
  · exact ⟨_, rfl⟩
  · obtain ⟨h, e⟩ := s.writeHead_eq
    rw [e]
    exact ⟨_, rfl⟩

/-- A head that is not due is not written. -/
theorem State.writeHead_done (s : State) (h : s.hm.headDue = false) : s.writeHead = s := by simp [State.writeHead, h]

/-- After the brownout record nothing is logged (R400). -/
theorem State.commitRecord_brownout (s : State) (r : LogRec) (h : s.hm.brownout = true) : s.commitRecord r = s := by
  simp [State.commitRecord, h]

/-- A commit takes the next SEQ (R394). -/
theorem State.commitRecord_seq (s : State) (r : LogRec) (h : s.hm.brownout = false) : (s.commitRecord r).hm.seq = s.hm.seq + 1 := by
  simp only [State.commitRecord, h, State.writeHead]
  split
  · contradiction
  · split <;> rfl

/-! ### The rails (R422-R430) -/

@[simp] theorem State.setRails_retention (s : State) (a b : Nat) : (s.setRails a b).retention = a := rfl
@[simp] theorem State.setRails_hm (s : State) (a b : Nat) : (s.setRails a b).hm = s.hm := rfl
@[simp] theorem State.setRails_clusters (s : State) (a b : Nat) : (s.setRails a b).clusters = s.clusters := rfl

theorem State.setRails_mv (s : State) (a b : Nat) : ∀ r ∈ (s.setRails a b).rails, r.mv = b := by
  intro r hr
  simp only [State.setRails, List.mem_map] at hr
  obtain ⟨x, -, rfl⟩ := hr
  rfl

/-- A ramp leaves the rails where its last step put them. -/
theorem State.setRails_ramp (l : List (Nat × Nat)) (v : Nat × Nat) (s : State) :
    (l ++ [v]).foldl (fun s v => s.setRails v.1 v.2) s = (l.foldl (fun s v => s.setRails v.1 v.2) s).setRails v.1 v.2 := by
  simp

/-- No step of the joint ramps has the retention rail more than 0.22 V above a logic rail (R422). -/
theorem rampDown_gap : ∀ v ∈ rampDown, v.1 ≤ v.2 + 220 := by decide

theorem rampUp_gap : ∀ v ∈ rampUp, v.1 ≤ v.2 + 220 := by
  intro v hv
  exact rampDown_gap v (List.mem_reverse.mp hv)

/-- A vote changes the sought level and how it is sought, and no voltage (R427). -/
theorem Rail.seek_mv (r : Rail) (req : Nat) : (r.seek req).mv = r.mv := by
  unfold Rail.seek
  repeat' split
  all_goals rfl

/-! ### The working-set estimator (R257) -/

/-- Between 1,024 and 8,191 misses a window changes nothing. -/
theorem Bank.windowEnd_between (b : Bank) (m : Nat) (h1 : 1024 ≤ m) (h2 : m < 8192) : b.windowEnd m = b := by
  simp [Bank.windowEnd, show ¬ m < 1024 by omega, show ¬ 8192 ≤ m by omega]

end Sys2Proof.Machine
end

