-- ==== Sys2Proof/Laws/Issue.lean ====
section
/-!
SUPPORT. What the issue of a group instruction comes to, said once: the issuer found, what an issue counts, and the equation of `issueForm`
for an issue that nothing hinders. Lemmas about an instruction cite these and do not unfold the issue.
-/
namespace Sys2Proof.Machine

/-! ### The issuer -/

/-- What the issuer of a state is. -/
theorem State.issuer_eq_some {s : State} {fm : Form} {q : Iss} :
    s.issuer fm = some q ↔
      s.cur = some q.c ∧ q.c.stream = false ∧ s.team? q.c.team = some q.t ∧ q.t.body.groups[q.c.g]? = some q.g
      ∧ q.g.frags[q.c.f]? = some q.f ∧ q.s = s ∧ q.fm = fm ∧ q.ex = execMask q.t q.g q.f fm.pfx := by
  unfold State.issuer
  constructor
  · intro h
    split at h
    · cases h
    rename_i c hc
    split at h
    · cases h
    rename_i hstr
    split at h
    · cases h
    rename_i t ht
    split at h
    · cases h
    rename_i g hg
    split at h
    · cases h
    rename_i f hf
    cases h
    exact ⟨hc, by simpa using hstr, ht, hg, hf, rfl, rfl, rfl⟩
  · rintro ⟨hc, hstr, ht, hg, hf, rfl, rfl, he⟩
    simp only [hc, hstr, ht, hg, hf]
    obtain ⟨c, s, t, g, f, fm, ex⟩ := q
    simp_all

/-! ### What an issue counts -/

/-- The issuing fragment, counted in. -/
def Iss.countFrag (q : Iss) (f : Frag) : Frag :=
  { f with pc := q.c.addr + BitVec.ofNat 64 q.c.len, count := f.count + 1, wins := f.wins.map Window.count, skipCmp := none }

/-- The issuing group, counted in. -/
def Iss.countGroup (q : Iss) (g : Group) : Group :=
  ({ g.spendGrace with clock := if q.f.jr.length = 0 then g.clock + 1 else g.clock, hang := g.hang + 1 } : Group).modFrag q.c.f q.countFrag

/-- The issuing team, counted in. -/
def Iss.countTeam (q : Iss) (t : Team) : Team := { t.modGroup q.c.g q.countGroup with issued := true, tel := q.told t }

/-- The account of an issue: the team counted in, and the charge. -/
theorem Iss.account_eq (q : Iss) : q.account = (q.s.modTeam q.c.team q.countTeam).chargeIssue q.t q.g q.fm q.ex :=
  congrArg (fun s => State.chargeIssue s q.t q.g q.fm q.ex)
    (State.modTeam_modTeam q.s q.c.team (fun t => t.modGroup q.c.g q.countGroup) (fun t => { t with issued := true, tel := q.told t }) (fun _ => rfl))

/-- A charge of clusters changes their records only. -/
theorem State.chargeClusters_eq (s : State) (t : Team) (n w : Nat) : ∃ cl, s.chargeClusters t n w = { s with clusters := cl } := by
  unfold State.chargeClusters
  split <;> exact ⟨_, rfl⟩

@[simp] theorem State.chargeClusters_cores (s : State) (t : Team) (n w : Nat) : (s.chargeClusters t n w).cores = s.cores := by
  obtain ⟨_, h⟩ := s.chargeClusters_eq t n w
  rw [h]

/-- A charge changes cores and clusters only. -/
theorem State.chargeIssue_eq (s : State) (t : Team) (g : Group) (fm : Form) (ex : Mask) :
    ∃ co cl, s.chargeIssue t g fm ex = { s with cores := co, clusters := cl } := by
  unfold State.chargeIssue
  split
  · exact ⟨_, _, rfl⟩
  · obtain ⟨cl, h⟩ := State.chargeClusters_eq (s.modCore _ _) t _ _
    exact ⟨_, cl, h⟩

theorem State.chargeIssue_team? (s : State) (t : Team) (g : Group) (fm : Form) (ex : Mask) (k : Nat) :
    (s.chargeIssue t g fm ex).team? k = s.team? k := by
  obtain ⟨_, _, h⟩ := s.chargeIssue_eq t g fm ex
  rw [h]
  rfl

/-- The fields that a charge leaves alone. -/
theorem State.chargeIssue_rest (s : State) (t : Team) (g : Group) (fm : Form) (ex : Mask) :
    { s.chargeIssue t g fm ex with cores := s.cores, clusters := s.clusters } = s := by
  obtain ⟨_, _, h⟩ := s.chargeIssue_eq t g fm ex
  rw [h]

@[simp] theorem State.chargeIssue_cur (s : State) (t : Team) (g : Group) (fm : Form) (ex : Mask) :
    (s.chargeIssue t g fm ex).cur = s.cur := by
  obtain ⟨_, _, h⟩ := s.chargeIssue_eq t g fm ex
  rw [h]

/-- The issue as its effect sees it. -/
theorem Iss.counted_eq {s : State} {fm : Form} {q : Iss} (h : s.issuer fm = some q) :
    q.counted = { c := q.c, s := { q.account with cur := none }, t := q.countTeam q.t, g := q.countGroup q.g,
                  f := q.countFrag q.f, fm := q.fm, ex := q.ex }
    ∧ (q.account.issuer q.fm).isSome := by
  obtain ⟨hc, hstr, ht, hg, hf, rfl, rfl, he⟩ := State.issuer_eq_some.1 h
  have ht' : q.account.team? q.c.team = some (q.countTeam q.t) := by
    rw [Iss.account_eq, State.chargeIssue_team?, State.team?_modTeam_self q.s q.c.team q.countTeam (fun _ h => h), ht]
    rfl
  have hg' : (q.countTeam q.t).body.groups[q.c.g]? = some (q.countGroup q.g) := by
    simp [Iss.countTeam, hg]
  have hf' : (q.countGroup q.g).frags[q.c.f]? = some (q.countFrag q.f) := by
    simp [Iss.countGroup, Group.spendGrace, hf]
  have hc' : q.account.cur = some q.c := by simp [Iss.account_eq, hc]
  have key : q.account.issuer q.fm = some
      { c := q.c, s := q.account, t := q.countTeam q.t, g := q.countGroup q.g, f := q.countFrag q.f,
        fm := q.fm, ex := execMask (q.countTeam q.t) (q.countGroup q.g) (q.countFrag q.f) q.fm.pfx } :=
    State.issuer_eq_some.2 ⟨hc', hstr, ht', hg', hf', rfl, rfl, rfl⟩
  constructor
  · unfold Iss.counted
    rw [key]
  · rw [key]; rfl

/-! ### The account of a word that the handler emulates -/

/-- The issuing group, where the issue is a fate's. -/
def Iss.fateGroup (q : Iss) (g : Group) : Group :=
  { (g.spendGrace.modFrag q.c.f (fun f => { f with count := f.count + 1, skipCmp := none })) with hang := g.hang + 1 }

/-- The issuing team, where the issue is a fate's. -/
def Iss.fateTeam (q : Iss) (t : Team) : Team := { t.modGroup q.c.g q.fateGroup with issued := true }

/-- The account of a fate: the team counted in, and the charge. -/
theorem Iss.accountFate_eq (q : Iss) : q.accountFate = (q.s.modTeam q.c.team q.fateTeam).chargeIssue q.t q.g q.fm q.ex :=
  congrArg (fun s => State.chargeIssue s q.t q.g q.fm q.ex)
    (State.modTeam_modTeam q.s q.c.team (fun t => t.modGroup q.c.g q.fateGroup) (fun t => { t with issued := true }) (fun _ => rfl))

/-- The issue as the effect of a fate sees it. -/
theorem Iss.countedFate_eq {s : State} {fm : Form} {q : Iss} (h : s.issuer fm = some q) :
    q.countedFate = { c := q.c, s := { q.accountFate with cur := none }, t := q.fateTeam q.t, g := q.fateGroup q.g,
                      f := { q.f with count := q.f.count + 1, skipCmp := none }, fm := q.fm, ex := q.ex }
    ∧ (q.accountFate.issuer q.fm).isSome := by
  obtain ⟨hc, hstr, ht, hg, hf, rfl, rfl, he⟩ := State.issuer_eq_some.1 h
  have ht' : q.accountFate.team? q.c.team = some (q.fateTeam q.t) := by
    rw [Iss.accountFate_eq, State.chargeIssue_team?, State.team?_modTeam_self q.s q.c.team q.fateTeam (fun _ h => h), ht]
    rfl
  have hg' : (q.fateTeam q.t).body.groups[q.c.g]? = some (q.fateGroup q.g) := by
    simp [Iss.fateTeam, hg]
  have hf' : (q.fateGroup q.g).frags[q.c.f]? = some { q.f with count := q.f.count + 1, skipCmp := none } := by
    simp [Iss.fateGroup, Group.spendGrace, hf]
  have hc' : q.accountFate.cur = some q.c := by simp [Iss.accountFate_eq, hc]
  have key : q.accountFate.issuer q.fm = some
      { c := q.c, s := q.accountFate, t := q.fateTeam q.t, g := q.fateGroup q.g, f := { q.f with count := q.f.count + 1, skipCmp := none },
        fm := q.fm, ex := execMask (q.fateTeam q.t) (q.fateGroup q.g) { q.f with count := q.f.count + 1, skipCmp := none } q.fm.pfx } :=
    State.issuer_eq_some.2 ⟨hc', hstr, ht', hg', hf', rfl, rfl, rfl⟩
  constructor
  · unfold Iss.countedFate
    rw [key]
  · rw [key]; rfl

/-! ### What an issue reads is what stood before it was counted -/

section Reads
variable {s : State} {fm : Form} {q : Iss} (h : s.issuer fm = some q)
include h

theorem Iss.counted_c : q.counted.c = q.c := by rw [(Iss.counted_eq h).1]
theorem Iss.counted_fm : q.counted.fm = q.fm := by rw [(Iss.counted_eq h).1]
theorem Iss.counted_ex : q.counted.ex = q.ex := by rw [(Iss.counted_eq h).1]
theorem Iss.counted_mr : q.counted.g.mr = q.g.mr := by rw [(Iss.counted_eq h).1]; rfl
theorem Iss.counted_first : q.counted.g.first = q.g.first := by rw [(Iss.counted_eq h).1]; rfl
theorem Iss.counted_count : q.counted.g.count = q.g.count := by rw [(Iss.counted_eq h).1]; rfl
theorem Iss.counted_flags : q.counted.g.flags = q.g.flags := by rw [(Iss.counted_eq h).1]; rfl
theorem Iss.counted_triple : ∀ n, q.counted.g.triple n = q.g.triple n := by rw [(Iss.counted_eq h).1]; intro n; rfl
theorem Iss.counted_mask : q.counted.f.mask = q.f.mask := by rw [(Iss.counted_eq h).1]; rfl
theorem Iss.counted_chain : q.counted.f.chain = q.f.chain := by rw [(Iss.counted_eq h).1]; rfl
theorem Iss.counted_depth : q.counted.f.jr = q.f.jr := by rw [(Iss.counted_eq h).1]; rfl
theorem Iss.counted_etype : q.counted.etype = q.etype := by rw [(Iss.counted_eq h).1]; rfl
theorem Iss.counted_rnd : q.counted.rnd = q.rnd := by rw [(Iss.counted_eq h).1]; rfl
theorem Iss.counted_lanes : q.counted.lanes = q.lanes := by rw [(Iss.counted_eq h).1]; rfl
theorem Iss.counted_lit : q.counted.lit = q.lit := by rw [(Iss.counted_eq h).1]; rfl
theorem Iss.counted_opA : q.counted.opA = q.opA := by rw [(Iss.counted_eq h).1]; rfl
theorem Iss.counted_opB : q.counted.opB = q.opB := by rw [(Iss.counted_eq h).1]; rfl
theorem Iss.counted_opD : q.counted.opD = q.opD := by rw [(Iss.counted_eq h).1]; rfl
theorem Iss.counted_ftz : q.counted.ftz = q.ftz := by rw [(Iss.counted_eq h).1]; rfl
theorem Iss.counted_fmt : q.counted.fmt = q.fmt := by rw [(Iss.counted_eq h).1]; rfl
theorem Iss.counted_lid : q.counted.lid = q.lid := by rw [(Iss.counted_eq h).1]; rfl
theorem Iss.counted_a : q.counted.a = q.a := by rw [(Iss.counted_eq h).1]; rfl
theorem Iss.counted_b : q.counted.b = q.b := by rw [(Iss.counted_eq h).1]; rfl
theorem Iss.counted_a64 : q.counted.a64 = q.a64 := by rw [(Iss.counted_eq h).1]; rfl
theorem Iss.counted_c64 : q.counted.c64 = q.c64 := by rw [(Iss.counted_eq h).1]; rfl
theorem Iss.counted_cVal : q.counted.cVal = q.cVal := by rw [(Iss.counted_eq h).1]; rfl
theorem Iss.counted_uni : q.counted.uni = q.uni := by rw [(Iss.counted_eq h).1]; rfl
theorem Iss.counted_tri : q.counted.tri = q.tri := by rw [(Iss.counted_eq h).1]; rfl
theorem Iss.counted_segOf : q.counted.segOf = q.segOf := by rw [(Iss.counted_eq h).1]; rfl
theorem Iss.counted_rd : q.counted.rd = q.rd := by rw [(Iss.counted_eq h).1]; rfl
theorem Iss.counted_lane : q.counted.t.lane = q.t.lane := by rw [(Iss.counted_eq h).1]; rfl
theorem Iss.counted_mixWord : q.counted.mixWord = q.mixWord := by rw [(Iss.counted_eq h).1]; rfl
theorem Iss.counted_rv : q.counted.rv = q.rv := by rw [(Iss.counted_eq h).1]; rfl
theorem Iss.counted_ea : q.counted.ea = q.ea := by rw [(Iss.counted_eq h).1]; rfl
theorem Iss.counted_eb : q.counted.eb = q.eb := by rw [(Iss.counted_eq h).1]; rfl
theorem Iss.counted_ec : q.counted.ec = q.ec := by rw [(Iss.counted_eq h).1]; rfl
theorem Iss.counted_rctx : q.counted.rctx = q.rctx := by rw [(Iss.counted_eq h).1]; rfl

/-- The issuing team, counted in. -/
theorem Iss.counted_t : q.counted.t = q.countTeam q.t := by rw [(Iss.counted_eq h).1]
/-- The issuing group, counted in. -/
theorem Iss.counted_g : q.counted.g = q.countGroup q.g := by rw [(Iss.counted_eq h).1]
/-- The issuing fragment, counted in. -/
theorem Iss.counted_f : q.counted.f = q.countFrag q.f := by rw [(Iss.counted_eq h).1]
/-- Outside teams, cores and clusters an issue counts nothing. -/
theorem Iss.counted_rest :
    { q.counted.s with teams := q.s.teams, cores := q.s.cores, clusters := q.s.clusters, cur := q.s.cur } = q.s := by
  rw [(Iss.counted_eq h).1, Iss.account_eq]
  exact congrArg (fun r : State => { r with teams := q.s.teams, cur := q.s.cur })
    (State.chargeIssue_rest (q.s.modTeam q.c.team q.countTeam) q.t q.g q.fm q.ex)
theorem Iss.counted_core (c : Nat) :
    (q.counted.s.cores[c]?).map (fun k => (k.pb1, k.pb2, k.pb3)) = (q.s.cores[c]?).map (fun k => (k.pb1, k.pb2, k.pb3)) := by
  rw [(Iss.counted_eq h).1, Iss.account_eq]
  unfold State.chargeIssue
  split
  · rfl
  · simp only [State.chargeClusters_cores, State.modCore, State.modTeam, listModify_getElem?]
    split
    · rename_i hc
      cases q.s.cores[c]? with
      | none => rfl
      | some k => simp only [Option.map_some]; split <;> rfl
    · rfl
theorem Iss.counted_csr (n : Nat) : q.counted.csr n = q.csr n := by
  have hc := Iss.counted_core h
  have hcore : q.counted.t.core? = q.t.core? := by rw [Iss.counted_t h]; rfl
  have hx : ∀ (p : Core → Word), (∀ a b : Core, a.pb1 = b.pb1 → a.pb2 = b.pb2 → a.pb3 = b.pb3 → p a = p b) →
      p ((q.counted.t.core?.bind (fun c => q.counted.s.cores[c]?)).getD {}) = p ((q.t.core?.bind (fun c => q.s.cores[c]?)).getD {}) := by
    intro p hp
    rw [hcore]
    cases q.t.core? with
    | none => rfl
    | some k =>
      have := hc k
      simp only [Option.bind_some]
      cases h1 : q.counted.s.cores[k]? <;> cases h2 : q.s.cores[k]? <;> simp_all
      exact hp _ _ this.1 this.2.1 this.2.2
  have h0 := hx Core.pbnd0 (by intro a b h1 h2 h3; simp [Core.pbnd0, h1, h2])
  have h1 := hx Core.pbnd1 (by intro a b h1 h2 h3; simp [Core.pbnd1, h3])
  have hid : q.counted.s.idPart = q.s.idPart := by
    rw [(Iss.counted_eq h).1, Iss.account_eq]
    obtain ⟨_, _, e⟩ := State.chargeIssue_eq (q.s.modTeam q.c.team q.countTeam) q.t q.g q.fm q.ex
    rw [e]
    rfl
  unfold Iss.csr
  simp only [h0, h1, hid, Iss.counted_depth h]
  rw [Iss.counted_t h]
  rfl
theorem Iss.counted_sat : q.counted.sat = q.sat := by rw [(Iss.counted_eq h).1]; rfl
theorem Iss.counted_trap (cls : Nat) : q.counted.trap cls = q.trap cls := by rw [(Iss.counted_eq h).1]; rfl
theorem Iss.counted_trapAt (cls i : Nat) : q.counted.trapAt cls i = q.trapAt cls i := by rw [(Iss.counted_eq h).1]; rfl
theorem Iss.counted_fpTrap (r : List (Nat × List ElemRes)) : q.counted.fpTrap r = q.fpTrap r := by rw [(Iss.counted_eq h).1]; rfl
theorem Iss.counted_preds : q.counted.preds = q.preds := by rw [(Iss.counted_eq h).1]; rfl
theorem Iss.counted_laneRead (i : Nat) (j : Int) : q.counted.laneRead i j = q.laneRead i j := by rw [(Iss.counted_eq h).1]; rfl

end Reads

/-! ### Stream words -/

/-- What a stream word of a charge comes to. -/
theorem streamWord_eq {s : State} {q : SIss} (h : s.streamIssuer = some q) (charge : Nat) (eff : SIss → SEff) :
    streamWord charge eff s =
      match eff (q.counted charge) with
      | .ok t => .next (q.done t)
      | .jump t => .next t
      | .hold w => .next (q.heldBack w)
      | .trap tr => .next (q.trapped tr) := by
  have hs : q.s = s := by
    unfold State.streamIssuer at h
    split at h
    · cases h
    split at h
    · cases h
    split at h
    · cases h
    obtain ⟨st, -, hq⟩ := Option.map_eq_some_iff.1 h
    rw [← hq]
  subst hs
  unfold streamWord
  rw [h]
  rfl

/-! ### The issue of a form -/

/-- The issue of a form that nothing hinders, whatever it counts (R336, R337). -/
theorem issueForm_acct {i : Instr} {ts : List Target} {s : State} {q q1 : Iss} (h : IssuesTo i ts s q) (tg : Iss → List Target)
    (htg : tg q = ts) (acct : Iss → State) (hq1 : (acct q).issuer q.fm = some q1) (eff : Iss → Eff) :
    issueForm q.fm i.closesWindows q.fm.ok tg acct eff s =
      match eff { q1 with s := { acct q with cur := none }, ex := q.ex } with
      | .ok t => .next t
      | .hold w => .next (q.heldBack w)
      | .trap tr => .next (q.trapped tr) := by
  have hr := h.reads
  obtain ⟨hc, hstr, ht, hg, hf, hs, hfm, he⟩ := State.issuer_eq_some.1 hr
  have hi := h.issuer
  cases hq0 : s.issuer q.fm with
  | none => simp [hq0] at hi
  | some q0 =>
    have hc0 : q0.c = q.c := by simpa [hq0] using hi
    have hap := h.apart
    have hcl := h.closed
    rw [← htg] at hcl
    have hr' := hr
    unfold State.atIssue at hr'
    rw [← hc0] at hr'
    unfold issueForm
    simp only [hq0, hr', h.noBreakpoint, h.legal, Bool.not_true, Bool.false_eq_true, if_false, hq1, hap, hcl, h.sound, Option.toList_none, List.append_nil]
    rw [hc0]
    generalize eff { q1 with s := { acct q with cur := none }, ex := q.ex } = r
    change (match firstTrap (match r with | .trap t => [t] | _ => []) with
      | some t => Host.Outcome.next (({ s.atIssue i q.c with cur := none } : State).takeTrap q.c.team t)
      | none => match r with
        | .ok s2 => .next s2
        | .hold w => .next (({ s.atIssue i q.c with cur := none } : State).modTeam q.c.team
            (fun t => t.modGroup q.c.g (fun g => g.modFrag q.c.f (fun f => { f with wait := w }))))
        | .trap t => .next (({ s.atIssue i q.c with cur := none } : State).takeTrap q.c.team t)) = _
    rw [← hs]
    cases r with
    | ok t => simp [firstTrap, minBy]
    | hold w => simp [firstTrap, minBy, Iss.heldBack]
    | trap tr => simp [firstTrap, minBy, Iss.trapped]

/-- The issue of a form that nothing hinders: its effect on the counted state, a wait, or its own trap (R336, R337). -/
theorem issueForm_eq {i : Instr} {ts : List Target} {s : State} {q : Iss} (h : IssuesTo i ts s q) (tg : Iss → List Target) (htg : tg q = ts)
    (eff : Iss → Eff) :
    issueForm q.fm i.closesWindows q.fm.ok tg Iss.account eff s =
      match eff q.counted with
      | .ok t => .next t
      | .hold w => .next (q.heldBack w)
      | .trap tr => .next (q.trapped tr) := by
  obtain ⟨-, hsome⟩ := Iss.counted_eq h.reads
  obtain ⟨q1, hq1⟩ := Option.isSome_iff_exists.1 hsome
  rw [issueForm_acct h tg htg Iss.account hq1]
  unfold Iss.counted
  rw [hq1]

/-- The issue of an instruction with its own account of the registers it writes. -/
theorem issueWith_eq {i : Instr} {ts : List Target} {s : State} {q : Iss} (h : IssuesTo i ts s q) (tg : Iss → List Target) (htg : tg q = ts)
    (eff : Iss → Eff) :
    issueWith i tg Iss.account eff s =
      match eff q.counted with
      | .ok t => .next t
      | .hold w => .next (q.heldBack w)
      | .trap tr => .next (q.trapped tr) := by
  unfold issueWith
  rw [h.form]
  exact issueForm_eq h tg htg eff

/-- The issue of an instruction as a fate. -/
theorem issueWith_fate_eq {i : Instr} {ts : List Target} {s : State} {q : Iss} (h : IssuesTo i ts s q) (tg : Iss → List Target)
    (htg : tg q = ts) (eff : Iss → Eff) :
    issueWith i tg Iss.accountFate eff s =
      match eff q.countedFate with
      | .ok t => .next t
      | .hold w => .next (q.heldBack w)
      | .trap tr => .next (q.trapped tr) := by
  unfold issueWith
  rw [h.form]
  obtain ⟨-, hsome⟩ := Iss.countedFate_eq h.reads
  obtain ⟨q1, hq1⟩ := Option.isSome_iff_exists.1 hsome
  simp only
  rw [issueForm_acct h tg htg Iss.accountFate hq1]
  unfold Iss.countedFate
  rw [hq1]

/-- The issue of an instruction. -/
theorem issue_eq {i : Instr} {s : State} {q : Iss} (h : Issues i s q) (eff : Iss → Eff) :
    issue i eff s =
      match eff q.counted with
      | .ok t => .next t
      | .hold w => .next (q.heldBack w)
      | .trap tr => .next (q.trapped tr) := issueWith_eq h _ rfl eff

/-- The issue of an instruction that always has its effect. -/
theorem issueOk_eq {i : Instr} {s : State} {q : Iss} (h : Issues i s q) (eff : Iss → State) :
    issueOk i eff s = .next (eff q.counted) := issue_eq h _

end Sys2Proof.Machine
end

