-- ==== Sys2Proof/Laws/Lane.lean ====
section
/-!
SUPPORT. Lane results: what a fold of lane updates does to a team, the lane that results, and the frame of a short-latency result.
-/
namespace Sys2Proof.Machine

/-! ### Positions of a mask -/

theorem maskList_nodup (m : Mask) : (maskList m).Nodup := List.Pairwise.filter _ List.nodup_range

theorem mem_maskList {m : Mask} {i : Nat} : i ∈ maskList m ↔ i < 96 ∧ m.getLsbD i = true := by simp [maskList]

theorem getLsbD_maskOfList_foldl (l : List Nat) (m : Mask) (i : Nat) (hi : i < 96) :
    (l.foldl (fun m i => m ||| maskBit i) m).getLsbD i = (m.getLsbD i || l.contains i) := by
  induction l generalizing m with
  | nil => simp
  | cons a l ih =>
    rw [List.foldl_cons, ih]
    have hb : (maskBit a).getLsbD i = decide (a = i) := by
      simp only [maskBit, BitVec.getLsbD_ofNat, hi, decide_true, Bool.true_and, Nat.testBit_two_pow]
    rw [BitVec.getLsbD_or, hb]
    by_cases h : a = i
    · simp [h]
    · have : ¬ i = a := fun e => h e.symm
      simp [h, this]

theorem getLsbD_maskOfList (l : List Nat) (i : Nat) (hi : i < 96) : (maskOfList l).getLsbD i = l.contains i := by
  rw [maskOfList, getLsbD_maskOfList_foldl l 0 i hi]; simp

/-- The positions of the mask of a list. -/
theorem mem_maskList_maskOfList {l : List Nat} {i : Nat} (h : ∀ x ∈ l, x < 96) : i ∈ maskList (maskOfList l) ↔ i ∈ l := by
  rw [mem_maskList]
  constructor
  · rintro ⟨hi, hm⟩
    rw [getLsbD_maskOfList _ _ hi] at hm
    simpa using hm
  · intro hm
    exact ⟨h i hm, by rw [getLsbD_maskOfList _ _ (h i hm)]; simpa using hm⟩

/-- EXEC holds positions of the fragment only (R9, R352). -/
theorem execMask_sub (t : Team) (g : Group) (f : Frag) (p : Option Pfx) {i : Nat} (h : i ∈ maskList (execMask t g f p)) :
    i ∈ maskList f.mask := by
  have hx : ∀ d, i ∈ maskList (t.xMask g f.mask d) → i ∈ maskList f.mask := by
    intro d hd
    unfold Team.xMask at hd
    rw [mem_maskList_maskOfList (fun x hx => (mem_maskList.1 (List.mem_filter.1 hx).1).1)] at hd
    exact (List.mem_filter.1 hd).1
  unfold execMask at h
  simp only at h
  split at h
  · simp only [mem_maskList, BitVec.getLsbD_and, Bool.and_eq_true] at h ⊢
    exact ⟨h.1, h.2.1⟩
  · split at h
    · apply hx
      simp only [mem_maskList, BitVec.getLsbD_and, Bool.and_eq_true] at h ⊢
      exact ⟨h.1, h.2.1⟩
    · exact hx _ h

/-! ### Changing lanes -/

/-- The lane found after a lane was changed. -/
theorem Team.lane_modLane (t : Team) (lid : Nat) (f : Lane → Lane) (j : Nat) :
    (t.modLane lid f).lane j = if j = lid ∧ lid < t.body.lanes.length then f (t.lane j) else t.lane j := by
  unfold Team.lane
  simp only [Team.modLane_body_lanes, listModify_getElem?]
  by_cases hj : j = lid
  · subst hj
    by_cases hl : j < t.body.lanes.length
    · simp [hl]
    · simp [hl]
  · simp [hj]

/-- A fold of lane changes changes the lanes of the team only. -/
theorem Team.foldLanes_rest (first : Nat) (F : Nat → Lane → Lane) (ixs : List Nat) (t : Team) :
    ∃ L, ixs.foldl (fun t i => t.modLane (first + i) (F i)) t = { t with body := { t.body with lanes := L } }
      ∧ L.length = t.body.lanes.length := by
  induction ixs generalizing t with
  | nil => exact ⟨t.body.lanes, rfl, rfl⟩
  | cons i l ih =>
    obtain ⟨L, h1, h2⟩ := ih (t.modLane (first + i) (F i))
    exact ⟨L, h1, by simpa using h2⟩

/-- The lane that a fold of lane changes leaves at a position: changed once, if the position is listed. -/
theorem Team.foldLanes_lane (first : Nat) (F : Nat → Lane → Lane) (ixs : List Nat) (hn : ixs.Nodup) (t : Team) (j : Nat) :
    (ixs.foldl (fun t i => t.modLane (first + i) (F i)) t).lane j =
      if j ∈ ixs.map (first + ·) ∧ j < t.body.lanes.length then F (j - first) (t.lane j) else t.lane j := by
  induction ixs generalizing t with
  | nil => simp
  | cons i l ih =>
    rw [List.foldl_cons, ih (List.nodup_cons.1 hn).2, Team.lane_modLane]
    simp only [Team.modLane_body_lanes, listModify_length, List.map_cons, List.mem_cons]
    have hi := (List.nodup_cons.1 hn).1
    by_cases hj : j = first + i
    · subst hj
      have : first + i ∉ l.map (first + ·) := by
        simp only [List.mem_map, Nat.add_left_cancel_iff, exists_eq_right]; exact hi
      by_cases hl : first + i < t.body.lanes.length <;> simp [this, hl]
    · simp [hj]

/-! ### Registers of a lane -/

/-- Writing registers leaves the rest of the lane alone. -/
theorem Lane.setRegs_rest (ln : Lane) (rs : List LReg) (xs : List Word) : (ln.setRegs rs xs).lessRegs = ln.lessRegs := by
  induction rs generalizing ln xs with
  | nil => cases xs <;> rfl
  | cons r rs ih =>
    cases xs with
    | nil => rfl
    | cons x xs => rw [Lane.setRegs, ih]; cases r <;> rfl

/-- Writing registers leaves every other V register alone. -/
theorem Lane.setRegs_v (ln : Lane) (rs : List LReg) (xs : List Word) (n : Nat) (h : LReg.v n ∉ rs) :
    (ln.setRegs rs xs).v.get n = ln.v.get n := by
  induction rs generalizing ln xs with
  | nil => cases xs <;> rfl
  | cons r rs ih =>
    simp only [List.mem_cons, not_or] at h
    cases xs with
    | nil => rfl
    | cons x xs =>
      rw [Lane.setRegs, ih _ _ h.2]
      cases r with
      | v m => exact Cells.get_set_ne _ _ (fun e => h.1 (by rw [e]))
      | q m => rfl
      | l m => rfl

/-- Writing registers leaves every other Q register alone. -/
theorem Lane.setRegs_q (ln : Lane) (rs : List LReg) (xs : List Word) (n : Nat) (h : LReg.q n ∉ rs) :
    (ln.setRegs rs xs).q.get n = ln.q.get n := by
  induction rs generalizing ln xs with
  | nil => cases xs <;> rfl
  | cons r rs ih =>
    simp only [List.mem_cons, not_or] at h
    cases xs with
    | nil => rfl
    | cons x xs =>
      rw [Lane.setRegs, ih _ _ h.2]
      cases r with
      | v m => rfl
      | q m => exact Cells.get_set_ne _ _ (fun e => h.1 (by rw [e]))
      | l m => rfl

/-- Registers that hold no L register leave the last-result file alone. -/
theorem Lane.setRegs_l (ln : Lane) (rs : List LReg) (xs : List Word) (h : ∀ n, LReg.l n ∉ rs) : (ln.setRegs rs xs).l = ln.l := by
  induction rs generalizing ln xs with
  | nil => cases xs <;> rfl
  | cons r rs ih =>
    cases xs with
    | nil => rfl
    | cons x xs =>
      rw [Lane.setRegs, ih _ _ (fun n hn => h n (List.mem_cons_of_mem _ hn))]
      cases r with
      | v m => rfl
      | q m => rfl
      | l m => exact absurd List.mem_cons_self (h m)

/-- A destination names no L register: L0 is written by the shift alone (R36, R122). -/
theorem Opnd.dstRegs_l (o : Opnd) (n k : Nat) : LReg.l k ∉ o.dstRegs n := by
  cases o <;> simp [Opnd.dstRegs]

/-! ### A short-latency lane result -/

/-- The lane that a lane result leaves. -/
theorem Iss.laneResult_lane (q : Iss) (n : Nat) (val : Nat → List Word) (j : Nat) :
    (q.laneResult n val).lane j =
      if j ∈ q.lanes.map q.lid ∧ j < q.t.body.lanes.length then
        (((q.t.lane j).setRegs (q.opD.dstRegs n) (val (j - q.g.first))).shiftL ((val (j - q.g.first)).headD 0))
      else if q.fm.p.mz = true ∧ j ∈ (maskList (q.f.mask &&& ~~~q.ex)).map q.lid ∧ j < q.t.body.lanes.length then
        (q.t.lane j).setRegs (q.opD.dstRegs n) (List.replicate (q.opD.dstRegs n).length 0)
      else q.t.lane j := by
  rw [show q.lid = (q.g.first + ·) from rfl]
  have hdis : ∀ i, i ∈ q.lanes → i ∉ maskList (q.f.mask &&& ~~~q.ex) := by
    intro i hi hm
    simp only [Iss.lanes, mem_maskList, BitVec.getLsbD_and, Bool.and_eq_true, BitVec.getLsbD_not] at hi hm
    simp [hi.2] at hm
  unfold Iss.laneResult Team.writeLanes
  simp only [if_true]
  rw [Team.foldLanes_lane q.g.first (fun i ln => (ln.setRegs (q.opD.dstRegs n) (val i)).shiftL ((val i).headD 0)) q.lanes (maskList_nodup q.ex)]
  have hz : (q.t.zeroInactive q.g q.f q.ex q.fm.p.mz (q.opD.dstRegs n)).body.lanes.length = q.t.body.lanes.length := by
    unfold Team.zeroInactive
    split
    · obtain ⟨L, h1, h2⟩ := Team.foldLanes_rest q.g.first
        (fun _ ln => ln.setRegs (q.opD.dstRegs n) (List.replicate (q.opD.dstRegs n).length 0)) (maskList (q.f.mask &&& ~~~q.ex)) q.t
      rw [h1]; exact h2
    · rfl
  have hzl : (q.t.zeroInactive q.g q.f q.ex q.fm.p.mz (q.opD.dstRegs n)).lane j =
      if q.fm.p.mz = true ∧ j ∈ (maskList (q.f.mask &&& ~~~q.ex)).map (q.g.first + ·) ∧ j < q.t.body.lanes.length then
        (q.t.lane j).setRegs (q.opD.dstRegs n) (List.replicate (q.opD.dstRegs n).length 0)
      else q.t.lane j := by
    unfold Team.zeroInactive
    by_cases hmz : q.fm.p.mz = true
    · simp only [hmz, if_true, true_and]
      rw [Team.foldLanes_lane q.g.first
        (fun _ ln => ln.setRegs (q.opD.dstRegs n) (List.replicate (q.opD.dstRegs n).length 0)) _ (maskList_nodup _)]
    · simp [hmz]
  rw [hz, hzl]
  by_cases hj : j ∈ q.lanes.map (q.g.first + ·) ∧ j < q.t.body.lanes.length
  · rw [if_pos hj, if_pos hj, if_neg]
    rintro ⟨-, hm, -⟩
    obtain ⟨i, hi, rfl⟩ := List.mem_map.1 hj.1
    obtain ⟨i', hi', he⟩ := List.mem_map.1 hm
    have : i' = i := by have he : q.g.first + i' = q.g.first + i := he; omega
    subst this
    exact hdis _ hi hi'
  · rw [if_neg hj, if_neg hj]

/-- A lane result changes the lanes of the team only. -/
theorem Iss.laneResult_rest (q : Iss) (n : Nat) (val : Nat → List Word) :
    ∃ L, q.laneResult n val = { q.t with body := { q.t.body with lanes := L } } ∧ L.length = q.t.body.lanes.length := by
  unfold Iss.laneResult Team.writeLanes Team.zeroInactive
  simp only [if_true]
  obtain ⟨L2, h3, h4⟩ := Team.foldLanes_rest q.g.first (fun i ln => (ln.setRegs (q.opD.dstRegs n) (val i)).shiftL ((val i).headD 0)) q.lanes
    (if q.fm.p.mz = true then (maskList (q.f.mask &&& ~~~q.ex)).foldl (fun t i =>
      t.modLane (q.g.first + i) (fun ln => ln.setRegs (q.opD.dstRegs n) (List.replicate (q.opD.dstRegs n).length 0))) q.t else q.t)
  by_cases hmz : q.fm.p.mz = true
  · obtain ⟨L1, h1, h2⟩ := Team.foldLanes_rest q.g.first
      (fun _ ln => ln.setRegs (q.opD.dstRegs n) (List.replicate (q.opD.dstRegs n).length 0)) (maskList (q.f.mask &&& ~~~q.ex)) q.t
    simp only [hmz, if_true] at h3 h4 ⊢
    rw [h1] at h3 h4
    exact ⟨L2, h1 ▸ h3, by simpa [h2] using h4⟩
  · simp only [hmz, Bool.false_eq_true, if_false] at h3 h4 ⊢
    exact ⟨L2, h3, h4⟩

end Sys2Proof.Machine
end

