-- ==== Sys2Proof/Laws/Frame.lean ====
section
/-!
SUPPORT. Frames: what an issue's count leaves alone, and the frames of the shared effects on it.
-/
namespace Sys2Proof.Machine

/-! ### The count of an issue -/

/-- A map that a charge's changes do not show through is the same over a changed list. -/
theorem map_listModify {α β : Type} (l : List α) (k : Nat) (f : α → α) (p : α → β) (h : ∀ a, p (f a) = p a) :
    (listModify l k f).map p = l.map p := by
  induction l generalizing k with
  | nil => cases k <;> rfl
  | cons a as ih => cases k <;> simp [listModify, h, ih]

/-- A change of held pipes and ports does not show. -/
theorem State.lessTeams_modCore (s : State) (c : Nat) (f : Core → Core)
    (hf : ∀ k : Core, ({ f k with pipeBusy := [], portBusy := [] } : Core) = { k with pipeBusy := [], portBusy := [] }) :
    (s.modCore c f).lessTeams = s.lessTeams := by
  simp only [State.lessTeams, State.modCore]
  rw [map_listModify _ _ _ _ hf]

/-- A change of the charge does not show. -/
theorem State.lessTeams_modCluster (s : State) (c : Nat) (f : Cluster → Cluster)
    (hf : ∀ k : Cluster, ({ f k with charge := 0 } : Cluster) = { k with charge := 0 }) : (s.modCluster c f).lessTeams = s.lessTeams := by
  simp only [State.lessTeams, State.modCluster]
  rw [map_listModify _ _ _ _ hf]

/-- A charge of clusters does not show. -/
theorem State.chargeClusters_lessTeams (s : State) (t : Team) (n w : Nat) : (s.chargeClusters t n w).lessTeams = s.lessTeams := by
  unfold State.chargeClusters State.addCharge
  split <;> simp only [State.lessTeams_modCluster _ _ (fun c : Cluster => { c with charge := c.charge + w }) (fun _ => rfl)]

/-- A charge shows in nothing but held pipes and ports and the charge. -/
theorem State.chargeIssue_lessTeams (s : State) (t : Team) (g : Group) (fm : Form) (ex : Mask) :
    (s.chargeIssue t g fm ex).lessTeams = s.lessTeams := by
  unfold State.chargeIssue
  split
  · rfl
  · simp only
    rw [State.chargeClusters_lessTeams, State.lessTeams_modCore _ _ _ (by intro c; dsimp only; split <;> rfl)]

theorem State.lessTeams_modTeam (s : State) (tid : Nat) (f : Team → Team) : (s.modTeam tid f).lessTeams = s.lessTeams := rfl

theorem State.lessTeams_cur (s : State) (c : Option Cur) : ({ s with cur := c } : State).lessTeams = s.lessTeams := rfl

theorem State.chargeIssue_physByte (s : State) (t : Team) (g : Group) (fm : Form) (ex : Mask) (a : Nat) :
    (s.chargeIssue t g fm ex).physByte a = s.physByte a := by
  obtain ⟨_, _, h⟩ := s.chargeIssue_eq t g fm ex
  rw [h]
  rfl

/-- The team counted in differs by what an issue counts, where the issue is no branch. -/
theorem Iss.countTeam_lessCounts (q : Iss) (t : Team) (hb : q.fm.branch = false) : (q.countTeam t).lessCounts q.c = t.lessCounts q.c := by
  have ht : q.told t = t.tel := by simp [Iss.told, hb]
  simp only [Iss.countTeam, Team.lessCounts, Team.modGroup, Team.modBody, listModify_listModify, ht]
  congr 2
  refine congrArg _ ?_
  funext g
  simp only [Iss.countGroup, Group.lessCounts, Group.modFrag, Group.spendGrace, listModify_listModify]
  rfl

/-- A change of the issuing team, on the counted state, stays beside everything else. -/
theorem Iss.onlyTeam_of_issuer {s : State} {fm : Form} {q : Iss} (h : s.issuer fm = some q) (f : Team → Team)
    (hf : ∀ t, t.id = q.c.team → (f t).id = q.c.team) :
    OnlyTeam q (q.counted.s.modTeam q.c.team f) (f (q.countTeam q.t)) := by
  obtain ⟨hc, hstr, ht, hg, hfr, rfl, rfl, he⟩ := State.issuer_eq_some.1 h
  rw [(Iss.counted_eq h).1, Iss.account_eq]
  have hct : ∀ t : Team, t.id = q.c.team → (q.countTeam t).id = q.c.team := fun _ h => h
  have hteam : ∀ k, ({ (q.s.modTeam q.c.team q.countTeam).chargeIssue q.t q.g q.fm q.ex with cur := none } : State).team? k
      = (q.s.modTeam q.c.team q.countTeam).team? k := fun k => State.chargeIssue_team? _ _ _ _ _ k
  constructor
  · intro a
    exact State.chargeIssue_physByte _ _ _ _ _ a
  · rw [State.lessTeams_modTeam, State.lessTeams_cur, State.chargeIssue_lessTeams, State.lessTeams_modTeam]
  · intro k hk
    rw [State.team?_modTeam_ne _ _ f hf hk, hteam, State.team?_modTeam_ne _ _ _ hct hk]
  · rw [State.team?_modTeam_self _ _ f hf, hteam, State.team?_modTeam_self _ _ _ hct, ht]
    rfl

/-! ### Lane results -/

@[simp] theorem Team.raise_zero (t : Team) (gi : Nat) : t.raise gi 0 = t := by
  simp only [Team.raise, Team.modGroup, Team.modBody]
  rw [listModify_id _ _ _ (by intro g _; simp)]

/-- The lane that a lane result on the counted state leaves, in terms of what stood before. -/
theorem Iss.counted_laneResult_lane {s : State} {fm : Form} {q : Iss} (h : s.issuer fm = some q) (n : Nat) (val : Nat → List Word) (j : Nat) :
    (q.counted.laneResult n val).lane j =
      if j ∈ q.lanes.map q.lid ∧ j < q.t.body.lanes.length then
        (((q.t.lane j).setRegs (q.opD.dstRegs n) (val (j - q.g.first))).shiftL ((val (j - q.g.first)).headD 0))
      else if q.fm.p.mz = true ∧ j ∈ (maskList (q.f.mask &&& ~~~q.ex)).map q.lid ∧ j < q.t.body.lanes.length then
        (q.t.lane j).setRegs (q.opD.dstRegs n) (List.replicate (q.opD.dstRegs n).length 0)
      else q.t.lane j := by
  rw [Iss.laneResult_lane, (Iss.counted_eq h).1]
  rfl

/-- The team that a lane result on the counted state leaves, but for its lanes. -/
theorem Iss.counted_laneResult_rest {s : State} {fm : Form} {q : Iss} (h : s.issuer fm = some q) (n : Nat) (val : Nat → List Word) :
    ∃ L, q.counted.laneResult n val = (q.countTeam q.t).modBody (fun b => { b with lanes := L }) := by
  obtain ⟨L, h1, -⟩ := q.counted.laneResult_rest n val
  exact ⟨L, by rw [h1, (Iss.counted_eq h).1]; rfl⟩

/-- The frame of a short-latency lane result that raises `fl` (R9, R36, R41, R122, R161). -/
theorem Iss.laneFrame_raise {s : State} {fm : Form} {q : Iss} (h : s.issuer fm = some q) (hb : q.fm.branch = false) (n : Nat) (val : Nat → List Word) (fl : Nat) :
    LaneFrame q (q.opD.dstRegs n) fl (q.counted.modTeam (fun _ => (q.counted.laneResult n val).raise q.c.g fl)) := by
  obtain ⟨L, hL⟩ := Iss.counted_laneResult_rest h n val
  have hid : q.t.id = q.c.team := State.team?_id (State.issuer_eq_some.1 h).2.2.1
  have hex : ∀ i ∈ q.lanes, i ∈ maskList q.f.mask := by
    have := (State.issuer_eq_some.1 h).2.2.2.2.2.2.2
    intro i hi
    unfold Iss.lanes at hi
    rw [this] at hi
    exact execMask_sub _ _ _ _ hi
  have hfrag : ∀ i ∈ maskList (q.f.mask &&& ~~~q.ex), i ∈ maskList q.f.mask := by
    intro i hi
    simp only [mem_maskList, BitVec.getLsbD_and, Bool.and_eq_true] at hi ⊢
    exact ⟨hi.1, hi.2.1⟩
  refine ⟨(q.counted.laneResult n val).raise q.c.g fl, ?_, ?_, ?_⟩
  · have := Iss.onlyTeam_of_issuer h (fun _ => (q.counted.laneResult n val).raise q.c.g fl) (by
      intro t ht; rw [hL]; exact hid)
    rwa [Iss.modTeam, Iss.counted_c h]
  · rw [hL]
    have hcl := congrArg (fun t : Team => (t.modGroup q.c.g (fun g => { g with flags := g.flags ||| fl })).lessLanes)
      (Iss.countTeam_lessCounts q q.t hb)
    have comm : ∀ t : Team, ((t.raise q.c.g fl).lessCounts q.c) = (t.lessCounts q.c).modGroup q.c.g (fun g => { g with flags := g.flags ||| fl }) := by
      intro t
      simp only [Team.raise, Team.lessCounts, Team.modGroup, Team.modBody, listModify_listModify]
      rfl
    rw [comm, comm]
    exact hcl
  · intro lid
    have hl : ((q.counted.laneResult n val).raise q.c.g fl).lane lid = (q.counted.laneResult n val).lane lid := rfl
    rw [hl, Iss.counted_laneResult_lane h]
    have hnl := fun k => Opnd.dstRegs_l q.opD n k
    split
    · rename_i hj
      refine ⟨by rw [← Lane.setRegs_rest (q.t.lane lid) (q.opD.dstRegs n) (val (lid - q.g.first))]; rfl, fun hn => absurd ?_ hn,
        fun hn => absurd hj.1 hn, fun m hm => Lane.setRegs_v _ _ _ m hm, fun m hm => Lane.setRegs_q _ _ _ m hm⟩
      obtain ⟨i, hi, rfl⟩ := List.mem_map.1 hj.1
      exact List.mem_map.2 ⟨i, hex i hi, rfl⟩
    · split
      · rename_i hj
        refine ⟨Lane.setRegs_rest _ _ _, fun hn => absurd ?_ hn, fun _ => Lane.setRegs_l _ _ _ hnl,
          fun m hm => Lane.setRegs_v _ _ _ m hm, fun m hm => Lane.setRegs_q _ _ _ m hm⟩
        obtain ⟨i, hi, rfl⟩ := List.mem_map.1 hj.2.1
        exact List.mem_map.2 ⟨i, hfrag i hi, rfl⟩
      · exact ⟨rfl, fun _ => rfl, fun _ => rfl, fun _ _ => rfl, fun _ _ => rfl⟩

/-- The frame of a short-latency lane result (R9, R36, R41, R122). -/
theorem Iss.laneFrame {s : State} {fm : Form} {q : Iss} (h : s.issuer fm = some q) (hb : q.fm.branch = false) (n : Nat) (val : Nat → List Word) :
    LaneFrame q (q.opD.dstRegs n) 0 (q.counted.modTeam (fun _ => q.counted.laneResult n val)) := by
  have := Iss.laneFrame_raise h hb n val 0
  rwa [Team.raise_zero] at this

/-- The frame of a one-word result. -/
theorem Iss.result_frame {s : State} {fm : Form} {q : Iss} (h : s.issuer fm = some q) (hb : q.fm.branch = false) (val : Nat → Word) :
    LaneFrame q (q.opD.dstRegs 1) 0 (q.counted.result val) := Iss.laneFrame h hb 1 _

/-- The frame of a 64-bit result. -/
theorem Iss.result64_frame {s : State} {fm : Form} {q : Iss} (h : s.issuer fm = some q) (hb : q.fm.branch = false) (val : Nat → DWord) :
    LaneFrame q (q.opD.dstRegs 2) 0 (q.counted.result64 val) := Iss.laneFrame h hb 2 _

/-! ### Changes of the group alone -/

/-- The frame of a change of the issuing group. -/
theorem Iss.groupFrame {s : State} {fm : Form} {q : Iss} (h : s.issuer fm = some q) (hb : q.fm.branch = false) (f less : Group → Group)
    (hf : ∀ g, less ((f g).lessCounts q.c.f) = less (g.lessCounts q.c.f)) :
    GroupFrame q less (q.counted.modGroup f) := by
  have hid : q.t.id = q.c.team := State.team?_id (State.issuer_eq_some.1 h).2.2.1
  refine ⟨(q.countTeam q.t).modGroup q.c.g f, ?_, rfl, ?_⟩
  · have := Iss.onlyTeam_of_issuer h (fun t => t.modGroup q.c.g f) (fun _ h => h)
    rwa [Iss.modGroup, Iss.modTeam, Iss.counted_c h]
  · rw [← Iss.countTeam_lessCounts q q.t hb]
    simp only [Team.lessCounts, Team.modGroup, Team.modBody, listModify_listModify, hf]

end Sys2Proof.Machine
end

