-- ==== Sys2Proof/Laws/Float.lean ====
section
/-!
SUPPORT. Float results: what the issue of an instruction that raises flags comes to.
-/
namespace Sys2Proof.Machine

/-- A float result where no raised flag is enabled. -/
theorem Iss.floatRes_ok {q : Iss} {cnt : Nat} {f : Nat → Nat → ElemRes} (n : Nat) (words : Nat → List Nat → List Word)
    (h : q.fpTrap (q.lanes.map (fun i => (i, (List.range cnt).map (f i)))) = none) :
    q.floatRes n cnt words f = .ok (q.modTeam (fun _ =>
      (q.laneResult n (fun i => words i ((List.range cnt).map (fun k => (f i k).bits)))).raise q.c.g
        (allFlags (q.lanes.map (fun i => (i, (List.range cnt).map (f i))))))) := by
  unfold Iss.floatRes
  simp only [h]

/-- A float result that traps. -/
theorem Iss.floatRes_trap {q : Iss} {cnt : Nat} {f : Nat → Nat → ElemRes} {t : Trap} (n : Nat) (words : Nat → List Nat → List Word)
    (h : q.fpTrap (q.lanes.map (fun i => (i, (List.range cnt).map (f i)))) = some t) : q.floatRes n cnt words f = .trap t := by
  unfold Iss.floatRes
  simp only [h]

/-- An unhindered issue whose effect on the counted state is a float result that no enabled flag stops. -/
theorem issue_floatRes {i : Instr} {s : State} {q : Iss} (h : Issues i s q) {eff : Iss → Eff} {n cnt : Nat}
    {words : Nat → List Nat → List Word} {f : Nat → Nat → ElemRes} (he : eff q.counted = q.counted.floatRes n cnt words f)
    (hn : q.fpTrap (q.lanes.map (fun l => (l, (List.range cnt).map (f l)))) = none) :
    issue i eff s = .next (q.wrote n (fun l => words l ((List.range cnt).map (fun k => (f l k).bits)))
      (allFlags (q.lanes.map (fun l => (l, (List.range cnt).map (f l)))))) := by
  have hr := h.reads
  have hn' : q.counted.fpTrap (q.counted.lanes.map (fun l => (l, (List.range cnt).map (f l)))) = none := by
    rw [Iss.counted_fpTrap hr, Iss.counted_lanes hr]; exact hn
  rw [issue_eq h, he, Iss.floatRes_ok n words hn']
  simp only [Iss.wrote, Iss.counted_c hr, Iss.counted_lanes hr]

/-- An unhindered issue whose effect on the counted state is a float result that an enabled flag stops. -/
theorem issue_floatRes_trap {i : Instr} {s : State} {q : Iss} (h : Issues i s q) {eff : Iss → Eff} {n cnt : Nat}
    {words : Nat → List Nat → List Word} {f : Nat → Nat → ElemRes} {t : Trap} (he : eff q.counted = q.counted.floatRes n cnt words f)
    (hn : q.fpTrap (q.lanes.map (fun l => (l, (List.range cnt).map (f l)))) = some t) :
    issue i eff s = .next (q.trapped t) := by
  have hr := h.reads
  have hn' : q.counted.fpTrap (q.counted.lanes.map (fun l => (l, (List.range cnt).map (f l)))) = some t := by
    rw [Iss.counted_fpTrap hr, Iss.counted_lanes hr]; exact hn
  rw [issue_eq h, he, Iss.floatRes_trap n words hn']

end Sys2Proof.Machine
end

