-- ==== Sys2Proof/Laws/Memory.lean ====
section
/-!
SUPPORT. Every operation that writes memory keeps both memories in canonical form; a byte that was written reads as it was written; the
operations that only move accounts, copies and tags leave the bytes alone.
-/
namespace Sys2Proof.Machine

/-- Two states whose two memories are the same data. -/
theorem State.memWf_congr {s t : State} (h1 : t.mem = s.mem) (h2 : t.hostMem = s.hostMem) : t.memWf = s.memWf := by
  simp only [State.memWf, h1, h2]

/-- What a fold over a list keeps if each step keeps it. -/
theorem foldl_keeps {α : Type} (P : State → Prop) (f : State → α → State) (l : List α) (hf : ∀ s a, P s → P (f s a)) (s : State)
    (h : P s) : P (l.foldl f s) := by
  induction l generalizing s with
  | nil => exact h
  | cons a l ih => exact ih _ (hf s a h)

@[simp] theorem State.physWrite_memWf (s : State) (pa n x : Nat) (h : s.memWf = true) : (s.physWrite pa n x).memWf = true := by
  simp only [State.memWf, Bool.and_eq_true] at h ⊢
  unfold State.physWrite
  split
  · exact ⟨h.1, Cells.wf_writeNat _ _ _ _ h.2⟩
  · exact ⟨Cells.wf_writeNat _ _ _ _ h.1, h.2⟩

/-- A committed byte that was written reads as it was written. -/
theorem State.physByte_physWrite (s : State) (pa n x i : Nat) (h : s.memWf = true) (hi : i < (bytesOfNat n x).length)
    (ha : inAperture (pa + i) = inAperture pa) : (s.physWrite pa n x).physByte (pa + i) = (bytesOfNat n x)[i] := by
  simp only [State.memWf, Bool.and_eq_true] at h
  unfold State.physWrite State.physByte
  rw [ha]
  cases hp : inAperture pa
  · exact Cells.get_setRange _ h.1 _ _ _ hi
  · have hle : 2 ^ 45 ≤ pa := by simp only [inAperture, Bool.and_eq_true, decide_eq_true_eq] at hp; exact hp.1
    rw [show pa + i - 2 ^ 45 = pa - 2 ^ 45 + i by omega]
    exact Cells.get_setRange _ h.2 _ _ _ hi

/-- A byte of ERRPOS that was written reads as it was written, zero included (R5, R283). -/
theorem State.errPosByte_physWrite (s : State) (pa n x i : Nat) (h : s.memWf = true) (hz : s.zeroed.wf = true)
    (hi : i < (bytesOfNat n x).length) (ha : inAperture (pa + i) = inAperture pa) :
    (s.physWrite pa n x).errPosByte (pa + i) = (bytesOfNat n x)[i] := by
  have hw : (s.physWrite pa n x).zeroed = noteZeros s.zeroed pa (bytesOfNat n x) := by
    unfold State.physWrite
    split <;> rfl
  have hg : (noteZeros s.zeroed pa (bytesOfNat n x)).get (pa + i) = if (bytesOfNat n x)[i] = 0 then 1 else 0 := by
    unfold noteZeros
    rw [Cells.get_setRange _ hz _ _ _ (by simpa using hi), List.getElem_map]
  unfold State.errPosByte
  rw [State.physByte_physWrite s pa n x i h hi ha, hw, hg]
  by_cases hb : (bytesOfNat n x)[i] = 0 <;> simp [hb]

/-! ### Operations that leave both memories alone -/

@[simp] theorem State.modTeam_memWf (s : State) (k : Nat) (f : Team → Team) : (s.modTeam k f).memWf = s.memWf :=
  State.memWf_congr rfl rfl

@[simp] theorem State.modBank_memWf (s : State) (k : Nat) (f : Bank → Bank) : (s.modBank k f).memWf = s.memWf :=
  State.memWf_congr rfl rfl

@[simp] theorem State.modCore_memWf (s : State) (k : Nat) (f : Core → Core) : (s.modCore k f).memWf = s.memWf :=
  State.memWf_congr rfl rfl

@[simp] theorem State.modCluster_memWf (s : State) (k : Nat) (f : Cluster → Cluster) : (s.modCluster k f).memWf = s.memWf :=
  State.memWf_congr rfl rfl

@[simp] theorem State.hostRequest_memWf (s : State) (fn : Fn) (w : Bool) (pa n : Nat) : (s.hostRequest fn w pa n).memWf = s.memWf := by
  unfold State.hostRequest; split <;> rfl

@[simp] theorem State.poisonWord_memWf (s : State) (w : Nat) : (s.poisonWord w).memWf = s.memWf := by
  unfold State.poisonWord; split <;> rfl

@[simp] theorem State.l2Touch_memWf (s : State) (pa : Nat) (w : Bool) (h : Nat) : (s.l2Touch pa w h).memWf = s.memWf := by
  unfold State.l2Touch; split <;> rfl

@[simp] theorem State.l2Version_memWf (s : State) (tid pa h : Nat) : (s.l2Version tid pa h).memWf = s.memWf := by
  unfold State.l2Version; split <;> rfl

@[simp] theorem State.takeVersion_memWf (s : State) (tid pa : Nat) : (s.takeVersion tid pa).memWf = s.memWf := by
  unfold State.takeVersion
  dsimp only
  split <;> rfl

@[simp] theorem State.releaseVersionLines_memWf (s : State) (tid : Nat) (keep : Bool) : (s.releaseVersionLines tid keep).memWf = s.memWf :=
  State.memWf_congr rfl rfl

@[simp] theorem State.discardVersion_memWf (s : State) (tid : Nat) : (s.discardVersion tid).memWf = s.memWf := State.memWf_congr rfl rfl

@[simp] theorem State.l1Fill_memWf (s : State) (c pa : Nat) : (s.l1Fill c pa).memWf = s.memWf := State.memWf_congr rfl rfl

@[simp] theorem State.l1DropAt_memWf (s : State) (core : Option Nat) (pa : Nat) : (s.l1DropAt core pa).memWf = s.memWf := by
  cases core <;> rfl

@[simp] theorem State.clearPart_memWf (s : State) (p : Part) : (s.clearPart p).memWf = s.memWf := by
  exact State.memWf_congr rfl rfl

@[simp] theorem State.takeTrap_memWf (s : State) (tid : Nat) (tr : Trap) : (s.takeTrap tid tr).memWf = s.memWf := State.memWf_congr rfl rfl

@[simp] theorem State.cachedRead_memWf (s : State) (t : Team) (pa hint : Nat) : (s.cachedRead t pa hint).memWf = s.memWf := by
  unfold State.cachedRead
  split
  · exact s.l2Version_memWf _ _ _
  · dsimp only
    split
    · split
      · exact s.l2Touch_memWf _ _ _
      · exact (State.l1Fill_memWf _ _ _).trans (s.l2Touch_memWf _ _ _)
    · exact s.l2Touch_memWf _ _ _

/-- A core's copies may change, where there is a core. -/
theorem memWf_onCore (core : Option Nat) (f : Core → Core) (s : State) :
    (match core with
      | some c => s.modCore c f
      | none => s).memWf = s.memWf := by
  cases core <;> rfl

@[simp] theorem State.touchWalk_memWf (s : State) (ten root va : Nat) (h : s.memWf = true) : (s.touchWalk ten root va).memWf = true :=
  foldl_keeps (fun s => s.memWf = true) _ _
    (fun s _ h => ((State.hostRequest_memWf _ _ _ _ _).trans (s.l2Touch_memWf _ _ _)).trans h) s h

@[simp] theorem State.lookup_memWf (s : State) (core : Option Nat) (ten ctx va : Nat) (h : s.memWf = true) : (s.lookup core ten ctx va).1.memWf = true := by
  unfold State.lookup
  dsimp only
  split
  · exact h
  · split
    · exact (memWf_onCore core _ s).trans h
    · split
      · exact h
      · split
        · exact s.touchWalk_memWf _ _ _ h
        · cases core <;> exact s.touchWalk_memWf _ _ _ h

/-- A translation moves tags and accounts; memory it leaves alone. -/
@[simp] theorem State.translate_memWf (s : State) (core : Option Nat) (ten ctx va : Nat) (a : Acc) (h : s.memWf = true) :
    (s.translate core ten ctx va a).1.memWf = true := by
  unfold State.translate
  split
  · exact h
  · have hl := s.lookup_memWf core ten ctx va h
    generalize s.lookup core ten ctx va = r at hl ⊢
    obtain ⟨u, x⟩ := r
    cases x with
    | error e => exact hl
    | ok e =>
      dsimp only
      split <;> exact hl

/-! ### Writes of committed data -/

@[simp] theorem State.writeMasked_memWf (s : State) (line written : Nat) (data : Cells 8) (h : s.memWf = true) :
    (s.writeMasked line written data).memWf = true := by
  unfold State.writeMasked
  refine foldl_keeps (fun s => s.memWf = true) _ _ (fun s o h => ?_) _ h
  split
  · exact s.physWrite_memWf _ _ _ h
  · exact h

@[simp] theorem State.drainEntry_memWf (s : State) (e : WcEntry) (h : s.memWf = true) : (s.drainEntry e).memWf = true := by
  unfold State.drainEntry
  dsimp only
  have hm := s.writeMasked_memWf e.line e.written e.data h
  split
  · exact (State.hostRequest_memWf _ _ _ _ _).trans hm
  · exact hm

@[simp] theorem State.drainWc_memWf (s : State) (p : WcEntry → Bool) (h : s.memWf = true) : (s.drainWc p).memWf = true :=
  foldl_keeps (fun s => s.memWf = true) _ _ (fun s e h => s.drainEntry_memWf e h) _ h

@[simp] theorem State.drainLine_memWf (s : State) (pa : Nat) (h : s.memWf = true) : (s.drainLine pa).memWf = true := s.drainWc_memWf _ h

@[simp] theorem State.wcWrite_memWf (s : State) (tid gi pa n x : Nat) (h : s.memWf = true) : (s.wcWrite tid gi pa n x).memWf = true := by
  unfold State.wcWrite
  dsimp only
  split
  · exact State.drainEntry_memWf _ _ h
  · exact h

@[simp] theorem State.reach_memWf (s : State) (fn : Fn) (write : Bool) (pa n : Nat) (mt : MemType) (h : s.memWf = true) :
    (s.reach fn write pa n mt).memWf = true := by
  unfold State.reach
  dsimp only
  split
  · exact foldl_keeps (fun s => s.memWf = true) _ _ (fun s a h => (State.l2Touch_memWf _ _ _ _).trans (s.drainLine_memWf a h)) s h
  · exact (State.hostRequest_memWf _ _ _ _ _).trans (foldl_keeps (fun s => s.memWf = true) _ _ (fun s a h => s.drainLine_memWf a h) s h)

@[simp] theorem State.committedWrite_memWf (s : State) (core : Option Nat) (tid gi pa n x : Nat) (mt : MemType) (hint : Nat) (h : s.memWf = true) :
    (s.committedWrite core tid gi pa n x mt hint).memWf = true := by
  have hd := s.drainLine_memWf pa h
  unfold State.committedWrite
  dsimp only
  split
  · exact (memWf_onCore core _ _).trans (s.wcWrite_memWf _ _ _ _ _ h)
  · exact (memWf_onCore core _ _).trans (State.physWrite_memWf _ _ _ _ ((State.l2Touch_memWf _ _ _ _).trans hd))
  · exact (State.hostRequest_memWf _ _ _ _ _).trans ((memWf_onCore core _ _).trans (State.physWrite_memWf _ _ _ _ hd))

@[simp] theorem State.agentWrite_memWf (s : State) (tid gi pa n x : Nat) (mt : MemType) (hint : Nat) (h : s.memWf = true) :
    (s.agentWrite tid gi pa n x mt hint).memWf = true := by
  unfold State.agentWrite
  split
  · exact h
  · split
    · dsimp only
      rw [State.modTeam_memWf]
      split
      · rw [State.l2Version_memWf]
        split
        · exact h
        · exact (s.takeVersion_memWf tid pa).trans h
      · split
        · exact h
        · exact (s.takeVersion_memWf tid pa).trans h
    · exact s.committedWrite_memWf _ _ _ _ _ _ _ _ h

@[simp] theorem State.agentRead_memWf (s : State) (tid st : Nat) (keep : Bool) (pa n : Nat) (mt : MemType) (hint : Nat) (h : s.memWf = true) :
    (s.agentRead tid st keep pa n mt hint).1.memWf = true := by
  have hd := s.drainLine_memWf pa h
  have hc := fun t => ((s.drainLine pa).cachedRead_memWf t pa hint).trans hd
  unfold State.agentRead
  split
  · exact h
  · dsimp only
    split
    · split
      · split
        · exact hd
        · exact hc _
      · exact hc _
    · exact (State.l1DropAt_memWf _ _ _).trans ((State.hostRequest_memWf _ _ _ _ _).trans hd)

@[simp] theorem State.readPart_memWf (s : State) (tid st : Nat) (keep : Bool) (p : Part) (hint : Nat) (h : s.memWf = true) :
    (s.readPart tid st keep p hint).1.memWf = true := by
  unfold State.readPart
  repeat' split
  · exact h
  · exact h
  · exact s.agentRead_memWf _ _ _ _ _ _ _ h
  · generalize List.range p.size = l
    suffices ∀ acc : State × Nat, acc.1.memWf = true → (l.foldl (fun (acc : State × Nat) k =>
        let r := acc.1.agentRead tid st keep (p.byteAt k) 1 (p.typeAt k) hint
        (r.1, acc.2 + r.2 * 2 ^ (8 * k))) acc).1.memWf = true from this (s, 0) h
    induction l with
    | nil => exact fun _ h => h
    | cons k l ih => exact fun acc h => ih _ (acc.1.agentRead_memWf _ _ _ _ _ _ _ h)

@[simp] theorem State.writePart_memWf (s : State) (tid gi : Nat) (p : Part) (x hint : Nat) (h : s.memWf = true) :
    (s.writePart tid gi p x hint).memWf = true := by
  unfold State.writePart
  repeat' split
  · exact h
  · exact h
  · exact s.agentWrite_memWf _ _ _ _ _ _ _ h
  all_goals
    have hf := foldl_keeps (fun s => s.memWf = true) (fun s k => s.agentWrite tid gi (p.byteAt k) 1 (x / 2 ^ (8 * k)) (p.typeAt k) hint) (List.range p.size)
      (fun s k h => s.agentWrite_memWf _ _ _ _ _ _ _ h) s h
    exact hf

@[simp] theorem State.writeCard_memWf (s : State) (core : Option Nat) (tid gi : Nat) (p : Part) (h : s.memWf = true) :
    (s.writeCard core tid gi p).memWf = true := by
  unfold State.writeCard
  split
  · exact h
  · exact (State.clearPart_memWf _ _).trans
      (foldl_keeps (fun s => s.memWf = true) _ _ (fun s _ h => s.committedWrite_memWf _ _ _ _ _ _ _ _ h) s h)

@[simp] theorem State.drainPart_memWf (s : State) (p : Part) (h : s.memWf = true) : (s.drainPart p).memWf = true := by
  unfold State.drainPart
  split
  · exact h
  · exact State.drainLine_memWf _ _ (s.drainLine_memWf _ h)

@[simp] theorem State.l2Seen_memWf (s : State) (t : Team) (p : Part) (hint : Nat) : (s.l2Seen t p hint).memWf = s.memWf := by
  unfold State.l2Seen
  split
  · rfl
  · split
    · exact s.l2Version_memWf _ _ _
    · exact s.l2Touch_memWf _ _ _

/-- Whatever a part of an access does, both memories stay in canonical form. -/
@[simp] theorem State.performPart_memWf (s : State) (tid gi : Nat) (o : Op) (keep : Bool) (p : Part) (h : s.memWf = true) :
    (s.performPart tid gi o keep p).memWf = true := by
  unfold State.performPart
  have hd : (if o.kind.reads then s.drainPart p else s).memWf = true := by
    split
    · exact s.drainPart_memWf p h
    · exact h
  dsimp only
  generalize (if o.kind.reads then s.drainPart p else s) = s at hd ⊢
  split
  · exact hd
  · rename_i t _
    split
    · split
      · exact hd
      · exact s.readPart_memWf _ _ _ _ _ hd
    · exact s.writePart_memWf _ _ _ _ _ hd
    · exact s.writeCard_memWf _ _ _ _ hd
    · rename_i op e scope ret _
      split
      · exact hd
      · have hr := s.readPart_memWf tid s.stamp false { p with mt := if p.mt = .cached then .uncached else p.mt } o.hint hd
        generalize s.readPart tid s.stamp false { p with mt := if p.mt = .cached then .uncached else p.mt } o.hint = r at hr ⊢
        have drop : ∀ s : State, s.memWf = true → (if p.scratch then s else s.l1DropAt t.core? p.pa).memWf = true := by
          intro s h
          split
          · exact h
          · exact (s.l1DropAt_memWf _ _).trans h
        have write : ∀ s : State, s.memWf = true → (if op = 7 && r.2 ≠ p.data then s.l2Seen t p o.hint
            else s.writePart tid gi p (if op = 7 then p.data2 else atomicNew op e p.size (mrFtz o.mr) r.2 p.data) o.hint).memWf = true := by
          intro s h
          split
          · exact (s.l2Seen_memWf _ _ _).trans h
          · exact s.writePart_memWf _ _ _ _ _ h
        cases ret with
        | none => exact drop _ (write _ (drop _ hr))
        | some x => exact (State.modTeam_memWf _ _ _).trans (drop _ (write _ (drop _ hr)))
    · split
      · exact hd
      · exact s.readPart_memWf _ _ _ _ _ hd
    · split
      · split
        · exact foldl_keeps (fun s => s.memWf = true) _ _ (fun s k h => s.agentRead_memWf _ _ _ _ _ _ _ h) s hd
        · exact hd
      · split
        · split <;> exact hd
        · exact (s.l1DropAt_memWf _ _).trans hd

@[simp] theorem State.lateUe_memWf (s : State) (tid gi id lid va : Nat) : (s.lateUe tid gi id lid va).memWf = s.memWf := by
  unfold State.lateUe
  split
  · rfl
  · dsimp only
    split <;> rfl

@[simp] theorem State.finishAccess_memWf (s : State) (tid gi : Nat) (o : Op) : (s.finishAccess tid gi o).memWf = s.memWf := by
  unfold State.finishAccess
  split
  · rfl
  · dsimp only
    split
    · rfl
    · split
      · rfl
      · exact (State.lateUe_memWf _ _ _ _ _ _).trans rfl

/-- Performing an access in flight, whole or in part, keeps both memories in canonical form (R245). -/
@[simp] theorem State.performOp_memWf (s : State) (tid gi id : Nat) (sel : Part → Bool) (keep : Bool) (h : s.memWf = true) :
    (s.performOp tid gi id sel keep).memWf = true := by
  unfold State.performOp
  split
  · exact h
  · split
    · exact h
    · rename_i o _
      split
      · exact h
      · dsimp only
        have hf := fun l => foldl_keeps (fun s => s.memWf = true) (fun s p => s.performPart tid gi o keep p) l
          (fun s p h => s.performPart_memWf tid gi o keep p h) { s with freeCount := s.freeCount + 1 } h
        split
        · split
          · exact (State.finishAccess_memWf _ _ _ _).trans (hf _)
          · exact hf _
        · exact hf _

@[simp] theorem State.drainFor_memWf (s : State) (tid gi id : Nat) (h : s.memWf = true) : (s.drainFor tid gi id).memWf = true := by
  unfold State.drainFor
  split
  · split
    · exact s.drainWc_memWf _ h
    · exact h
  · exact h

@[simp] theorem State.flushIds_memWf (s : State) (tid gi : Nat) (ids : List Nat) (h : s.memWf = true) : (s.flushIds tid gi ids).memWf = true :=
  foldl_keeps (fun s => s.memWf = true) _ _ (fun s _ h => State.performOp_memWf _ _ _ _ _ _ (s.drainFor_memWf _ _ _ h)) s h

@[simp] theorem State.flushGroup_memWf (s : State) (tid gi : Nat) (h : s.memWf = true) : (s.flushGroup tid gi).memWf = true := by
  unfold State.flushGroup
  split
  · exact h
  · exact State.drainWc_memWf _ _ (s.flushIds_memWf _ _ _ h)

@[simp] theorem State.flushTeam_memWf (s : State) (tid : Nat) (h : s.memWf = true) : (s.flushTeam tid).memWf = true := by
  unfold State.flushTeam
  split
  · exact h
  · exact State.drainWc_memWf _ _ (foldl_keeps (fun s => s.memWf = true) _ _ (fun s gi h => s.flushGroup_memWf tid gi h) s h)

/-- A commit writes every version line, and both memories stay in canonical form (R270). -/
@[simp] theorem State.commitVersion_memWf (s : State) (tid : Nat) (h : s.memWf = true) : (s.commitVersion tid).memWf = true := by
  unfold State.commitVersion
  split
  · exact h
  · dsimp only
    rw [State.modTeam_memWf, State.releaseVersionLines_memWf]
    refine foldl_keeps (fun s => s.memWf = true) _ _ (fun s v h => ?_) s h
    refine foldl_keeps (fun s => s.memWf = true) _ _ (fun s i h => ?_) _ ((State.hostRequest_memWf _ _ _ _ _).trans (s.writeMasked_memWf _ _ _ h))
    split
    · exact (s.poisonWord_memWf _).trans h
    · exact h

@[simp] theorem State.locWrite_memWf (s : State) (ten : Nat) (l : Loc) (off n x : Nat) (h : s.memWf = true) : (s.locWrite ten l off n x).memWf = true := by
  unfold State.locWrite
  split
  · exact State.physWrite_memWf _ _ _ _ (s.reach_memWf _ _ _ _ _ h)
  · exact foldl_keeps (fun s => s.memWf = true) _ _ (fun s k h => State.physWrite_memWf _ _ _ _ (s.reach_memWf _ _ _ _ _ h)) s h

@[simp] theorem State.engWrite_memWf (s : State) (c : Card) (l : List (Nat × MemType × Nat)) (b : List Byte) (h : s.memWf = true) :
    (s.engWrite c l b).memWf = true := by
  induction l generalizing s b with
  | nil => exact h
  | cons x l ih => exact ih _ _ (s.committedWrite_memWf _ _ _ _ _ _ _ _ h)

@[simp] theorem State.fnWrite_memWf (s : State) (fn : Fn) (pa n x : Nat) (h : s.memWf = true) : (s.fnWrite fn pa n x).memWf = true :=
  (State.hostRequest_memWf _ _ _ _ _).trans (State.physWrite_memWf _ _ _ _ (s.drainLine_memWf pa h))

@[simp] theorem State.spill_memWf (s : State) (t : Team) (gi : Nat) (l : List (Nat × Nat)) (h : s.memWf = true) : (s.spill t gi l).1.memWf = true := by
  induction l generalizing s with
  | nil => exact h
  | cons x l ih =>
    unfold State.spill
    have ht := s.translate_memWf t.core? t.tenant t.ctx x.1 { kind := .store, write := true, size := 8 } h
    generalize s.translate t.core? t.tenant t.ctx x.1 { kind := .store, write := true, size := 8 } = r at ht ⊢
    obtain ⟨u, e⟩ := r
    cases e with
    | error e => exact ht
    | ok e => exact ih _ (State.committedWrite_memWf _ _ _ _ _ _ _ _ _ ht)

@[simp] theorem State.writeSave_memWf (s : State) (pa : Nat) (l : List Byte) (h : s.memWf = true) : (s.writeSave pa l).memWf = true := by
  unfold State.writeSave
  split
  · exact h
  · simp only [State.memWf, Bool.and_eq_true] at h ⊢
    exact ⟨Cells.wf_setRange _ _ _ h.1, h.2⟩

@[simp] theorem State.vendorMem_memWf (s : State) (tid d : Nat) (h : s.memWf = true) : (s.vendorMem tid d).memWf = true := by
  refine foldl_keeps (fun s => s.memWf = true) _ _ (fun s k h => ?_) s h
  dsimp only
  split
  · exact h
  · split
    · rename_i u pa mt he
      have hu := (congrArg (fun r => r.1.memWf) he).symm.trans (s.translate_memWf _ _ _ _ _ h)
      split
      · exact hu
      · exact u.physWrite_memWf _ _ _ hu
    · rename_i u e he
      exact (congrArg (fun r => r.1.memWf) he).symm.trans (s.translate_memWf _ _ _ _ _ h)

@[simp] theorem State.hostStore_memWf (s : State) (a : Nat) (l : List Byte) (h : s.memWf = true) : (s.hostStore a l).memWf = true := by
  unfold State.hostStore
  split
  · simp only [State.memWf, Bool.and_eq_true] at h ⊢
    exact ⟨h.1, Cells.wf_setRange _ _ _ h.2⟩
  · exact h

@[simp] theorem State.wipeChannels_memWf (s : State) (m : Word) (h : s.memWf = true) : (s.wipeChannels m).memWf = true := by
  simp only [State.memWf, Bool.and_eq_true] at h ⊢
  refine ⟨?_, h.2⟩
  unfold State.wipeChannels
  dsimp only
  exact Cells.wf_keep s.mem (fun a => !(match s.channelOf a with
    | some n => m.getLsbD n
    | none => false)) h.1

@[simp] theorem State.wiped_memWf (s : State) (h : s.memWf = true) : s.wiped.memWf = true := by
  simp only [State.memWf, Bool.and_eq_true] at h ⊢
  exact ⟨rfl, h.2⟩

@[simp] theorem State.reset_memWf : State.reset.memWf = true := rfl

@[simp] theorem State.writeHead_memWf (s : State) : s.writeHead.memWf = s.memWf := by
  unfold State.writeHead; split <;> rfl

/-- Rails rise and fall; memory they leave alone. -/
@[simp] theorem State.setRails_memWf (s : State) (a b : Nat) : (s.setRails a b).memWf = s.memWf := State.memWf_congr rfl rfl

/-- The host's memory outlives the part's. -/
@[simp] theorem State.blank_memWf (s : State) (h : s.memWf = true) : s.blank.memWf = true := by
  simp only [State.memWf, Bool.and_eq_true] at h ⊢
  exact ⟨rfl, h.2⟩

@[simp] theorem State.powerLost_memWf (s : State) (h : s.memWf = true) : s.powerLost.memWf = true := by
  have hw := s.writeHead_memWf.trans h
  refine foldl_keeps (fun s => s.memWf = true) _ _ (fun s v h => (s.setRails_memWf _ _).trans h) _ ?_
  simp only [State.memWf, Bool.and_eq_true] at hw ⊢
  exact ⟨rfl, hw.2⟩

/-- The word a test places keeps the canonical form of what it places it in. -/
@[simp] theorem State.placeWord_memWf (s : State) (nbits w : Nat) (h : s.memWf = true) : (s.placeWord nbits w).memWf = true := by
  simp only [State.memWf, Bool.and_eq_true] at h ⊢
  exact ⟨Cells.wf_writeNat _ _ _ _ h.1, h.2⟩

/-- The memories at reset are in canonical form. -/
theorem reset_memories : Memory.wf State.reset.mem = true ∧ Memory.wf State.reset.hostMem = true := by decide

end Sys2Proof.Machine
end

