-- ==== Sys2Proof/Laws/MemoryStep.lean ====
section
/-!
SUPPORT. Every operation, every instruction and event and the whole turn of the machine keep both memories in canonical form: one lemma for
each.
-/
namespace Sys2Proof.Machine

/-! ### The calculus -/

@[simp] theorem State.memWf_mk (mem hostMem x2 x3 x4 x5 x6 x7 x8 x9 x10 x11 x12 x13 x14 x15 x16 x17 x18 x19 x20 x21 x22 x23 x24 x25 x26 x27 x28 x29 x30 x31 x32 x33 x34 x35) :
    State.memWf ⟨mem, hostMem, x2, x3, x4, x5, x6, x7, x8, x9, x10, x11, x12, x13, x14, x15, x16, x17, x18, x19, x20, x21, x22, x23, x24, x25, x26, x27, x28, x29, x30, x31, x32, x33, x34, x35⟩ = (Memory.wf mem && Memory.wf hostMem) := rfl

@[simp] theorem State.wf_mem {s : State} (h : s.memWf = true) : Memory.wf s.mem = true := by
  simp only [State.memWf, Bool.and_eq_true] at h
  exact h.1

@[simp] theorem State.wf_hostMem {s : State} (h : s.memWf = true) : Memory.wf s.hostMem = true := by
  simp only [State.memWf, Bool.and_eq_true] at h
  exact h.2

@[simp] theorem State.memWf_ite {c : Prop} [Decidable c] {s t : State} (hs : s.memWf = true) (ht : t.memWf = true) :
    State.memWf (if c then s else t) = true := by
  split <;> assumption

@[simp] theorem State.memWf_foldl {α : Type} {f : State → α → State} {l : List α} {s : State}
    (hf : ∀ s a, s.memWf = true → (f s a).memWf = true) (h : s.memWf = true) : (l.foldl f s).memWf = true :=
  foldl_keeps (fun s => s.memWf = true) f l hf s h

/-- What an outcome, an effect, an engine's piece or a step that may not happen leaves is in canonical form. -/
def Kept (o : Host.Outcome State Fault Refusal) : Prop := ∀ t, o = .next t → t.memWf = true

def KeptOpt (o : Option State) : Prop := ∀ t, o = some t → t.memWf = true

def KeptEff : Eff → Prop
  | .ok s => s.memWf = true
  | _ => True

def KeptSEff : SEff → Prop
  | .ok s | .jump s => s.memWf = true
  | _ => True

def KeptWork : Work → Prop
  | .going s | .over s | .fails s _ => s.memWf = true
  | .waits => True

@[simp] theorem kept_next (s : State) : Kept (.next s) ↔ s.memWf = true := by simp [Kept]
@[simp] theorem kept_refused (r : Refusal) : Kept (.refused r) ↔ True := by simp [Kept]
@[simp] theorem keptOpt_some (s : State) : KeptOpt (some s) ↔ s.memWf = true := by simp [KeptOpt]
@[simp] theorem keptOpt_none : KeptOpt none ↔ True := by simp [KeptOpt]
@[simp] theorem keptEff_ok (s : State) : KeptEff (.ok s) ↔ s.memWf = true := Iff.rfl
@[simp] theorem keptEff_hold (w : Wait) : KeptEff (.hold w) ↔ True := Iff.rfl
@[simp] theorem keptEff_trap (t : Trap) : KeptEff (.trap t) ↔ True := Iff.rfl
@[simp] theorem keptSEff_ok (s : State) : KeptSEff (.ok s) ↔ s.memWf = true := Iff.rfl
@[simp] theorem keptSEff_jump (s : State) : KeptSEff (.jump s) ↔ s.memWf = true := Iff.rfl
@[simp] theorem keptSEff_hold (w : StreamSt) : KeptSEff (.hold w) ↔ True := Iff.rfl
@[simp] theorem keptSEff_trap (t : Trap) : KeptSEff (.trap t) ↔ True := Iff.rfl
@[simp] theorem keptWork_waits : KeptWork .waits ↔ True := Iff.rfl
@[simp] theorem keptWork_going (s : State) : KeptWork (.going s) ↔ s.memWf = true := Iff.rfl
@[simp] theorem keptWork_over (s : State) : KeptWork (.over s) ↔ s.memWf = true := Iff.rfl
@[simp] theorem keptWork_fails (s : State) (e : CardErr) : KeptWork (.fails s e) ↔ s.memWf = true := Iff.rfl

theorem nextOf_kept {o : Host.Outcome State Fault Refusal} (h : Kept o) : KeptOpt (nextOf o) := by
  intro t ht
  cases o <;> simp_all [nextOf]

@[simp] theorem keptOpt_getD {o : Option State} {s : State} (ho : KeptOpt o) (h : s.memWf = true) : (o.getD s).memWf = true := by
  cases o
  · exact h
  · exact ho _ rfl

/-! ### The operations -/

@[simp] theorem Iss.modTeam_memWf (q : Iss) (f : Team → Team) (h : q.s.memWf = true) : (Iss.modTeam q f).memWf = true := by
  exact (State.memWf_congr rfl rfl).trans h

@[simp] theorem Iss.modGroup_memWf (q : Iss) (f : Group → Group) (h : q.s.memWf = true) : (Iss.modGroup q f).memWf = true := by
  exact (State.memWf_congr rfl rfl).trans h

@[simp] theorem Iss.modFrag_memWf (q : Iss) (f : Frag → Frag) (h : q.s.memWf = true) : (Iss.modFrag q f).memWf = true := by
  exact (State.memWf_congr rfl rfl).trans h

@[simp] theorem Iss.result_memWf (q : Iss) (val : Nat → Word) (h : q.s.memWf = true) : (Iss.result q val).memWf = true := by
  exact (State.memWf_congr rfl rfl).trans h

@[simp] theorem Iss.result64_memWf (q : Iss) (val : Nat → DWord) (h : q.s.memWf = true) : (Iss.result64 q val).memWf = true := by
  exact (State.memWf_congr rfl rfl).trans h

@[simp] theorem State.addCharge_memWf (s : State) (cluster w : Nat) (h : s.memWf = true) : (State.addCharge s cluster w).memWf = true := by
  exact (State.memWf_congr rfl rfl).trans h

@[simp] theorem State.chargeClusters_memWf (s : State) (t : Team) (n w : Nat) (h : s.memWf = true) : (State.chargeClusters s t n w).memWf = true := by
  unfold State.chargeClusters
  simp +contextual (maxDischargeDepth := 20) [h]

@[simp] theorem State.chargeIssue_memWf (s : State) (t : Team) (g : Group) (fm : Form) (ex : Mask) (h : s.memWf = true) : (State.chargeIssue s t g fm ex).memWf = true := by
  unfold State.chargeIssue
  repeat' split
  all_goals simp [h]

@[simp] theorem Iss.account_memWf (q : Iss) (h : q.s.memWf = true) : (Iss.account q).memWf = true := by
  unfold Iss.account
  simp [h]

@[simp] theorem Iss.accountFate_memWf (q : Iss) (h : q.s.memWf = true) : (Iss.accountFate q).memWf = true := by
  unfold Iss.accountFate
  simp [h]

theorem issueForm_kept {fm : Form} {closing : Bool} {ok : Nat → Bool} {tg : Iss → List Target} {acct : Iss → State} {eff : Iss → Eff} {s : State}
    (ha : ∀ q : Iss, q.s.memWf = true → (acct q).memWf = true) (he : ∀ q : Iss, q.s.memWf = true → KeptEff (eff q)) (h : s.memWf = true) :
    Kept (issueForm fm closing ok tg acct eff s) := by
  unfold issueForm
  split
  · simp
  · rename_i q0 h0
    dsimp only
    split
    · simp
    · rename_i q hq
      have hs := (State.issuer_eq_some.1 hq).2.2.2.2.2.1
      have hq' : q.s.memWf = true := by rw [hs]; simp [h]
      split
      · simp [h]
      · split
        · simp [h]
        · split
          · simp
          · rename_i q1 _
            have hk := he { q1 with s := { acct q with cur := none }, ex := q.ex } (by simp [ha _ hq'])
            split
            · simp [h]
            · split
              · rename_i s2 h2
                rw [h2] at hk
                exact (kept_next _).2 hk
              · simp [h]
              · simp [h]

theorem issueWith_kept {i : Instr} {tg : Iss → List Target} {acct : Iss → State} {eff : Iss → Eff} {s : State}
    (ha : ∀ q : Iss, q.s.memWf = true → (acct q).memWf = true) (he : ∀ q : Iss, q.s.memWf = true → KeptEff (eff q)) (h : s.memWf = true) :
    Kept (issueWith i tg acct eff s) := by
  unfold issueWith
  split
  · simp
  · exact issueForm_kept ha he h

theorem issue_kept {i : Instr} {eff : Iss → Eff} {s : State} (he : ∀ q : Iss, q.s.memWf = true → KeptEff (eff q)) (h : s.memWf = true) :
    Kept (issue i eff s) :=
  issueWith_kept (fun q hq => q.account_memWf hq) he h

theorem issueOk_kept {i : Instr} {eff : Iss → State} {s : State} (he : ∀ q : Iss, q.s.memWf = true → (eff q).memWf = true) (h : s.memWf = true) :
    Kept (issueOk i eff s) :=
  issue_kept (fun q hq => he q hq) h

@[simp] theorem State.raiseKept_memWf (s : State) (tid gi : Nat) (h : s.memWf = true) : (s.raiseKept tid gi).memWf = true := by
  refine foldl_keeps (fun s => s.memWf = true) _ _ (fun s k h => ?_) s h
  split
  · exact h
  · split
    · exact h
    · exact (s.lateUe_memWf _ _ _ _ _).trans h

@[simp] theorem State.modPart_memWf (s : State) (p : Nat) (f : Partition → Partition) (h : s.memWf = true) : (State.modPart s p f).memWf = true := by
  exact (State.memWf_congr rfl rfl).trans h

@[simp] theorem State.reslice_memWf (s : State) (tid w : Nat) (h : s.memWf = true) : (State.reslice s tid w).memWf = true := by
  unfold State.reslice
  repeat' split
  all_goals simp [h]

@[simp] theorem State.modGroup_memWf (s : State) (tid gi : Nat) (f : Group → Group) (h : s.memWf = true) : (State.modGroup s tid gi f).memWf = true := by
  exact (State.memWf_congr rfl rfl).trans h

@[simp] theorem State.settleJoins_memWf (s : State) (tid gi n : Nat) (h : s.memWf = true) : (s.settleJoins tid gi n).memWf = true := by
  induction n generalizing s with
  | zero => exact h
  | succ n ih =>
    unfold State.settleJoins
    split
    · exact h
    · exact ih _ (by simp [h])

@[simp] theorem State.stopIdle_memWf (s : State) (tid : Nat) (h : s.memWf = true) : (State.stopIdle s tid).memWf = true := by
  exact (State.memWf_congr rfl rfl).trans h

@[simp] theorem State.fixAll_memWf (s : State) (tid : Nat) (h : s.memWf = true) : (State.fixAll s tid).memWf = true := by
  exact (State.memWf_congr rfl rfl).trans h

@[simp] theorem State.finishBarrier_memWf (s : State) (tid n : Nat) (h : s.memWf = true) : (State.finishBarrier s tid n).memWf = true := by
  unfold State.finishBarrier
  simp +contextual (maxDischargeDepth := 20) [h]

@[simp] theorem State.releaseBarrier_memWf (s : State) (tid n : Nat) (h : s.memWf = true) : (State.releaseBarrier s tid n).memWf = true := by
  unfold State.releaseBarrier
  dsimp only
  repeat' split
  all_goals simp [h]

@[simp] theorem State.testBarrier_memWf (s : State) (tid n : Nat) (h : s.memWf = true) : (State.testBarrier s tid n).memWf = true := by
  unfold State.testBarrier
  repeat' split
  all_goals simp [h]

@[simp] theorem State.testTaskBarrier_memWf (s : State) (tid : Nat) (h : s.memWf = true) : (State.testTaskBarrier s tid).memWf = true := by
  unfold State.testTaskBarrier
  repeat' split
  all_goals simp [h]

@[simp] theorem State.testBarriers_memWf (s : State) (tid : Nat) (sel : Barrier → Bool) (h : s.memWf = true) :
    (s.testBarriers tid sel).memWf = true := by
  refine State.testTaskBarrier_memWf _ _ (foldl_keeps (fun s => s.memWf = true) _ _ (fun s n h => ?_) s h)
  repeat' split
  all_goals simp [h]

@[simp] theorem State.settle_memWf (s : State) (tid gi : Nat) (h : s.memWf = true) : (State.settle s tid gi).memWf = true := by
  unfold State.settle
  repeat' (split <;> (try dsimp only))
  all_goals simp +contextual (maxDischargeDepth := 20) [h]

@[simp] theorem State.translateSpan_memWf (s : State) (core : Option Nat) (ten ctx va n : Nat) (a : Acc) (h : s.memWf = true) : (State.translateSpan s core ten ctx va n a).1.memWf = true := by
  unfold State.translateSpan
  repeat' (split <;> (try obtain rfl := congrArg Prod.fst ‹_ = ((_ : State), _)›) <;> (try dsimp only))
  all_goals simp +contextual (maxDischargeDepth := 20) [h]

@[simp] theorem State.keepTook_memWf (s : State) (t : Team) (p : Part) (h : s.memWf = true) : (State.keepTook s t p).memWf = true := by
  unfold State.keepTook
  simp [h]

@[simp] theorem State.place_memWf (s : State) (t : Team) (one : Bool) (lid ix va n data data2 : Nat) (a : Acc) (h : s.memWf = true) : (State.place s t one lid ix va n data data2 a).1.memWf = true := by
  unfold State.place
  repeat' (split <;> (try obtain rfl := congrArg Prod.fst ‹_ = ((_ : State), _)›) <;> (try dsimp only))
  all_goals simp +contextual (maxDischargeDepth := 20) [h]

@[simp] theorem State.laneParts_memWf (s : State) (t : Team) (lid va n : Nat) (scratch : Bool) (a : Acc) (x : Nat × Nat) (l : List (Nat × Nat))
    (h : s.memWf = true) : (s.laneParts t lid va n scratch a x l).1.memWf = true := by
  induction l generalizing s with
  | nil => exact h
  | cons y rest ih =>
    unfold State.laneParts
    repeat' (split <;> (try obtain rfl := congrArg Prod.fst ‹_ = ((_ : State), _)›) <;> (try dsimp only))
    all_goals simp (maxDischargeDepth := 20) [h, ih]

@[simp] theorem Iss.allParts_memWf (q : Iss) (x : Access) (s : State) (l : List Nat) (h : s.memWf = true) : (q.allParts x s l).1.memWf = true := by
  induction l generalizing s with
  | nil => exact h
  | cons i rest ih =>
    unfold Iss.allParts
    dsimp only
    repeat' (split <;> (try obtain rfl := congrArg Prod.fst ‹_ = ((_ : State), _)›) <;> (try dsimp only))
    all_goals simp (maxDischargeDepth := 20) [h, ih]

@[simp] theorem State.takeLines_memWf (s : State) (tid : Nat) (l : List (Part × Nat)) (h : s.memWf = true) : (s.takeLines tid l).1.memWf = true := by
  induction l generalizing s with
  | nil => exact h
  | cons i rest ih =>
    unfold State.takeLines
    dsimp only
    repeat' split
    all_goals simp [h, ih]

@[simp] theorem State.takeFor_memWf (s : State) (t : Team) (w : List (Part × Nat)) (h : s.memWf = true) : (State.takeFor s t w).1.memWf = true := by
  unfold State.takeFor
  repeat' split
  all_goals simp [h]

@[simp] theorem Iss.enter_memWf (q : Iss) (s : State) (path : Nat) (kind : OpKind) (parts : List Part) (hint : Nat) (k : BitVec 4) (zeros : List PWrite) (empty : Bool) (h : s.memWf = true) : (Iss.enter q s path kind parts hint k zeros empty).memWf = true := by
  exact (State.memWf_congr rfl rfl).trans h

@[simp] theorem State.telNote_memWf (s : State) (t : Team) (e : TelEvent) (h : s.memWf = true) : (State.telNote s t e).memWf = true := by
  unfold State.telNote
  simp [h]

@[simp] theorem State.telltaleStore_memWf (s : State) (t : Team) (gi : Nat) (pc : DWord) (op : OpKind) (parts : List Part) (h : s.memWf = true) : (State.telltaleStore s t gi pc op parts).memWf = true := by
  unfold State.telltaleStore
  dsimp only
  repeat' split
  all_goals simp [h]

theorem Iss.checked_memWf {q : Iss} {x : Access} {s : State} {l : List Part} (h : q.s.memWf = true) (e : q.checked x = .ok (s, l)) :
    s.memWf = true := by
  unfold Iss.checked at e
  split at e
  · cases e
  · split at e
    · cases e
    · rename_i u parts hu
      have hu' := (congrArg (fun r => r.1.memWf) hu).symm.trans (q.allParts_memWf x q.s q.lanes h)
      split at e
      · cases e
      · split at e
        · split at e
          · cases e
          · rename_i v hv
            cases e
            exact State.telltaleStore_memWf _ _ _ _ _ _ ((congrArg (fun r => r.1.memWf) hv).symm.trans (State.takeFor_memWf u _ _ hu'))
        · cases e
          exact hu'

@[simp] theorem Iss.access_kept {q : Iss} (x : Access) (k : BitVec 4) (zeros : List PWrite) (h : q.s.memWf = true) : KeptEff (q.access x k zeros) := by
  unfold Iss.access
  split
  · simp
  · rename_i s parts he
    split
    · simp
    · exact q.enter_memWf s _ _ _ _ _ _ _ (Iss.checked_memWf h he)

@[simp] theorem State.flushOlder_memWf (s : State) (tid gi id : Nat) (h : s.memWf = true) : (State.flushOlder s tid gi id).memWf = true := by
  unfold State.flushOlder
  repeat' split
  all_goals simp [h]

@[simp] theorem State.flushBefore_memWf (s : State) (tid gi id : Nat) (h : s.memWf = true) : (State.flushBefore s tid gi id).memWf = true := by
  unfold State.flushBefore
  dsimp only
  repeat' split
  all_goals simp [h]

@[simp] theorem State.performNow_memWf (s : State) (tid gi id : Nat) (h : s.memWf = true) : (State.performNow s tid gi id).memWf = true := by
  unfold State.performNow
  simp [h]

@[simp] theorem State.renewL1_memWf (s : State) (tid gi : Nat) (h : s.memWf = true) : (State.renewL1 s tid gi).memWf = true := by
  exact (State.memWf_congr rfl rfl).trans h

@[simp] theorem Iss.imageParts_memWf (q : Iss) (lid va : Nat) (scratch : Bool) (s : State) (l : List Nat) (h : s.memWf = true) :
    (q.imageParts lid va scratch s l).1.memWf = true := by
  induction l generalizing s with
  | nil => exact h
  | cons j rest ih =>
    unfold Iss.imageParts
    repeat' (split <;> (try obtain rfl := congrArg Prod.fst ‹_ = ((_ : State), _)›) <;> (try dsimp only))
    all_goals simp (maxDischargeDepth := 20) [h, ih]

theorem execLdmb_kept (k : BitVec 4) (t a : Code) (sp : BitVec 1) (fmt : BitVec 5) (s : State) (hs : s.memWf = true) : Kept (execLdmb k t a sp fmt s) := by
  unfold execLdmb
  refine issueWith_kept (fun q hq => q.account_memWf hq) (fun q hq => ?_) hs
  dsimp only
  repeat' (split <;> (try obtain rfl := congrArg Prod.fst ‹_ = ((_ : State), _)›))
  all_goals simp (maxDischargeDepth := 20) [hq]

theorem execMstart_kept (l : Option Word) (k : BitVec 4) (u : BitVec 1) (a b : Code) (s : State) (hs : s.memWf = true) : Kept (execMstart l k u a b s) := by
  unfold execMstart
  refine issue_kept (fun q hq => ?_) hs
  dsimp only
  repeat' split
  all_goals simp [hq]

theorem execMaccRd_kept (l : Option Word) (d a : Code) (s : State) (hs : s.memWf = true) : Kept (execMaccRd l d a s) := by
  unfold execMaccRd
  refine issue_kept (fun q hq => ?_) hs
  repeat' split
  all_goals simp [hq]

theorem execMaccWr_kept (l : Option Word) (a b : Code) (s : State) (hs : s.memWf = true) : Kept (execMaccWr l a b s) := by
  unfold execMaccWr
  refine issue_kept (fun q hq => ?_) hs
  repeat' split
  all_goals simp [hq]

@[simp] theorem SIss.modStream_memWf (q : SIss) (f : Stream → Stream) (h : q.s.memWf = true) : (SIss.modStream q f).memWf = true := by
  exact (State.memWf_congr rfl rfl).trans h

@[simp] theorem State.stopStream_memWf (s : State) (tid : Nat) (tr : Trap) (h : s.memWf = true) : (State.stopStream s tid tr).memWf = true := by
  exact (State.memWf_congr rfl rfl).trans h

@[simp] theorem State.chargeStream_memWf (s : State) (t : Team) (w : Nat) (h : s.memWf = true) : (State.chargeStream s t w).memWf = true := by
  unfold State.chargeStream
  repeat' split
  all_goals simp [h]

theorem streamWord_kept {charge : Nat} {eff : SIss → SEff} {s : State} (he : ∀ q : SIss, q.s.memWf = true → KeptSEff (eff q)) (h : s.memWf = true) :
    Kept (streamWord charge eff s) := by
  unfold streamWord
  split
  · simp
  · rename_i q _
    dsimp only
    have hk := he { q with s := (State.chargeStream { s with cur := none } q.t charge).modTeam q.c.team (fun t => { t with issued := true }) }
      (by simp [h])
    split
    · rename_i s1 h1
      rw [h1] at hk
      exact (kept_next _).2 ((State.modTeam_memWf _ _ _).trans hk)
    · rename_i s1 h1
      rw [h1] at hk
      exact (kept_next _).2 hk
    · simp [h]
    · simp [h]

theorem execMma_kept (afmt bfmt : BitVec 5) (atype : BitVec 2) (slot : BitVec 3) (abuf bbuf ovw : BitVec 1) (s : State) (hs : s.memWf = true) : Kept (execMma afmt bfmt atype slot abuf bbuf ovw s) := by
  unfold execMma
  refine streamWord_kept (fun q hq => ?_) hs
  dsimp only
  repeat' split
  all_goals simp [hq]

theorem execMzero_kept (atype : BitVec 2) (slot : BitVec 3) (s : State) (hs : s.memWf = true) : Kept (execMzero atype slot s) := by
  unfold execMzero
  refine streamWord_kept (fun q hq => ?_) hs
  repeat' split
  all_goals simp [hq]

theorem execMscale_kept (scl : BitVec 8) (atype : BitVec 2) (slot : BitVec 3) (s : State) (hs : s.memWf = true) : Kept (execMscale scl atype slot s) := by
  unfold execMscale
  refine streamWord_kept (fun q hq => ?_) hs
  repeat' split
  all_goals simp [hq]

theorem execMlda_kept (fmt : BitVec 5) (abuf : BitVec 1) (lsel : BitVec 2) (stride off : BitVec 16) (s : State) (hs : s.memWf = true) : Kept (execMlda fmt abuf lsel stride off s) := by
  unfold execMlda
  refine streamWord_kept (fun q hq => ?_) hs
  repeat' (split <;> (try dsimp only))
  all_goals simp +contextual (maxDischargeDepth := 20) [hq]

theorem execMaccRdStream_kept (slot : BitVec 3) (off : BitVec 16) (s : State) (hs : s.memWf = true) : Kept (execMaccRdStream slot off s) := by
  unfold execMaccRdStream
  refine streamWord_kept (fun q hq => ?_) hs
  generalize 16384 = n
  dsimp only
  split
  · trivial
  · exact (keptSEff_ok _).2 ((State.modTeam_memWf _ _ _).trans hq)

theorem execMaccWrStream_kept (slot : BitVec 3) (off : BitVec 16) (s : State) (hs : s.memWf = true) : Kept (execMaccWrStream slot off s) := by
  unfold execMaccWrStream
  refine streamWord_kept (fun q hq => ?_) hs
  generalize 16384 = n
  dsimp only
  split
  · trivial
  · split
    · trivial
    · exact (keptSEff_ok _).2 (State.telNote_memWf _ _ _ ((State.modTeam_memWf _ _ _).trans hq))

theorem execMarrb_kept (n : BitVec 4) (s : State) (hs : s.memWf = true) : Kept (execMarrb n s) := by
  unfold execMarrb
  refine streamWord_kept (fun q hq => ?_) hs
  repeat' split
  all_goals simp [hq]

theorem execMwaitb_kept (n : BitVec 4) (s : State) (hs : s.memWf = true) : Kept (execMwaitb n s) := by
  unfold execMwaitb
  refine streamWord_kept (fun q hq => ?_) hs
  repeat' (split <;> (try dsimp only))
  all_goals simp +contextual (maxDischargeDepth := 20) [hq]

theorem execMloop_kept (count : BitVec 16) (body : BitVec 10) (s : State) (hs : s.memWf = true) : Kept (execMloop count body s) := by
  unfold execMloop
  refine streamWord_kept (fun q hq => ?_) hs
  dsimp only
  repeat' split
  all_goals simp [hq]

theorem execMend_kept (s : State) (hs : s.memWf = true) : Kept (execMend s) := by
  unfold execMend
  refine streamWord_kept (fun q hq => ?_) hs
  simp +contextual (maxDischargeDepth := 20) [hq]

@[simp] theorem SIss.globalParts_memWf (q : SIss) (unit : Nat) (k : AccessKind) (s : State) (l : List (Nat × Nat)) (h : s.memWf = true) :
    (q.globalParts unit k s l).1.memWf = true := by
  induction l generalizing s with
  | nil => exact h
  | cons y rest ih =>
    unfold SIss.globalParts
    repeat' (split <;> (try obtain rfl := congrArg Prod.fst ‹_ = ((_ : State), _)›) <;> (try dsimp only))
    all_goals simp (maxDischargeDepth := 20) [h, ih]

@[simp] theorem SIss.spanParts_memWf (q : SIss) (global : Bool) (unit : Nat) (k : AccessKind) (s : State) (l : List (Nat × Nat)) (h : s.memWf = true) : (SIss.spanParts q global unit k s l).1.memWf = true := by
  unfold SIss.spanParts
  repeat' split
  all_goals simp [h]

@[simp] theorem SIss.drainParts_memWf (q : SIss) (s : State) (f : DrainFields) (d : DrainDesc) (h : s.memWf = true) : (SIss.drainParts q s f d).1.memWf = true := by
  unfold SIss.drainParts
  simp [h]

@[simp] theorem State.mergeMax_memWf (s : State) (tid : Nat) (p : Part) (m : Nat) (h : s.memWf = true) : (State.mergeMax s tid p m).memWf = true := by
  unfold State.mergeMax
  dsimp only
  repeat' split
  all_goals simp [h]

@[simp] theorem SIss.mergeParts_memWf (q : SIss) (f : DrainFields) (d : DrainDesc) (s : State) (h : s.memWf = true) : (SIss.mergeParts q f d s).1.memWf = true := by
  unfold SIss.mergeParts
  repeat' split
  all_goals simp [h]

@[simp] theorem SIss.drainEffect_memWf (q : SIss) (f : DrainFields) (s : State) (outs merge : List Part) (h : s.memWf = true) : (SIss.drainEffect q f s outs merge).memWf = true := by
  unfold SIss.drainEffect
  simp +contextual (maxDischargeDepth := 20) [h]

theorem SIss.drainRest_kept (q : SIss) (f : DrainFields) (d : DrainDesc) (hq : q.s.memWf = true) : KeptSEff (q.drainRest f d) := by
  unfold SIss.drainRest
  dsimp only
  repeat' (split <;> (try obtain rfl := congrArg Prod.fst ‹_ = ((_ : State), _)›))
  all_goals simp (maxDischargeDepth := 20) [hq]

theorem execMdrain_kept (f : DrainFields) (s : State) (hs : s.memWf = true) : Kept (execMdrain f s) := by
  refine streamWord_kept (fun q hq => ?_) hs
  dsimp only
  repeat' split
  all_goals first | trivial | exact q.drainRest_kept _ _ hq

@[simp] theorem State.locate_memWf (s : State) (core : Option Nat) (ten ctx va n : Nat) (h : s.memWf = true) : (State.locate s core ten ctx va n).1.memWf = true := by
  unfold State.locate
  repeat' (split <;> (try obtain rfl := congrArg Prod.fst ‹_ = ((_ : State), _)›) <;> (try dsimp only))
  all_goals simp +contextual (maxDischargeDepth := 20) [h]

theorem Iss.ccb_memWf {q : Iss} {k : Nat} {s : State} {l : Loc} (h : q.s.memWf = true) (e : q.ccb k = .ok (s, l)) : s.memWf = true := by
  unfold Iss.ccb at e
  dsimp only at e
  split at e
  · cases e
  · split at e
    · split at e
      · cases e
      · split at e
        · cases e
        · cases e
          exact h
    · split at e
      · cases e
      · rename_i u l' hu
        cases e
        exact State.keepTook_memWf _ _ _ ((congrArg (fun r => r.1.memWf) hu).symm.trans (State.locate_memWf _ _ _ _ _ _ h))

@[simp] theorem State.readSlot_memWf (s : State) (core : Option Nat) (ten ctx : Nat) (seg : Seg) (ccb : Loc) (pos : Nat) (h : s.memWf = true) :
    (s.readSlot core ten ctx seg ccb pos).1.memWf = true := by
  unfold State.readSlot
  dsimp only
  split
  · exact h
  · have hl := s.locate_memWf core ten ctx (seg.base.toNat + (s.ccbRing ccb + 128 * (pos % 2 ^ s.ccbLog2 ccb))) 128 h
    generalize s.locate core ten ctx (seg.base.toNat + (s.ccbRing ccb + 128 * (pos % 2 ^ s.ccbLog2 ccb))) 128 = r at hl ⊢
    obtain ⟨u, e | l⟩ := r <;> exact hl

@[simp] theorem State.readSlots_memWf (core : Option Nat) (ten ctx : Nat) (seg : Seg) (ccb : Loc) (s : State) (l : List Nat) (h : s.memWf = true) :
    (State.readSlots core ten ctx seg ccb s l).1.memWf = true := by
  induction l generalizing s with
  | nil => exact h
  | cons p rest ih =>
    unfold State.readSlots
    exact ih _ (s.readSlot_memWf core ten ctx seg ccb p h)

@[simp] theorem State.etailRead_memWf (s : State) (core : Option Nat) (ten ctx : Nat) (seg : Seg) (ccb : Loc) (chain start m n : Nat) (det : Bool) (site : Trap)
    (h : s.memWf = true) : (s.etailRead core ten ctx seg ccb chain start m n det site).1.memWf = true := by
  unfold State.etailRead
  dsimp only
  split
  · exact h
  · split <;> exact State.readSlots_memWf _ _ _ _ _ _ _ h

@[simp] theorem Iss.cardParts_memWf (q : Iss) (lid va : Nat) (s : State) (l : List Nat) (h : s.memWf = true) :
    (q.cardParts lid va s l).1.memWf = true := by
  induction l generalizing s with
  | nil => exact h
  | cons j rest ih =>
    unfold Iss.cardParts
    repeat' (split <;> (try obtain rfl := congrArg Prod.fst ‹_ = ((_ : State), _)›) <;> (try dsimp only))
    all_goals simp (maxDischargeDepth := 20) [h, ih]

@[simp] theorem Iss.append_kept (q : Iss) (s : State) (k : BitVec 4) (parts : List Part) (h : s.memWf = true) : KeptEff (q.append s k parts) := by
  unfold Iss.append
  split <;> simp [h]

theorem execEcard_kept (l : Option Word) (k : BitVec 4) (h : BitVec 1) (c : BitVec 4) (a b : Code) (s : State) (hs : s.memWf = true) :
    Kept (execEcard l k h c a b s) := by
  unfold execEcard
  refine issue_kept (fun q hq => ?_) hs
  repeat' (split <;> (try obtain rfl := congrArg Prod.fst ‹_ = ((_ : State), _)›) <;> (try dsimp only))
  all_goals first | trivial | (simp [hq]) | (have hc := Iss.ccb_memWf hq ‹_›; simp [hc])

@[simp] theorem Iss.cardsFor_memWf (q : Iss) (s : State) (ccb : Loc) (chain start m n : Nat) (h : s.memWf = true) : (Iss.cardsFor q s ccb chain start m n).1.memWf = true := by
  unfold Iss.cardsFor
  repeat' split
  all_goals simp [h]

theorem execEtail_kept (l : Option Word) (c : BitVec 4) (a : Code) (s : State) (hs : s.memWf = true) : Kept (execEtail l c a s) := by
  unfold execEtail
  refine issue_kept (fun q hq => ?_) hs
  dsimp only
  repeat' (split <;> (try obtain rfl := congrArg Prod.fst ‹_ = ((_ : State), _)›) <;> (try have hc := Iss.ccb_memWf hq ‹_›))
  all_goals first | (simp +contextual (maxDischargeDepth := 20) [hc]; done) | simp +contextual (maxDischargeDepth := 20) [hq]

theorem execEseq_kept (d : Code) (sel : BitVec 2) (c : BitVec 4) (s : State) (hs : s.memWf = true) : Kept (execEseq d sel c s) := by
  unfold execEseq
  refine issue_kept (fun q hq => ?_) hs
  repeat' (split <;> (try have hc := Iss.ccb_memWf hq ‹_›))
  all_goals first | (simp +contextual (maxDischargeDepth := 20) [hc]; done) | simp

theorem execEwait_kept (l : Option Word) (a : Code) (c : BitVec 4) (s : State) (hs : s.memWf = true) : Kept (execEwait l a c s) := by
  unfold execEwait
  refine issue_kept (fun q hq => ?_) hs
  dsimp only
  repeat' (split <;> (try have hc := Iss.ccb_memWf hq ‹_›))
  all_goals first | (simp +contextual (maxDischargeDepth := 20) [hc]; done) | simp

theorem execGraph_kept (l : Option Word) (a b : Code) (s : State) (hs : s.memWf = true) : Kept (execGraph l a b s) := by
  unfold execGraph
  refine issue_kept (fun q hq => ?_) hs
  repeat' (split <;> (try dsimp only))
  all_goals simp +contextual (maxDischargeDepth := 20) [hq]

theorem execGcond_kept (l : Option Word) (a b : Code) (s : State) (hs : s.memWf = true) : Kept (execGcond l a b s) := by
  unfold execGcond
  refine issue_kept (fun q hq => ?_) hs
  repeat' (split <;> (try dsimp only))
  all_goals simp +contextual (maxDischargeDepth := 20) [hq]

@[simp] theorem Iss.load_kept (q : Iss) (seg n : Nat) (disp : Code) (k : BitVec 4) (h : q.s.memWf = true) : KeptEff (q.load seg n disp k) :=
  q.access_kept _ _ _ h

@[simp] theorem Iss.store_kept (q : Iss) (seg n : Nat) (disp : Code) (k : BitVec 4) (h : q.s.memWf = true) : KeptEff (q.store seg n disp k) :=
  q.access_kept _ _ _ h

theorem execLdGB_kept (p : Option Pfx) (k : BitVec 4) (t a disp : Code) (s : State) (hs : s.memWf = true) : Kept (execLdGB p k t a disp s) := by
  unfold execLdGB
  refine issue_kept (fun q hq => ?_) hs
  simp [hq]

theorem execLdGH_kept (p : Option Pfx) (k : BitVec 4) (t a disp : Code) (s : State) (hs : s.memWf = true) : Kept (execLdGH p k t a disp s) := by
  unfold execLdGH
  refine issue_kept (fun q hq => ?_) hs
  simp [hq]

theorem execLdGW_kept (p : Option Pfx) (k : BitVec 4) (t a disp : Code) (s : State) (hs : s.memWf = true) : Kept (execLdGW p k t a disp s) := by
  unfold execLdGW
  refine issue_kept (fun q hq => ?_) hs
  simp [hq]

theorem execLdGD_kept (p : Option Pfx) (k : BitVec 4) (t a disp : Code) (s : State) (hs : s.memWf = true) : Kept (execLdGD p k t a disp s) := by
  unfold execLdGD
  refine issue_kept (fun q hq => ?_) hs
  simp [hq]

theorem execLdGQ_kept (p : Option Pfx) (k : BitVec 4) (t a disp : Code) (s : State) (hs : s.memWf = true) : Kept (execLdGQ p k t a disp s) := by
  unfold execLdGQ
  refine issue_kept (fun q hq => ?_) hs
  simp [hq]

theorem execLdSB_kept (p : Option Pfx) (k : BitVec 4) (t a disp : Code) (s : State) (hs : s.memWf = true) : Kept (execLdSB p k t a disp s) := by
  unfold execLdSB
  refine issue_kept (fun q hq => ?_) hs
  simp [hq]

theorem execLdSH_kept (p : Option Pfx) (k : BitVec 4) (t a disp : Code) (s : State) (hs : s.memWf = true) : Kept (execLdSH p k t a disp s) := by
  unfold execLdSH
  refine issue_kept (fun q hq => ?_) hs
  simp [hq]

theorem execLdSW_kept (p : Option Pfx) (k : BitVec 4) (t a disp : Code) (s : State) (hs : s.memWf = true) : Kept (execLdSW p k t a disp s) := by
  unfold execLdSW
  refine issue_kept (fun q hq => ?_) hs
  simp [hq]

theorem execLdSD_kept (p : Option Pfx) (k : BitVec 4) (t a disp : Code) (s : State) (hs : s.memWf = true) : Kept (execLdSD p k t a disp s) := by
  unfold execLdSD
  refine issue_kept (fun q hq => ?_) hs
  simp [hq]

theorem execLdSQ_kept (p : Option Pfx) (k : BitVec 4) (t a disp : Code) (s : State) (hs : s.memWf = true) : Kept (execLdSQ p k t a disp s) := by
  unfold execLdSQ
  refine issue_kept (fun q hq => ?_) hs
  simp [hq]

theorem execLdCB_kept (p : Option Pfx) (k : BitVec 4) (t a disp : Code) (s : State) (hs : s.memWf = true) : Kept (execLdCB p k t a disp s) := by
  unfold execLdCB
  refine issue_kept (fun q hq => ?_) hs
  simp [hq]

theorem execLdCH_kept (p : Option Pfx) (k : BitVec 4) (t a disp : Code) (s : State) (hs : s.memWf = true) : Kept (execLdCH p k t a disp s) := by
  unfold execLdCH
  refine issue_kept (fun q hq => ?_) hs
  simp [hq]

theorem execLdCW_kept (p : Option Pfx) (k : BitVec 4) (t a disp : Code) (s : State) (hs : s.memWf = true) : Kept (execLdCW p k t a disp s) := by
  unfold execLdCW
  refine issue_kept (fun q hq => ?_) hs
  simp [hq]

theorem execLdCD_kept (p : Option Pfx) (k : BitVec 4) (t a disp : Code) (s : State) (hs : s.memWf = true) : Kept (execLdCD p k t a disp s) := by
  unfold execLdCD
  refine issue_kept (fun q hq => ?_) hs
  simp [hq]

theorem execLdCQ_kept (p : Option Pfx) (k : BitVec 4) (t a disp : Code) (s : State) (hs : s.memWf = true) : Kept (execLdCQ p k t a disp s) := by
  unfold execLdCQ
  refine issue_kept (fun q hq => ?_) hs
  simp [hq]

theorem execLdLB_kept (p : Option Pfx) (k : BitVec 4) (t a disp : Code) (s : State) (hs : s.memWf = true) : Kept (execLdLB p k t a disp s) := by
  unfold execLdLB
  refine issue_kept (fun q hq => ?_) hs
  simp [hq]

theorem execLdLH_kept (p : Option Pfx) (k : BitVec 4) (t a disp : Code) (s : State) (hs : s.memWf = true) : Kept (execLdLH p k t a disp s) := by
  unfold execLdLH
  refine issue_kept (fun q hq => ?_) hs
  simp [hq]

theorem execLdLW_kept (p : Option Pfx) (k : BitVec 4) (t a disp : Code) (s : State) (hs : s.memWf = true) : Kept (execLdLW p k t a disp s) := by
  unfold execLdLW
  refine issue_kept (fun q hq => ?_) hs
  simp [hq]

theorem execLdLD_kept (p : Option Pfx) (k : BitVec 4) (t a disp : Code) (s : State) (hs : s.memWf = true) : Kept (execLdLD p k t a disp s) := by
  unfold execLdLD
  refine issue_kept (fun q hq => ?_) hs
  simp [hq]

theorem execLdLQ_kept (p : Option Pfx) (k : BitVec 4) (t a disp : Code) (s : State) (hs : s.memWf = true) : Kept (execLdLQ p k t a disp s) := by
  unfold execLdLQ
  refine issue_kept (fun q hq => ?_) hs
  simp [hq]

theorem execStGB_kept (p : Option Pfx) (k : BitVec 4) (t a disp : Code) (s : State) (hs : s.memWf = true) : Kept (execStGB p k t a disp s) := by
  unfold execStGB
  refine issue_kept (fun q hq => ?_) hs
  simp [hq]

theorem execStGH_kept (p : Option Pfx) (k : BitVec 4) (t a disp : Code) (s : State) (hs : s.memWf = true) : Kept (execStGH p k t a disp s) := by
  unfold execStGH
  refine issue_kept (fun q hq => ?_) hs
  simp [hq]

theorem execStGW_kept (p : Option Pfx) (k : BitVec 4) (t a disp : Code) (s : State) (hs : s.memWf = true) : Kept (execStGW p k t a disp s) := by
  unfold execStGW
  refine issue_kept (fun q hq => ?_) hs
  simp [hq]

theorem execStGD_kept (p : Option Pfx) (k : BitVec 4) (t a disp : Code) (s : State) (hs : s.memWf = true) : Kept (execStGD p k t a disp s) := by
  unfold execStGD
  refine issue_kept (fun q hq => ?_) hs
  simp [hq]

theorem execStGQ_kept (p : Option Pfx) (k : BitVec 4) (t a disp : Code) (s : State) (hs : s.memWf = true) : Kept (execStGQ p k t a disp s) := by
  unfold execStGQ
  refine issue_kept (fun q hq => ?_) hs
  simp [hq]

theorem execStSB_kept (p : Option Pfx) (k : BitVec 4) (t a disp : Code) (s : State) (hs : s.memWf = true) : Kept (execStSB p k t a disp s) := by
  unfold execStSB
  refine issue_kept (fun q hq => ?_) hs
  simp [hq]

theorem execStSH_kept (p : Option Pfx) (k : BitVec 4) (t a disp : Code) (s : State) (hs : s.memWf = true) : Kept (execStSH p k t a disp s) := by
  unfold execStSH
  refine issue_kept (fun q hq => ?_) hs
  simp [hq]

theorem execStSW_kept (p : Option Pfx) (k : BitVec 4) (t a disp : Code) (s : State) (hs : s.memWf = true) : Kept (execStSW p k t a disp s) := by
  unfold execStSW
  refine issue_kept (fun q hq => ?_) hs
  simp [hq]

theorem execStSD_kept (p : Option Pfx) (k : BitVec 4) (t a disp : Code) (s : State) (hs : s.memWf = true) : Kept (execStSD p k t a disp s) := by
  unfold execStSD
  refine issue_kept (fun q hq => ?_) hs
  simp [hq]

theorem execStSQ_kept (p : Option Pfx) (k : BitVec 4) (t a disp : Code) (s : State) (hs : s.memWf = true) : Kept (execStSQ p k t a disp s) := by
  unfold execStSQ
  refine issue_kept (fun q hq => ?_) hs
  simp [hq]

theorem execStLB_kept (p : Option Pfx) (k : BitVec 4) (t a disp : Code) (s : State) (hs : s.memWf = true) : Kept (execStLB p k t a disp s) := by
  unfold execStLB
  refine issue_kept (fun q hq => ?_) hs
  simp [hq]

theorem execStLH_kept (p : Option Pfx) (k : BitVec 4) (t a disp : Code) (s : State) (hs : s.memWf = true) : Kept (execStLH p k t a disp s) := by
  unfold execStLH
  refine issue_kept (fun q hq => ?_) hs
  simp [hq]

theorem execStLW_kept (p : Option Pfx) (k : BitVec 4) (t a disp : Code) (s : State) (hs : s.memWf = true) : Kept (execStLW p k t a disp s) := by
  unfold execStLW
  refine issue_kept (fun q hq => ?_) hs
  simp [hq]

theorem execStLD_kept (p : Option Pfx) (k : BitVec 4) (t a disp : Code) (s : State) (hs : s.memWf = true) : Kept (execStLD p k t a disp s) := by
  unfold execStLD
  refine issue_kept (fun q hq => ?_) hs
  simp [hq]

theorem execStLQ_kept (p : Option Pfx) (k : BitVec 4) (t a disp : Code) (s : State) (hs : s.memWf = true) : Kept (execStLQ p k t a disp s) := by
  unfold execStLQ
  refine issue_kept (fun q hq => ?_) hs
  simp [hq]

theorem execLdv_kept (p : Option Pfx) (k : BitVec 4) (t a : Code) (g : BitVec 3) (w h : BitVec 2) (s : State) (hs : s.memWf = true) :
    Kept (execLdv p k t a g w h s) :=
  issue_kept (fun q hq => q.access_kept _ _ _ hq) hs

theorem execStv_kept (p : Option Pfx) (k : BitVec 4) (t a : Code) (g : BitVec 3) (w h : BitVec 2) (s : State) (hs : s.memWf = true) :
    Kept (execStv p k t a g w h s) :=
  issue_kept (fun q hq => q.access_kept _ _ _ hq) hs

@[simp] theorem Iss.lineParts_memWf (q : Iss) (disp : Int) (s : State) (l : List Nat) (h : s.memWf = true) : (q.lineParts disp s l).1.memWf = true := by
  induction l generalizing s with
  | nil => exact h
  | cons i rest ih =>
    unfold Iss.lineParts
    dsimp only
    repeat' (split <;> (try obtain rfl := congrArg Prod.fst ‹_ = ((_ : State), _)›) <;> (try dsimp only))
    all_goals simp (maxDischargeDepth := 20) [h, ih]

@[simp] theorem Iss.cache_kept (q : Iss) (f path : Nat) (disp : Code) (k : BitVec 4) (h : q.s.memWf = true) : KeptEff (q.cache f path disp k) := by
  have hl : ((if q.t.lead.isSome = true then (q.s, []) else q.lineParts (disp.toInt * 256) q.s q.lanes) : State × List Part).1.memWf = true := by
    split <;> simp [h]
  unfold Iss.cache
  dsimp only
  split
  · trivial
  · exact (keptEff_ok _).2 (Iss.enter_memWf q _ _ _ _ _ _ _ _ hl)

theorem execPrf_kept (k : BitVec 4) (a disp : Code) (s : State) (hs : s.memWf = true) : Kept (execPrf k a disp s) := by
  unfold execPrf
  refine issue_kept (fun q hq => ?_) hs
  simp [hq]

theorem execCwb_kept (k : BitVec 4) (a disp : Code) (s : State) (hs : s.memWf = true) : Kept (execCwb k a disp s) := by
  unfold execCwb
  refine issue_kept (fun q hq => ?_) hs
  simp [hq]

theorem execCinv_kept (k : BitVec 4) (a disp : Code) (s : State) (hs : s.memWf = true) : Kept (execCinv k a disp s) := by
  unfold execCinv
  refine issue_kept (fun q hq => ?_) hs
  simp [hq]

theorem execWaitc_kept (l : Option Word) (a : Code) (path : BitVec 3) (s : State) (hs : s.memWf = true) : Kept (execWaitc l a path s) := by
  unfold execWaitc
  refine issueOk_kept (fun q hq => ?_) hs
  simp +contextual (maxDischargeDepth := 20) [hq]

theorem execSegrd_kept (d : Code) (lim : BitVec 1) (g : BitVec 3) (s : State) (hs : s.memWf = true) : Kept (execSegrd d lim g s) := by
  unfold execSegrd
  refine issueOk_kept (fun q hq => ?_) hs
  simp [hq]

theorem execFence_kept (sc : BitVec 3) (s : State) (hs : s.memWf = true) : Kept (execFence sc s) := by
  unfold execFence
  refine issue_kept (fun q hq => ?_) hs
  repeat' split
  all_goals simp [hq]

@[simp] theorem Iss.acquire_kept (q : Iss) (seg n : Nat) (sc : BitVec 3) (disp : BitVec 4) (k : BitVec 4) (h : q.s.memWf = true) :
    KeptEff (q.acquire seg n sc disp k) := by
  unfold Iss.acquire
  have ha := q.access_kept (q.loadAccess seg n (disp.toInt * n) 0) k (q.pendingZeros (regsOf n)) h
  generalize q.access (q.loadAccess seg n (disp.toInt * n) 0) k (q.pendingZeros (regsOf n)) = r at ha ⊢
  split
  · simp
  · cases r with
    | ok s =>
      have hs : s.memWf = true := ha
      dsimp only
      split <;> simp (maxDischargeDepth := 20) [hs]
    | hold w => simp
    | trap t => simp

@[simp] theorem Iss.releaseSt_kept (q : Iss) (seg n : Nat) (sc : BitVec 3) (disp : BitVec 4) (k : BitVec 4) (h : q.s.memWf = true) :
    KeptEff (q.releaseSt seg n sc disp k) := by
  unfold Iss.releaseSt
  split
  · simp
  · exact q.access_kept _ _ _ h

theorem execLdGAcqW_kept (p : Option Pfx) (k : BitVec 4) (t a : Code) (sc : BitVec 3) (disp : BitVec 4) (s : State) (hs : s.memWf = true) : Kept (execLdGAcqW p k t a sc disp s) := by
  unfold execLdGAcqW
  refine issue_kept (fun q hq => ?_) hs
  simp [hq]

theorem execLdGAcqD_kept (p : Option Pfx) (k : BitVec 4) (t a : Code) (sc : BitVec 3) (disp : BitVec 4) (s : State) (hs : s.memWf = true) : Kept (execLdGAcqD p k t a sc disp s) := by
  unfold execLdGAcqD
  refine issue_kept (fun q hq => ?_) hs
  simp [hq]

theorem execLdSAcqW_kept (p : Option Pfx) (k : BitVec 4) (t a : Code) (sc : BitVec 3) (disp : BitVec 4) (s : State) (hs : s.memWf = true) : Kept (execLdSAcqW p k t a sc disp s) := by
  unfold execLdSAcqW
  refine issue_kept (fun q hq => ?_) hs
  simp [hq]

theorem execLdSAcqD_kept (p : Option Pfx) (k : BitVec 4) (t a : Code) (sc : BitVec 3) (disp : BitVec 4) (s : State) (hs : s.memWf = true) : Kept (execLdSAcqD p k t a sc disp s) := by
  unfold execLdSAcqD
  refine issue_kept (fun q hq => ?_) hs
  simp [hq]

theorem execStGRelW_kept (p : Option Pfx) (k : BitVec 4) (t a : Code) (sc : BitVec 3) (disp : BitVec 4) (s : State) (hs : s.memWf = true) : Kept (execStGRelW p k t a sc disp s) := by
  unfold execStGRelW
  refine issue_kept (fun q hq => ?_) hs
  simp [hq]

theorem execStGRelD_kept (p : Option Pfx) (k : BitVec 4) (t a : Code) (sc : BitVec 3) (disp : BitVec 4) (s : State) (hs : s.memWf = true) : Kept (execStGRelD p k t a sc disp s) := by
  unfold execStGRelD
  refine issue_kept (fun q hq => ?_) hs
  simp [hq]

theorem execStSRelW_kept (p : Option Pfx) (k : BitVec 4) (t a : Code) (sc : BitVec 3) (disp : BitVec 4) (s : State) (hs : s.memWf = true) : Kept (execStSRelW p k t a sc disp s) := by
  unfold execStSRelW
  refine issue_kept (fun q hq => ?_) hs
  simp [hq]

theorem execStSRelD_kept (p : Option Pfx) (k : BitVec 4) (t a : Code) (sc : BitVec 3) (disp : BitVec 4) (s : State) (hs : s.memWf = true) : Kept (execStSRelD p k t a sc disp s) := by
  unfold execStSRelD
  refine issue_kept (fun q hq => ?_) hs
  simp [hq]

@[simp] theorem Iss.atom_kept (q : Iss) (seg n : Nat) (sc : BitVec 3) (op : BitVec 4) (k : BitVec 4) (h : q.s.memWf = true) : KeptEff (q.atom seg n sc op k) := by
  unfold Iss.atom
  have ha := q.access_kept (q.atomAccess seg n sc op true) k (q.pendingZeros (regsOf n)) h
  generalize q.access (q.atomAccess seg n sc op true) k (q.pendingZeros (regsOf n)) = r at ha ⊢
  split
  · simp
  · split
    · simp
    · cases r with
      | ok s =>
        have hs : s.memWf = true := ha
        dsimp only
        split <;> simp (maxDischargeDepth := 20) [hs]
      | hold w => simp
      | trap t => simp

@[simp] theorem Iss.redm_kept (q : Iss) (n : Nat) (sc : BitVec 3) (op : BitVec 4) (k : BitVec 4) (h : q.s.memWf = true) : KeptEff (q.redm n sc op k) := by
  unfold Iss.redm
  repeat' split
  all_goals first | simp | exact q.access_kept _ _ _ h

theorem execAtomGW_kept (p : Option Pfx) (k : BitVec 4) (t a : Code) (sc : BitVec 3) (op : BitVec 4) (s : State) (hs : s.memWf = true) : Kept (execAtomGW p k t a sc op s) := by
  unfold execAtomGW
  refine issue_kept (fun q hq => ?_) hs
  simp [hq]

theorem execAtomGD_kept (p : Option Pfx) (k : BitVec 4) (t a : Code) (sc : BitVec 3) (op : BitVec 4) (s : State) (hs : s.memWf = true) : Kept (execAtomGD p k t a sc op s) := by
  unfold execAtomGD
  refine issue_kept (fun q hq => ?_) hs
  simp [hq]

theorem execAtomSW_kept (p : Option Pfx) (k : BitVec 4) (t a : Code) (sc : BitVec 3) (op : BitVec 4) (s : State) (hs : s.memWf = true) : Kept (execAtomSW p k t a sc op s) := by
  unfold execAtomSW
  refine issue_kept (fun q hq => ?_) hs
  simp [hq]

theorem execAtomSD_kept (p : Option Pfx) (k : BitVec 4) (t a : Code) (sc : BitVec 3) (op : BitVec 4) (s : State) (hs : s.memWf = true) : Kept (execAtomSD p k t a sc op s) := by
  unfold execAtomSD
  refine issue_kept (fun q hq => ?_) hs
  simp [hq]

theorem execRedmGW_kept (p : Option Pfx) (k : BitVec 4) (t a : Code) (sc : BitVec 3) (op : BitVec 4) (s : State) (hs : s.memWf = true) : Kept (execRedmGW p k t a sc op s) := by
  unfold execRedmGW
  refine issue_kept (fun q hq => ?_) hs
  simp [hq]

theorem execRedmGD_kept (p : Option Pfx) (k : BitVec 4) (t a : Code) (sc : BitVec 3) (op : BitVec 4) (s : State) (hs : s.memWf = true) : Kept (execRedmGD p k t a sc op s) := by
  unfold execRedmGD
  refine issue_kept (fun q hq => ?_) hs
  simp [hq]

@[simp] theorem State.endWait_memWf (s : State) (tid gi fi : Nat) (h : s.memWf = true) : (State.endWait s tid gi fi).memWf = true := by
  unfold State.endWait
  repeat' (split <;> (try dsimp only))
  all_goals simp +contextual (maxDischargeDepth := 20) [h]

@[simp] theorem State.endWaits_memWf (s : State) (tid gi : Nat) (h : s.memWf = true) : (State.endWaits s tid gi).memWf = true := by
  unfold State.endWaits
  repeat' (split)
  all_goals simp +contextual (maxDischargeDepth := 20) [h]

@[simp] theorem State.endAllWaits_memWf (s : State) (h : s.memWf = true) : (State.endAllWaits s).memWf = true := by
  unfold State.endAllWaits
  simp +contextual (maxDischargeDepth := 20) [h]

@[simp] theorem Iss.debug_kept (q : Iss) (sub detail : Nat) : KeptEff (q.debug sub detail) := trivial

theorem execTrap_kept (n : Code) (s : State) (hs : s.memWf = true) : Kept (execTrap n s) := by
  unfold execTrap
  refine issue_kept (fun q _ => ?_) hs
  simp

theorem execDbgbrk_kept (n : Code) (s : State) (hs : s.memWf = true) : Kept (execDbgbrk n s) := by
  unfold execDbgbrk
  refine issue_kept (fun q hq => ?_) hs
  repeat' split
  all_goals simp [hq]

theorem execHalt_kept (s : State) (hs : s.memWf = true) : Kept (execHalt s) := by
  unfold execHalt
  refine issue_kept (fun q _ => ?_) hs
  simp

@[simp] theorem Iss.leave_memWf (q : Iss) (em lst : Bool) (h : q.s.memWf = true) : (Iss.leave q em lst).memWf = true := by
  unfold Iss.leave
  simp +contextual (maxDischargeDepth := 20) [h]

theorem execEret_kept (s : State) (hs : s.memWf = true) : Kept (execEret s) := by
  unfold execEret
  refine issue_kept (fun q hq => ?_) hs
  repeat' split
  all_goals simp [hq]

theorem execEmret_kept (lst : BitVec 1) (s : State) (hs : s.memWf = true) : Kept (execEmret lst s) := by
  unfold execEmret
  refine issue_kept (fun q hq => ?_) hs
  repeat' split
  all_goals simp [hq]

theorem execWrd_kept (d : Code) (j slot : BitVec 2) (s : State) (hs : s.memWf = true) : Kept (execWrd d j slot s) := by
  unfold execWrd
  refine issue_kept (fun q hq => ?_) hs
  repeat' split
  all_goals simp [hq]

@[simp] theorem Iss.wwrLanes_memWf (q : Iss) (lv : JrLevel) (k : Nat) (r : SlotReg) (h : q.s.memWf = true) : (Iss.wwrLanes q lv k r).memWf = true := by
  exact (State.memWf_congr rfl rfl).trans h

theorem execWwr_kept (l : Option Word) (a : Code) (j slot : BitVec 2) (s : State) (hs : s.memWf = true) : Kept (execWwr l a j slot s) := by
  unfold execWwr
  refine issueWith_kept (fun q hq => q.account_memWf hq) (fun q hq => ?_) hs
  dsimp only
  repeat' split
  all_goals simp [hq]

theorem execWinfo_kept (d : Code) (ix : BitVec 3) (s : State) (hs : s.memWf = true) : Kept (execWinfo d ix s) := by
  unfold execWinfo
  refine issue_kept (fun q hq => ?_) hs
  repeat' split
  all_goals simp [hq]

theorem execCsrr_kept (d n : Code) (s : State) (hs : s.memWf = true) : Kept (execCsrr d n s) := by
  unfold execCsrr
  refine issueOk_kept (fun q hq => ?_) hs
  simp [hq]

@[simp] theorem Iss.modLevel_memWf (q : Iss) (f : JrLevel → JrLevel) (h : q.s.memWf = true) : (Iss.modLevel q f).memWf = true := by
  exact (State.memWf_congr rfl rfl).trans h

theorem execCsrw_kept (l : Option Word) (a n : Code) (s : State) (hs : s.memWf = true) : Kept (execCsrw l a n s) := by
  unfold execCsrw
  refine issue_kept (fun q hq => ?_) hs
  repeat' (split <;> (try dsimp only))
  all_goals simp +contextual (maxDischargeDepth := 20) [hq]

theorem execSegld_kept (a : Code) (g : BitVec 3) (s : State) (hs : s.memWf = true) : Kept (execSegld a g s) := by
  unfold execSegld
  refine issue_kept (fun q hq => ?_) hs
  repeat' (split <;> (try dsimp only))
  all_goals simp +contextual (maxDischargeDepth := 20) [hq]

@[simp] theorem State.tlbDrop_memWf (s : State) (part : Nat) (p : TlbEntry → Bool) (h : s.memWf = true) : (State.tlbDrop s part p).memWf = true := by
  unfold State.tlbDrop
  repeat' split
  all_goals simp [h]

theorem execTlbinv_kept (s : State) (hs : s.memWf = true) : Kept (execTlbinv s) := by
  unfold execTlbinv
  refine issue_kept (fun q hq => ?_) hs
  repeat' split
  all_goals simp [hq]

theorem execTlbinvVa_kept (a : Code) (s : State) (hs : s.memWf = true) : Kept (execTlbinvVa a s) := by
  unfold execTlbinvVa
  refine issue_kept (fun q hq => ?_) hs
  repeat' split
  all_goals simp [hq]

theorem execSetmode_kept (l : Option Word) (m a : Code) (imm : BitVec 11) (s : State) (hs : s.memWf = true) : Kept (execSetmode l m a imm s) := by
  unfold execSetmode
  refine issue_kept (fun q hq => ?_) hs
  dsimp only
  repeat' split
  all_goals simp [hq]

theorem execGetmode_kept (d : Code) (s : State) (hs : s.memWf = true) : Kept (execGetmode d s) := by
  unfold execGetmode
  refine issueOk_kept (fun q hq => ?_) hs
  simp [hq]

@[simp] theorem Iss.arrive_kept (q : Iss) (n : Nat) (task : Bool) (keep : Nat → State) (h : ∀ c, (keep c).memWf = true) : KeptEff (q.arrive n task keep) := by
  unfold Iss.arrive
  repeat' split
  all_goals simp (maxDischargeDepth := 20) [h]

theorem execBar_kept (n : BitVec 4) (s : State) (hs : s.memWf = true) : Kept (execBar n s) := by
  unfold execBar
  refine issue_kept (fun q hq => ?_) hs
  simp [hq]

theorem execBarTask_kept (n : BitVec 4) (s : State) (hs : s.memWf = true) : Kept (execBarTask n s) := by
  unfold execBarTask
  refine issue_kept (fun q hq => ?_) hs
  simp [hq]

theorem execBara_kept (d : Code) (n : BitVec 4) (s : State) (hs : s.memWf = true) : Kept (execBara d n s) := by
  unfold execBara
  refine issue_kept (fun q hq => ?_) hs
  simp [hq]

@[simp] theorem Iss.waitOn_memWf (q : Iss) (w : Wait) (h : q.s.memWf = true) : (Iss.waitOn q w).memWf = true := by
  exact (State.memWf_congr rfl rfl).trans h

theorem execBarw_kept (l : Option Word) (a : Code) (n : BitVec 4) (s : State) (hs : s.memWf = true) : Kept (execBarw l a n s) := by
  unfold execBarw
  refine issueOk_kept (fun q hq => ?_) hs
  repeat' split
  all_goals simp [hq]

theorem execBarc_kept (l : Option Word) (a : Code) (n : BitVec 4) (s : State) (hs : s.memWf = true) : Kept (execBarc l a n s) := by
  unfold execBarc
  refine issue_kept (fun q hq => ?_) hs
  repeat' (split <;> (try dsimp only))
  all_goals simp +contextual (maxDischargeDepth := 20) [hq]

theorem execRole_kept (d : Code) (s : State) (hs : s.memWf = true) : Kept (execRole d s) := by
  unfold execRole
  refine issueOk_kept (fun q hq => ?_) hs
  simp [hq]

theorem execTeamid_kept (d : Code) (s : State) (hs : s.memWf = true) : Kept (execTeamid d s) := by
  unfold execTeamid
  refine issueOk_kept (fun q hq => ?_) hs
  simp [hq]

theorem execNteam_kept (d : Code) (s : State) (hs : s.memWf = true) : Kept (execNteam d s) := by
  unfold execNteam
  refine issueOk_kept (fun q hq => ?_) hs
  simp [hq]

theorem execGridid_kept (d : Code) (s : State) (hs : s.memWf = true) : Kept (execGridid d s) := by
  unfold execGridid
  refine issueOk_kept (fun q hq => ?_) hs
  simp [hq]

theorem execLclk_kept (d : Code) (h : BitVec 1) (s : State) (hs : s.memWf = true) : Kept (execLclk d h s) := by
  unfold execLclk
  refine issueOk_kept (fun q hq => ?_) hs
  simp [hq]

theorem execTaskend_kept (s : State) (hs : s.memWf = true) : Kept (execTaskend s) := by
  unfold execTaskend
  refine issue_kept (fun q hq => ?_) hs
  repeat' (split <;> (try dsimp only))
  all_goals simp +contextual (maxDischargeDepth := 20) [hq]

theorem execSafept_kept (s : State) (hs : s.memWf = true) : Kept (execSafept s) := by
  unfold execSafept
  refine issueOk_kept (fun q hq => ?_) hs
  simp [hq]

@[simp] theorem State.commitRecord_memWf (s : State) (r : LogRec) (h : s.memWf = true) : (State.commitRecord s r).memWf = true := by
  unfold State.commitRecord
  simp [h]

@[simp] theorem State.modCmd_memWf (s : State) (c : Nat) (f : Command → Command) (h : s.memWf = true) : (State.modCmd s c f).memWf = true := by
  exact (State.memWf_congr rfl rfl).trans h

@[simp] theorem State.finishCmd_memWf (s : State) (c code data : Nat) (h : s.memWf = true) : (State.finishCmd s c code data).memWf = true := by
  exact (State.memWf_congr rfl rfl).trans h

@[simp] theorem State.unpairIdle_memWf (s : State) (h : s.memWf = true) : (State.unpairIdle s).memWf = true := by
  exact (State.memWf_congr rfl rfl).trans h

@[simp] theorem State.leaveCore_memWf (s : State) (tid : Nat) (h : s.memWf = true) : (State.leaveCore s tid).memWf = true := by
  exact (State.memWf_congr rfl rfl).trans h

@[simp] theorem State.freeTeam_memWf (s : State) (tid : Nat) (h : s.memWf = true) : (State.freeTeam s tid).memWf = true := by
  unfold State.freeTeam
  repeat' (split <;> (try dsimp only))
  all_goals simp +contextual (maxDischargeDepth := 20) [h]

@[simp] theorem State.modGrid_memWf (s : State) (id : Nat) (f : Grid → Grid) (h : s.memWf = true) : (State.modGrid s id f).memWf = true := by
  exact (State.memWf_congr rfl rfl).trans h

@[simp] theorem State.completeGrid_memWf (s : State) (g : Grid) (h : s.memWf = true) : (State.completeGrid s g).memWf = true := by
  unfold State.completeGrid
  repeat' (split <;> (try dsimp only))
  all_goals simp +contextual (maxDischargeDepth := 20) [h]

@[simp] theorem State.killTeam_memWf (s : State) (tid : Nat) (h : s.memWf = true) : (State.killTeam s tid).memWf = true := by
  unfold State.killTeam
  repeat' (split <;> (try dsimp only))
  all_goals simp +contextual (maxDischargeDepth := 20) [h]

@[simp] theorem State.killGrid_memWf (s : State) (gid cls : Nat) (h : s.memWf = true) : (State.killGrid s gid cls).memWf = true := by
  unfold State.killGrid
  repeat' (split <;> (try dsimp only))
  all_goals simp +contextual (maxDischargeDepth := 20) [h]

@[simp] theorem State.countTeamEnd_memWf (s : State) (gid : Nat) (h : s.memWf = true) : (State.countTeamEnd s gid).memWf = true := by
  unfold State.countTeamEnd
  dsimp only
  repeat' split
  all_goals simp [h]

theorem execExitArrival_kept (tid gi fi : Nat) (s : State) (hs : s.memWf = true) : Kept (execExitArrival tid gi fi s) := by
  unfold execExitArrival
  repeat' split
  all_goals simp [hs]

theorem execFragmentAgeing_kept (tid gi fi : Nat) (s : State) (hs : s.memWf = true) : Kept (execFragmentAgeing tid gi fi s) := by
  unfold execFragmentAgeing
  repeat' split
  all_goals simp [hs]

theorem execHang_kept (tid gi : Nat) (s : State) (hs : s.memWf = true) : Kept (execHang tid gi s) := by
  unfold execHang
  repeat' (split <;> (try dsimp only))
  all_goals simp +contextual (maxDischargeDepth := 20) [hs]

theorem execInFlightFinish_kept (tid gi op : Nat) (lanes : Mask) (keepL1 : Bool) (s : State) (hs : s.memWf = true) : Kept (execInFlightFinish tid gi op lanes keepL1 s) := by
  unfold execInFlightFinish
  repeat' (split <;> (try dsimp only))
  all_goals simp +contextual (maxDischargeDepth := 20) [hs]

@[simp] theorem State.settleAll_memWf (s : State) (tid : Nat) (h : s.memWf = true) : (State.settleAll s tid).memWf = true := by
  unfold State.settleAll
  repeat' (split)
  all_goals simp +contextual (maxDischargeDepth := 20) [h]

theorem execReslice_kept (tid : Nat) (s : State) (hs : s.memWf = true) : Kept (execReslice tid s) := by
  unfold execReslice
  repeat' (split <;> (try dsimp only))
  all_goals simp +contextual (maxDischargeDepth := 20) [hs]

@[simp] theorem State.drainDeferred_memWf (s : State) (tid n : Nat) (h : s.memWf = true) : (s.drainDeferred tid n).memWf = true := by
  induction n generalizing s with
  | zero => exact h
  | succ n ih =>
    unfold State.drainDeferred
    dsimp only
    repeat' split
    all_goals first | exact h | exact ih _ (by simp [h])

@[simp] theorem State.commitTask_memWf (s : State) (tid : Nat) (h : s.memWf = true) : (State.commitTask s tid).memWf = true := by
  unfold State.commitTask
  repeat' split
  all_goals simp [h]

@[simp] theorem State.releaseBoundary_memWf (s : State) (tid : Nat) (b : Boundary) (h : s.memWf = true) : (s.releaseBoundary tid b).memWf = true := by
  cases b <;> simp (maxDischargeDepth := 20) [State.releaseBoundary, h]

theorem execTaskBoundary_kept (tid : Nat) (s : State) (hs : s.memWf = true) : Kept (execTaskBoundary tid s) := by
  unfold execTaskBoundary
  repeat' (split <;> (try dsimp only))
  all_goals simp +contextual (maxDischargeDepth := 20) [hs]

theorem execTeamEnd_kept (tid : Nat) (s : State) (hs : s.memWf = true) : Kept (execTeamEnd tid s) := by
  unfold execTeamEnd
  repeat' (split <;> (try dsimp only))
  all_goals simp +contextual (maxDischargeDepth := 20) [hs]

theorem execPageWalk_kept (core ctx va : Nat) (acc : AccessKind) (s : State) (hs : s.memWf = true) : Kept (execPageWalk core ctx va acc s) := by
  unfold execPageWalk
  repeat' split
  all_goals simp [hs]

@[simp] theorem State.stand_memWf (s : State) (tid c : Nat) (h : s.memWf = true) : (State.stand s tid c).memWf = true := by
  unfold State.stand
  dsimp only
  repeat' split
  all_goals simp [h]

theorem execTeamPlacement_kept (grid : Nat) (s : State) (hs : s.memWf = true) : Kept (execTeamPlacement grid s) := by
  unfold execTeamPlacement
  repeat' (split <;> (try dsimp only))
  all_goals simp +contextual (maxDischargeDepth := 20) [hs]

@[simp] theorem State.answerKept_memWf (s : State) (tid : Nat) (h : s.memWf = true) : (State.answerKept s tid).memWf = true := by
  unfold State.answerKept
  dsimp only
  repeat' split
  all_goals simp [h]

@[simp] theorem State.freshTeam_memWf (s : State) (tid : Nat) (h : s.memWf = true) : (State.freshTeam s tid).memWf = true := by
  exact (State.memWf_congr rfl rfl).trans h

@[simp] theorem State.dropReslice_memWf (s : State) (tid : Nat) (h : s.memWf = true) : (State.dropReslice s tid).memWf = true := by
  unfold State.dropReslice
  repeat' split
  all_goals simp [h]

@[simp] theorem State.standAgain_memWf (s : State) (tid c w : Nat) (h : s.memWf = true) : (State.standAgain s tid c w).memWf = true := by
  unfold State.standAgain
  dsimp only
  repeat' (split)
  all_goals simp +contextual (maxDischargeDepth := 20) [h]

theorem execTeamResume_kept (tid : Nat) (s : State) (hs : s.memWf = true) : Kept (execTeamResume tid s) := by
  unfold execTeamResume
  repeat' split
  all_goals simp [hs]

@[simp] theorem State.moveImage_memWf (s : State) (c : Nat) (h : s.memWf = true) : (State.moveImage s c).memWf = true := by
  unfold State.moveImage
  simp [h]

@[simp] theorem State.emptyImage_memWf (s : State) (c : Nat) (h : s.memWf = true) : (State.emptyImage s c).memWf = true := by
  unfold State.emptyImage
  simp [h]

@[simp] theorem State.makeImageRoom_memWf (s : State) (c tid : Nat) (h : Header) (w : Nat) (hs : s.memWf = true) :
    (s.makeImageRoom c tid h w).memWf = true := by
  unfold State.makeImageRoom
  split
  · exact hs
  · exact foldl_keeps (fun s => s.memWf = true) _ _ (fun s c h => s.emptyImage_memWf c h) s hs

@[simp] theorem State.modFn_memWf (s : State) (fn : Fn) (f : FnRegs → FnRegs) (h : s.memWf = true) : (State.modFn s fn f).memWf = true := by
  unfold State.modFn
  repeat' split
  all_goals simp [h]

@[simp] theorem State.signalVec_memWf (s : State) (fn : Fn) (vec : Nat) (h : s.memWf = true) : (State.signalVec s fn vec).memWf = true := by
  exact (State.memWf_congr rfl rfl).trans h

@[simp] theorem State.fnRead_memWf (s : State) (fn : Fn) (pa n : Nat) (h : s.memWf = true) : (State.fnRead s fn pa n).memWf = true := by
  unfold State.fnRead
  simp [h]

@[simp] theorem State.pushReport_memWf (s : State) (fn : Fn) (l : List Byte) (h : s.memWf = true) : (State.pushReport s fn l).memWf = true := by
  unfold State.pushReport
  simp [h]

theorem execTrapReport_kept (tid : Nat) (src : TrapSource) (s : State) (hs : s.memWf = true) : Kept (execTrapReport tid src s) := by
  unfold execTrapReport
  repeat' split
  all_goals simp [hs]

theorem execReportRingWrite_kept (fn : Fn) (s : State) (hs : s.memWf = true) : Kept (execReportRingWrite fn s) := by
  unfold execReportRingWrite
  dsimp only
  repeat' (split)
  all_goals simp +contextual (maxDischargeDepth := 20) [hs]

@[simp] theorem State.drainTeam_memWf (s : State) (tid : Nat) (h : s.memWf = true) : (State.drainTeam s tid).memWf = true := by
  unfold State.drainTeam
  simp [h]

@[simp] theorem State.rollBack_memWf (s : State) (tid : Nat) (h : s.memWf = true) : (State.rollBack s tid).memWf = true := by
  unfold State.rollBack
  dsimp only
  repeat' split
  all_goals simp [h]

@[simp] theorem State.fatalTask_memWf (s : State) (t : Team) (tr : Trap) (h : s.memWf = true) : (State.fatalTask s t tr).memWf = true := by
  unfold State.fatalTask
  simp [h]

theorem execTaskRollback_kept (tid : Nat) (s : State) (hs : s.memWf = true) : Kept (execTaskRollback tid s) := by
  unfold execTaskRollback
  repeat' (split <;> (try dsimp only))
  all_goals simp +contextual (maxDischargeDepth := 20) [hs]

@[simp] theorem State.withdraw_memWf (s : State) (tid : Nat) (h : s.memWf = true) : (State.withdraw s tid).memWf = true := by
  unfold State.withdraw
  repeat' split
  all_goals simp [h]

@[simp] theorem State.saveVictim_memWf (s : State) (room : Nat → Bool) (ctx : Nat → SavedContext) (tid : Nat) (h : s.memWf = true) : (State.saveVictim s room ctx tid).memWf = true := by
  unfold State.saveVictim
  repeat' (split <;> (try dsimp only))
  all_goals simp +contextual (maxDischargeDepth := 20) [h]

@[simp] theorem State.holdSlot_memWf (s : State) (j : Nat) (h : s.memWf = true) : (State.holdSlot s j).memWf = true := by
  exact (State.memWf_congr rfl rfl).trans h

@[simp] theorem State.grant_memWf (s : State) (tid grace : Nat) (h : s.memWf = true) : (State.grant s tid grace).memWf = true := by
  exact (State.memWf_congr rfl rfl).trans h

@[simp] theorem State.moveToSpare_memWf (s : State) (tid c w : Nat) (h : s.memWf = true) : (s.moveToSpare tid c w).memWf = true := by
  have hu : ∀ u : State, u.memWf = true → (match u.team? tid with
      | some t => u.unpairIdle.makeImageRoom c tid t.hdr w
      | none => u.unpairIdle).memWf = true := by
    intro u hu
    split <;> simp [hu]
  have hv := State.standAgain_memWf _ tid c w (hu ((s.leaveCore tid).modTeam tid (fun t => { t with place := .waiting, pairSlot := none })) (by simp [h]))
  unfold State.moveToSpare
  dsimp only
  split
  · exact State.grant_memWf _ _ _ hv
  · exact hv

@[simp] theorem State.mismatchRecord_memWf (s : State) (t : Team) (m : Mismatch) (n outcome : Nat) (h : s.memWf = true) : (State.mismatchRecord s t m n outcome).memWf = true := by
  unfold State.mismatchRecord
  simp [h]

@[simp] theorem State.fatalMismatch_memWf (s : State) (t : Team) (m : Mismatch) (n : Nat) (h : s.memWf = true) : (State.fatalMismatch s t m n).memWf = true := by
  unfold State.fatalMismatch
  simp [h]

@[simp] theorem State.moveOrEnd_memWf (s : State) (t : Team) (m : Mismatch) (h : s.memWf = true) : (State.moveOrEnd s t m).memWf = true := by
  unfold State.moveOrEnd
  dsimp only
  repeat' (split)
  all_goals simp +contextual (maxDischargeDepth := 20) [h]

@[simp] theorem State.leaveSlot_memWf (s : State) (j tid : Nat) (h : s.memWf = true) : (s.leaveSlot j tid).memWf = true := by
  unfold State.leaveSlot
  refine State.holdSlot_memWf _ _ (State.unpairIdle_memWf _ (foldl_keeps (fun s => s.memWf = true) _ _ (fun s x h => by simp [h]) _
    (foldl_keeps (fun s => s.memWf = true) _ _ (fun s x h => ?_) s h)))
  split <;> simp [h]

theorem execTelltaleMismatch_kept (tid : Nat) (m : Mismatch) (s : State) (hs : s.memWf = true) : Kept (execTelltaleMismatch tid m s) := by
  unfold execTelltaleMismatch
  repeat' (split <;> (try dsimp only))
  all_goals simp +contextual (maxDischargeDepth := 20) [hs]

@[simp] theorem State.setTail_memWf (s : State) (ten : Nat) (o : CardOwner) (n : Nat) (h : s.memWf = true) : (State.setTail s ten o n).memWf = true := by
  unfold State.setTail
  repeat' split
  all_goals simp [h]

@[simp] theorem State.acceptCard_memWf (s : State) (p : Publication) (w : List Word) (h : s.memWf = true) : (State.acceptCard s p w).memWf = true := by
  unfold State.acceptCard
  simp [h]

@[simp] theorem State.endEtail_memWf (s : State) (pub : Nat) (h : s.memWf = true) : (State.endEtail s pub).memWf = true := by
  exact (State.memWf_congr rfl rfl).trans h

@[simp] theorem State.trapEtail_memWf (s : State) (pub : Nat) (tr : Trap) (h : s.memWf = true) : (State.trapEtail s pub tr).memWf = true := by
  unfold State.trapEtail
  repeat' split
  all_goals simp [h]

@[simp] theorem State.pubCards_memWf (s : State) (p : Publication) (h : s.memWf = true) : (State.pubCards s p).1.memWf = true := by
  unfold State.pubCards
  repeat' split
  all_goals simp [h]

theorem execCardAcceptance_kept (s : State) (hs : s.memWf = true) : Kept (execCardAcceptance s) := by
  unfold execCardAcceptance
  repeat' (split <;> (try dsimp only))
  all_goals simp +contextual (maxDischargeDepth := 20) [hs]

@[simp] theorem State.modCard_memWf (s : State) (id : Nat) (f : Card → Card) (h : s.memWf = true) : (State.modCard s id f).memWf = true := by
  exact (State.memWf_congr rfl rfl).trans h

theorem execCardDispatch_kept (s : State) (hs : s.memWf = true) : Kept (execCardDispatch s) := by
  unfold execCardDispatch
  repeat' split
  all_goals simp [hs]

@[simp] theorem State.engPa_memWf (s : State) (c : Card) (write : Bool) (va : Nat) (h : s.memWf = true) : (State.engPa s c write va).1.memWf = true := by
  unfold State.engPa
  repeat' (split <;> (try obtain rfl := congrArg Prod.fst ‹_ = ((_ : State), _)›) <;> (try dsimp only))
  all_goals simp +contextual (maxDischargeDepth := 20) [h]

@[simp] theorem State.engRead_memWf (s : State) (c : Card) (l : List (Nat × Nat)) (h : s.memWf = true) : (s.engRead c l).1.memWf = true := by
  induction l generalizing s with
  | nil => exact h
  | cons x rest ih =>
    unfold State.engRead
    repeat' (split <;> (try obtain rfl := congrArg Prod.fst ‹_ = ((_ : State), _)›) <;> (try dsimp only))
    all_goals simp (maxDischargeDepth := 20) [h, ih]

@[simp] theorem State.engPlaces_memWf (s : State) (c : Card) (l : List (Nat × Nat)) (h : s.memWf = true) : (s.engPlaces c l).1.memWf = true := by
  induction l generalizing s with
  | nil => exact h
  | cons x rest ih =>
    unfold State.engPlaces
    repeat' (split <;> (try obtain rfl := congrArg Prod.fst ‹_ = ((_ : State), _)›) <;> (try dsimp only))
    all_goals simp (maxDischargeDepth := 20) [h, ih]

theorem State.matchSend_kept (s : State) (c : Card) (port : Nat) (h : s.memWf = true) : KeptWork (s.matchSend c port) := by
  unfold State.matchSend
  dsimp only
  repeat' split
  all_goals simp [h]

theorem State.readIndices_kept (s : State) (c : Card) (h : s.memWf = true) : KeptWork (s.readIndices c) := by
  unfold State.readIndices
  dsimp only
  repeat' (split <;> (try obtain rfl := congrArg Prod.fst ‹_ = ((_ : State), _)›))
  all_goals simp (maxDischargeDepth := 20) [h]

theorem State.makePiece_kept (s : State) (c : Card) (h : s.memWf = true) : KeptWork (s.makePiece c) := by
  unfold State.makePiece
  dsimp only
  split <;> obtain rfl := congrArg Prod.fst ‹_ = ((_ : State), _)›
  · simp [h]
  · split <;> obtain rfl := congrArg Prod.fst ‹_ = ((_ : State), _)› <;> simp (maxDischargeDepth := 20) [h]

theorem State.engineStep_kept (s : State) (c : Card) (engine : Nat) (h : s.memWf = true) : KeptWork (s.engineStep c engine) := by
  unfold State.engineStep
  dsimp only
  repeat' split
  all_goals simp [h, s.matchSend_kept c engine h, s.readIndices_kept c h, s.makePiece_kept c h]

theorem State.engineRun_kept (n : Nat) (s : State) (card engine : Nat) (h : s.memWf = true) : KeptWork (State.engineRun n s card engine) := by
  induction n generalizing s with
  | zero => trivial
  | succ n ih =>
    unfold State.engineRun
    split
    · trivial
    · rename_i c _
      have hk := s.engineStep_kept c engine h
      generalize s.engineStep c engine = w at hk ⊢
      cases w with
      | going s => exact ih s hk
      | _ => exact hk

@[simp] theorem State.putSeq_memWf (s : State) (ten : Nat) (o : CardOwner) (h : s.memWf = true) : (State.putSeq s ten o).memWf = true := by
  unfold State.putSeq
  repeat' split
  all_goals simp [h]

@[simp] theorem State.completeCard_memWf (s : State) (c : Card) (code : Nat) (h : s.memWf = true) : (State.completeCard s c code).memWf = true := by
  unfold State.completeCard
  repeat' (split <;> (try dsimp only))
  all_goals simp +contextual (maxDischargeDepth := 20) [h]

@[simp] theorem State.noteFailure_memWf (s : State) (o : CardOwner) (ten pos code : Nat) (h : s.memWf = true) : (State.noteFailure s o ten pos code).memWf = true := by
  unfold State.noteFailure
  repeat' (split <;> (try dsimp only))
  all_goals simp +contextual (maxDischargeDepth := 20) [h]

@[simp] theorem State.failCard_memWf (s : State) (c : Card) (code : Nat) (h : s.memWf = true) : (State.failCard s c code).memWf = true := by
  unfold State.failCard
  simp [h]

@[simp] theorem State.cardError_memWf (s : State) (c : Card) (e : CardErr) (h : s.memWf = true) : (State.cardError s c e).memWf = true := by
  unfold State.cardError
  repeat' split
  all_goals simp [h]

theorem Work.outcome_kept {w : Work} (c : Card) (h : KeptWork w) : KeptOpt (w.outcome c) := by
  cases w <;> simp_all [Work.outcome]

theorem State.enginePiece_kept (s : State) (card : Nat) (h : s.memWf = true) : KeptOpt (s.enginePiece card) := by
  intro t ht
  obtain ⟨c, _, ht⟩ := Option.bind_eq_some_iff.1 ht
  obtain ⟨e, _, ht⟩ := Option.bind_eq_some_iff.1 ht
  exact Work.outcome_kept c (s.engineStep_kept c e h) t ht

theorem execCardCompletion_kept (card : Nat) (s : State) (hs : s.memWf = true) : Kept (execCardCompletion card s) := by
  unfold execCardCompletion
  split
  · simp
  · rename_i c _
    split
    · split <;> simp [hs]
    · split
      · rename_i u hu
        obtain ⟨e, _, hu⟩ := Option.bind_eq_some_iff.1 hu
        exact (kept_next _).2 (Work.outcome_kept c (State.engineRun_kept _ s card e hs) u hu)
      · simp

@[simp] theorem State.modPort_memWf (s : State) (q : Nat) (f : QuayPort → QuayPort) (h : s.memWf = true) : (State.modPort s q f).memWf = true := by
  exact (State.memWf_congr rfl rfl).trans h

theorem execQuaySendArrival_kept (port tag : Nat) (bytes : List Byte) (s : State) (hs : s.memWf = true) : Kept (execQuaySendArrival port tag bytes s) := by
  unfold execQuaySendArrival
  repeat' split
  all_goals simp [hs]

@[simp] theorem State.quayTaken_memWf (s : State) (port tag len : Nat) (h : s.memWf = true) : (State.quayTaken s port tag len).memWf = true := by
  unfold State.quayTaken
  repeat' split
  all_goals simp [h]

theorem execQuayLinkDown_kept (port : Nat) (s : State) (hs : s.memWf = true) : Kept (execQuayLinkDown port s) := by
  unfold execQuayLinkDown
  repeat' (split <;> (try dsimp only))
  all_goals simp +contextual (maxDischargeDepth := 20) [hs]

theorem execQuayLinkUp_kept (port : Nat) (s : State) (hs : s.memWf = true) : Kept (execQuayLinkUp port s) := by
  unfold execQuayLinkUp
  repeat' split
  all_goals simp [hs]

@[simp] theorem State.acceptRecord_memWf (s : State) (fn : Fn) (q part : Nat) (c : Qcb) (w : List Word) (h : s.memWf = true) :
    (s.acceptRecord fn q part c w).memWf = true := by
  unfold State.acceptRecord
  refine State.fnWrite_memWf _ _ _ _ _ ?_
  cases State.recordPa _ fn c <;> simp [h]

@[simp] theorem State.modBerth_memWf (s : State) (b : Nat) (f : Berth → Berth) (h : s.memWf = true) : (State.modBerth s b f).memWf = true := by
  exact (State.memWf_congr rfl rfl).trans h

@[simp] theorem State.clearPending_memWf (s : State) (fn : Fn) (q : Nat) (h : s.memWf = true) : (State.clearPending s fn q).memWf = true := by
  unfold State.clearPending
  simp [h]

theorem execCommandAcceptance_kept (src : CmdSource) (s : State) (hs : s.memWf = true) : Kept (execCommandAcceptance src s) := by
  unfold execCommandAcceptance
  repeat' (split <;> (try dsimp only))
  all_goals simp +contextual (maxDischargeDepth := 20) [hs]

@[simp] theorem State.putPassed_memWf (s : State) (fn : Fn) (c : Qcb) (n : Nat) (h : s.memWf = true) : (State.putPassed s fn c n).memWf = true := by
  unfold State.putPassed
  simp [h]

theorem execBerthDecision_kept (b : Nat) (s : State) (hs : s.memWf = true) : Kept (execBerthDecision b s) := by
  unfold execBerthDecision
  split
  · split
    · simp [hs]
    · dsimp only
      split
      · simp
      · have hf : ∀ (fn : Fn) (l : List Nat), (l.foldl (fun s q => s.clearPending fn q) s).memWf = true := fun fn l =>
          foldl_keeps (fun s => s.memWf = true) _ _ (fun s q h => s.clearPending_memWf fn q h) s hs
        split
        · exact (kept_next _).2 (hf _ _)
        · exact (kept_next _).2 (hf _ _)
        · exact (kept_next _).2 (State.clearPending_memWf _ _ _ (State.modBerth_memWf _ _ _
            (foldl_keeps (fun s => s.memWf = true) _ _ (fun s x h => s.putPassed_memWf _ _ _ h) _ (hf _ _))))
  · simp

@[simp] theorem State.fnStore_memWf (s : State) (fn : Fn) (a n x : Nat) (h : s.memWf = true) : (State.fnStore s fn a n x).memWf = true := by
  unfold State.fnStore
  dsimp only
  repeat' split
  all_goals simp [h]

theorem execCommandCompletion_kept (cmd : Nat) (s : State) (hs : s.memWf = true) : Kept (execCommandCompletion cmd s) := by
  unfold execCommandCompletion
  repeat' (split <;> (try dsimp only))
  all_goals simp +contextual (maxDischargeDepth := 20) [hs]

@[simp] theorem State.readPieces_memWf (s : State) (ten ctx : Nat) (l : List (Nat × Nat)) (h : s.memWf = true) :
    (s.readPieces ten ctx l).1.memWf = true := by
  induction l generalizing s with
  | nil => exact h
  | cons x rest ih =>
    unfold State.readPieces
    repeat' (split <;> (try obtain rfl := congrArg Prod.fst ‹_ = ((_ : State), _)›) <;> (try dsimp only))
    all_goals simp (maxDischargeDepth := 20) [h, ih]

@[simp] theorem State.readVa_memWf (s : State) (ten ctx va n : Nat) (h : s.memWf = true) : (State.readVa s ten ctx va n).1.memWf = true := by
  unfold State.readVa
  simp [h]

@[simp] theorem State.launchAt_memWf (s : State) (ten part ctx va : Nat) (sys : Bool) (command : Option Nat) (node : Option (Nat × Nat)) (h : s.memWf = true) : (State.launchAt s ten part ctx va sys command node).1.memWf = true := by
  unfold State.launchAt
  repeat' (split <;> (try obtain rfl := congrArg Prod.fst ‹_ = ((_ : State), _)›) <;> (try dsimp only))
  all_goals simp +contextual (maxDischargeDepth := 20) [h]

@[simp] theorem State.runLaunch_memWf (s : State) (c : Command) (sys : Bool) (h : s.memWf = true) : (State.runLaunch s c sys).memWf = true := by
  unfold State.runLaunch
  repeat' (split <;> (try obtain rfl := congrArg Prod.fst ‹_ = ((_ : State), _)›))
  all_goals simp +contextual (maxDischargeDepth := 20) [h]

theorem execLaunch_kept (cmd : Nat) (s : State) (hs : s.memWf = true) : Kept (execLaunch cmd s) := by
  unfold execLaunch
  repeat' split
  all_goals simp [hs]

theorem execSyslaunch_kept (cmd : Nat) (s : State) (hs : s.memWf = true) : Kept (execSyslaunch cmd s) := by
  unfold execSyslaunch
  repeat' split
  all_goals simp [hs]

theorem execGrload_kept (cmd : Nat) (s : State) (hs : s.memWf = true) : Kept (execGrload cmd s) := by
  unfold execGrload
  repeat' (split <;> (try obtain rfl := congrArg Prod.fst ‹_ = ((_ : State), _)›) <;> (try dsimp only))
  all_goals simp +contextual (maxDischargeDepth := 20) [hs]

theorem execGrstart_kept (cmd : Nat) (s : State) (hs : s.memWf = true) : Kept (execGrstart cmd s) := by
  unfold execGrstart
  repeat' (split <;> (try dsimp only))
  all_goals simp +contextual (maxDischargeDepth := 20) [hs]

theorem execGraphStart_kept (part : Nat) (s : State) (hs : s.memWf = true) : Kept (execGraphStart part s) := by
  unfold execGraphStart
  repeat' split
  all_goals simp [hs]

@[simp] theorem State.nodeCard_memWf (s : State) (p : Partition) (ctx addr : Nat) (h : s.memWf = true) : (State.nodeCard s p ctx addr).1.memWf = true := by
  unfold State.nodeCard
  repeat' (split <;> (try obtain rfl := congrArg Prod.fst ‹_ = ((_ : State), _)›) <;> (try dsimp only))
  all_goals simp +contextual (maxDischargeDepth := 20) [h]

theorem execGraphNode_kept (part : Nat) (s : State) (hs : s.memWf = true) : Kept (execGraphNode part s) := by
  unfold execGraphNode
  repeat' (split <;> (try obtain rfl := congrArg Prod.fst ‹_ = ((_ : State), _)›) <;> (try dsimp only))
  all_goals simp +contextual (maxDischargeDepth := 20) [hs]

theorem execCopy_kept (cmd : Nat) (s : State) (hs : s.memWf = true) : Kept (execCopy cmd s) := by
  unfold execCopy
  repeat' (split <;> (try dsimp only))
  all_goals simp +contextual (maxDischargeDepth := 20) [hs]

theorem execCtxnew_kept (cmd : Nat) (s : State) (hs : s.memWf = true) : Kept (execCtxnew cmd s) := by
  unfold execCtxnew
  repeat' (split <;> (try dsimp only))
  all_goals simp +contextual (maxDischargeDepth := 20) [hs]

@[simp] theorem State.tlbDropAll_memWf (s : State) (p : TlbEntry → Bool) (h : s.memWf = true) : (State.tlbDropAll s p).memWf = true := by
  exact (State.memWf_congr rfl rfl).trans h

@[simp] theorem State.dropCode_memWf (s : State) (n : Nat) (h : s.memWf = true) : (State.dropCode s n).memWf = true := by
  exact (State.memWf_congr rfl rfl).trans h

theorem execCtxdel_kept (cmd : Nat) (s : State) (hs : s.memWf = true) : Kept (execCtxdel cmd s) := by
  unfold execCtxdel
  repeat' (split <;> (try dsimp only))
  all_goals simp +contextual (maxDischargeDepth := 20) [hs]

@[simp] theorem State.modCtx_memWf (s : State) (n : Nat) (f : Context → Context) (h : s.memWf = true) : (State.modCtx s n f).memWf = true := by
  exact (State.memWf_congr rfl rfl).trans h

theorem execMapcode_kept (cmd : Nat) (s : State) (hs : s.memWf = true) : Kept (execMapcode cmd s) := by
  unfold execMapcode
  repeat' (split <;> (try dsimp only))
  all_goals simp +contextual (maxDischargeDepth := 20) [hs]

theorem execTlbinvCommand_kept (cmd : Nat) (s : State) (hs : s.memWf = true) : Kept (execTlbinvCommand cmd s) := by
  unfold execTlbinvCommand
  repeat' (split <;> (try dsimp only))
  all_goals simp +contextual (maxDischargeDepth := 20) [hs]

theorem execS2inv_kept (cmd : Nat) (s : State) (hs : s.memWf = true) : Kept (execS2inv cmd s) := by
  unfold execS2inv
  repeat' (split <;> (try dsimp only))
  all_goals simp +contextual (maxDischargeDepth := 20) [hs]

theorem execDebugCommand_kept (cmd : Nat) (s : State) (hs : s.memWf = true) : Kept (execDebugCommand cmd s) := by
  unfold execDebugCommand
  repeat' (split <;> (try dsimp only))
  all_goals simp +contextual (maxDischargeDepth := 20) [hs]

theorem execSignal_kept (cmd : Nat) (s : State) (hs : s.memWf = true) : Kept (execSignal cmd s) := by
  unfold execSignal
  repeat' split
  all_goals simp [hs]

theorem execDebuggerAttach_kept (ctx : Nat) (attached : Bool) (s : State) (hs : s.memWf = true) : Kept (execDebuggerAttach ctx attached s) := by
  unfold execDebuggerAttach
  repeat' split
  all_goals simp [hs]

@[simp] theorem State.keepAnswer_memWf (s : State) (t : Team) (tr : Trap) (a : Nat) (h : s.memWf = true) : (State.keepAnswer s t tr a).memWf = true := by
  exact (State.memWf_congr rfl rfl).trans h

@[simp] theorem State.resumeTrap_memWf (s : State) (c : Command) (retry s2 : Bool) (h : s.memWf = true) : (State.resumeTrap s c retry s2).memWf = true := by
  unfold State.resumeTrap
  repeat' split
  all_goals simp [h]

@[simp] theorem State.resumeKill_memWf (s : State) (c : Command) (s2 : Bool) (h : s.memWf = true) : (State.resumeKill s c s2).memWf = true := by
  unfold State.resumeKill
  repeat' split
  all_goals simp [h]

theorem execResumeRetry_kept (cmd : Nat) (s : State) (hs : s.memWf = true) : Kept (execResumeRetry cmd s) := by
  unfold execResumeRetry
  repeat' split
  all_goals simp [hs]

theorem execResumeSkip_kept (cmd : Nat) (s : State) (hs : s.memWf = true) : Kept (execResumeSkip cmd s) := by
  unfold execResumeSkip
  repeat' split
  all_goals simp [hs]

theorem execResumeKill_kept (cmd : Nat) (s : State) (hs : s.memWf = true) : Kept (execResumeKill cmd s) := by
  unfold execResumeKill
  repeat' split
  all_goals simp [hs]

theorem execS2resumeRetry_kept (cmd : Nat) (s : State) (hs : s.memWf = true) : Kept (execS2resumeRetry cmd s) := by
  unfold execS2resumeRetry
  repeat' split
  all_goals simp [hs]

theorem execS2resumeSkip_kept (cmd : Nat) (s : State) (hs : s.memWf = true) : Kept (execS2resumeSkip cmd s) := by
  unfold execS2resumeSkip
  repeat' split
  all_goals simp [hs]

theorem execS2resumeKill_kept (cmd : Nat) (s : State) (hs : s.memWf = true) : Kept (execS2resumeKill cmd s) := by
  unfold execS2resumeKill
  repeat' split
  all_goals simp [hs]

theorem execIadd_kept (x : Ext) (d a b : Code) (s : State) (hs : s.memWf = true) : Kept (execIadd x d a b s) := by
  unfold execIadd
  refine issueOk_kept (fun q hq => ?_) hs
  simp [hq]

theorem execIsub_kept (x : Ext) (d a b : Code) (s : State) (hs : s.memWf = true) : Kept (execIsub x d a b s) := by
  unfold execIsub
  refine issueOk_kept (fun q hq => ?_) hs
  simp [hq]

theorem execImul_kept (x : Ext) (d a b : Code) (s : State) (hs : s.memWf = true) : Kept (execImul x d a b s) := by
  unfold execImul
  refine issueOk_kept (fun q hq => ?_) hs
  simp [hq]

theorem execImulh_kept (x : Ext) (d a b : Code) (s : State) (hs : s.memWf = true) : Kept (execImulh x d a b s) := by
  unfold execImulh
  refine issueOk_kept (fun q hq => ?_) hs
  simp [hq]

theorem execImad_kept (x : Ext) (d a b : Code) (s : State) (hs : s.memWf = true) : Kept (execImad x d a b s) := by
  unfold execImad
  refine issueOk_kept (fun q hq => ?_) hs
  simp [hq]

theorem execImadw_kept (x : Ext) (d a b : Code) (s : State) (hs : s.memWf = true) : Kept (execImadw x d a b s) := by
  unfold execImadw
  refine issue_kept (fun q hq => ?_) hs
  repeat' split
  all_goals simp [hq]

theorem execIneg_kept (x : Ext) (d a : Code) (s : State) (hs : s.memWf = true) : Kept (execIneg x d a s) := by
  unfold execIneg
  refine issueOk_kept (fun q hq => ?_) hs
  simp [hq]

theorem execIabs_kept (x : Ext) (d a : Code) (s : State) (hs : s.memWf = true) : Kept (execIabs x d a s) := by
  unfold execIabs
  refine issueOk_kept (fun q hq => ?_) hs
  simp [hq]

theorem execImin_kept (x : Ext) (d a b : Code) (s : State) (hs : s.memWf = true) : Kept (execImin x d a b s) := by
  unfold execImin
  refine issueOk_kept (fun q hq => ?_) hs
  simp [hq]

theorem execImax_kept (x : Ext) (d a b : Code) (s : State) (hs : s.memWf = true) : Kept (execImax x d a b s) := by
  unfold execImax
  refine issueOk_kept (fun q hq => ?_) hs
  simp [hq]

theorem execIsel_kept (x : Ext) (d a b : Code) (s : State) (hs : s.memWf = true) : Kept (execIsel x d a b s) := by
  unfold execIsel
  refine issueOk_kept (fun q hq => ?_) hs
  simp [hq]

theorem execSad_kept (x : Ext) (d a b : Code) (s : State) (hs : s.memWf = true) : Kept (execSad x d a b s) := by
  unfold execSad
  refine issueOk_kept (fun q hq => ?_) hs
  simp [hq]

theorem execDot4_kept (x : Ext) (d a b : Code) (s : State) (hs : s.memWf = true) : Kept (execDot4 x d a b s) := by
  unfold execDot4
  refine issue_kept (fun q hq => ?_) hs
  repeat' split
  all_goals simp [hq]

theorem execLea_kept (x : Ext) (d a b : Code) (s : State) (hs : s.memWf = true) : Kept (execLea x d a b s) := by
  unfold execLea
  refine issueOk_kept (fun q hq => ?_) hs
  simp [hq]

theorem execAadd_kept (x : Ext) (d a b : Code) (s : State) (hs : s.memWf = true) : Kept (execAadd x d a b s) := by
  unfold execAadd
  refine issueOk_kept (fun q hq => ?_) hs
  simp [hq]

theorem execIcmp_kept (x : Ext) (c : BitVec 4) (d a b : Code) (s : State) (hs : s.memWf = true) : Kept (execIcmp x c d a b s) := by
  unfold execIcmp
  refine issueOk_kept (fun q hq => ?_) hs
  simp [hq]

theorem execAnd_kept (x : Ext) (d a b : Code) (s : State) (hs : s.memWf = true) : Kept (execAnd x d a b s) := by
  unfold execAnd
  refine issueOk_kept (fun q hq => ?_) hs
  simp [hq]

theorem execOr_kept (x : Ext) (d a b : Code) (s : State) (hs : s.memWf = true) : Kept (execOr x d a b s) := by
  unfold execOr
  refine issueOk_kept (fun q hq => ?_) hs
  simp [hq]

theorem execXor_kept (x : Ext) (d a b : Code) (s : State) (hs : s.memWf = true) : Kept (execXor x d a b s) := by
  unfold execXor
  refine issueOk_kept (fun q hq => ?_) hs
  simp [hq]

theorem execNot_kept (x : Ext) (d a : Code) (s : State) (hs : s.memWf = true) : Kept (execNot x d a s) := by
  unfold execNot
  refine issueOk_kept (fun q hq => ?_) hs
  simp [hq]

theorem execAndn_kept (x : Ext) (d a b : Code) (s : State) (hs : s.memWf = true) : Kept (execAndn x d a b s) := by
  unfold execAndn
  refine issueOk_kept (fun q hq => ?_) hs
  simp [hq]

theorem execShl_kept (x : Ext) (d a b : Code) (s : State) (hs : s.memWf = true) : Kept (execShl x d a b s) := by
  unfold execShl
  refine issueOk_kept (fun q hq => ?_) hs
  simp [hq]

theorem execShr_kept (x : Ext) (d a b : Code) (s : State) (hs : s.memWf = true) : Kept (execShr x d a b s) := by
  unfold execShr
  refine issueOk_kept (fun q hq => ?_) hs
  simp [hq]

theorem execSar_kept (x : Ext) (d a b : Code) (s : State) (hs : s.memWf = true) : Kept (execSar x d a b s) := by
  unfold execSar
  refine issueOk_kept (fun q hq => ?_) hs
  simp [hq]

theorem execRol_kept (x : Ext) (d a b : Code) (s : State) (hs : s.memWf = true) : Kept (execRol x d a b s) := by
  unfold execRol
  refine issueOk_kept (fun q hq => ?_) hs
  simp [hq]

theorem execShf_kept (x : Ext) (d a b : Code) (s : State) (hs : s.memWf = true) : Kept (execShf x d a b s) := by
  unfold execShf
  refine issueOk_kept (fun q hq => ?_) hs
  simp [hq]

theorem execPopc_kept (x : Ext) (d a : Code) (s : State) (hs : s.memWf = true) : Kept (execPopc x d a s) := by
  unfold execPopc
  refine issueOk_kept (fun q hq => ?_) hs
  simp [hq]

theorem execClz_kept (x : Ext) (d a : Code) (s : State) (hs : s.memWf = true) : Kept (execClz x d a s) := by
  unfold execClz
  refine issueOk_kept (fun q hq => ?_) hs
  simp [hq]

theorem execCtz_kept (x : Ext) (d a : Code) (s : State) (hs : s.memWf = true) : Kept (execCtz x d a s) := by
  unfold execCtz
  refine issueOk_kept (fun q hq => ?_) hs
  simp [hq]

theorem execBrev_kept (x : Ext) (d a : Code) (s : State) (hs : s.memWf = true) : Kept (execBrev x d a s) := by
  unfold execBrev
  refine issueOk_kept (fun q hq => ?_) hs
  simp [hq]

theorem execBfe_kept (x : Ext) (d a b : Code) (s : State) (hs : s.memWf = true) : Kept (execBfe x d a b s) := by
  unfold execBfe
  refine issueOk_kept (fun q hq => ?_) hs
  simp [hq]

theorem execBfi_kept (x : Ext) (d a b : Code) (s : State) (hs : s.memWf = true) : Kept (execBfi x d a b s) := by
  unfold execBfi
  refine issueOk_kept (fun q hq => ?_) hs
  simp [hq]

theorem execBytesel_kept (x : Ext) (d a b : Code) (s : State) (hs : s.memWf = true) : Kept (execBytesel x d a b s) := by
  unfold execBytesel
  refine issueOk_kept (fun q hq => ?_) hs
  simp [hq]

theorem execMov_kept (x : Ext) (d a : Code) (s : State) (hs : s.memWf = true) : Kept (execMov x d a s) := by
  unfold execMov
  refine issueOk_kept (fun q hq => ?_) hs
  simp [hq]

theorem execS2v_kept (d a : Code) (s : State) (hs : s.memWf = true) : Kept (execS2v d a s) := by
  unfold execS2v
  refine issueOk_kept (fun q hq => ?_) hs
  simp [hq]

theorem execV2s_kept (l : Option Word) (d a : Code) (s : State) (hs : s.memWf = true) : Kept (execV2s l d a s) := by
  unfold execV2s
  refine issueOk_kept (fun q hq => ?_) hs
  repeat' split
  all_goals simp [hq]

theorem execMovi_kept (p : Option Pfx) (d sh : Code) (imm : BitVec 11) (s : State) (hs : s.memWf = true) : Kept (execMovi p d sh imm s) := by
  unfold execMovi
  refine issueOk_kept (fun q hq => ?_) hs
  simp [hq]

@[simp] theorem Iss.juryrig_kept (q : Iss) (h : q.s.memWf = true) : KeptEff q.juryrig := by
  unfold Iss.juryrig
  repeat' split
  all_goals simp [h]

theorem issueFate_kept {i : Instr} {major : Nat} {eff : Iss → Eff} {s : State} (he : ∀ q : Iss, q.s.memWf = true → KeptEff (eff q))
    (h : s.memWf = true) : Kept (issueFate i major eff s) := by
  unfold issueFate
  split
  · exact issue_kept he h
  · exact issueWith_kept (fun q hq => q.accountFate_memWf hq) (fun q hq => q.juryrig_kept hq) h

theorem execIdiv_kept (x : Ext) (d a b : Code) (s : State) (hs : s.memWf = true) : Kept (execIdiv x d a b s) := by
  unfold execIdiv
  refine issueFate_kept (fun q hq => ?_) hs
  simp [hq]

theorem execIrem_kept (x : Ext) (d a b : Code) (s : State) (hs : s.memWf = true) : Kept (execIrem x d a b s) := by
  unfold execIrem
  refine issueFate_kept (fun q hq => ?_) hs
  simp [hq]

theorem SIss.juryrig_kept (q : SIss) (hq : q.s.memWf = true) : KeptSEff q.juryrig := by
  unfold SIss.juryrig
  dsimp only
  repeat' split
  all_goals simp (maxDischargeDepth := 20) [hq]

theorem execJuryrig_kept (w : RawWord) (s : State) (hs : s.memWf = true) : Kept (execJuryrig w s) := by
  cases w with
  | group p m l =>
    unfold execJuryrig
    exact issueForm_kept (fun q hq => q.accountFate_memWf hq) (fun q hq => q.juryrig_kept hq) hs
  | stream w => exact streamWord_kept (fun q hq => q.juryrig_kept hq) hs

theorem execIllegal_kept (w : RawWord) (s : State) (hs : s.memWf = true) : Kept (execIllegal w s) := by
  cases w with
  | group p m l =>
    unfold execIllegal
    exact issueForm_kept (fun q hq => q.account_memWf hq) (fun q hq => (keptEff_ok _).2 hq) hs
  | stream w =>
    unfold execIllegal
    exact streamWord_kept (fun q hq => (keptSEff_trap _).2 trivial) hs

@[simp] theorem State.vendor_memWf (s : State) (tid : Nat) (h : s.memWf = true) : (State.vendor s tid).memWf = true := by
  unfold State.vendor
  repeat' split
  all_goals simp [h]

theorem execVendorTest_kept (w : RawWord) (s : State) (hs : s.memWf = true) : Kept (execVendorTest w s) := by
  cases w with
  | group p m l =>
    unfold execVendorTest
    exact issueForm_kept (fun q hq => q.account_memWf hq) (fun q hq => (keptEff_ok _).2 (State.vendor_memWf _ _ hq)) hs
  | stream w =>
    unfold execVendorTest
    refine streamWord_kept (fun q hq => ?_) hs
    split
    · exact State.vendor_memWf _ _ hq
    · trivial

@[simp] theorem Iss.floatRes_kept (q : Iss) (n cnt : Nat) (words : Nat → List Nat → List Word) (f : Nat → Nat → ElemRes) (h : q.s.memWf = true) :
    KeptEff (q.floatRes n cnt words f) := by
  unfold Iss.floatRes
  dsimp only
  split <;> simp [h]

@[simp] theorem Iss.floatOp_kept (q : Iss) (f : Nat → Nat → ElemRes) (h : q.s.memWf = true) : KeptEff (q.floatOp f) := by
  unfold Iss.floatOp
  split
  · exact q.floatRes_kept _ _ _ _ h
  · trivial

@[simp] theorem Iss.farith_kept (q : Iss) (op : RCtx → FVal → FVal → Nat × Nat) (h : q.s.memWf = true) : KeptEff (q.farith op) := q.floatOp_kept _ h

theorem execFadd_kept (x : Ext) (d a b : Code) (s : State) (hs : s.memWf = true) : Kept (execFadd x d a b s) := by
  unfold execFadd
  refine issue_kept (fun q hq => ?_) hs
  simp [hq]

theorem execFsub_kept (x : Ext) (d a b : Code) (s : State) (hs : s.memWf = true) : Kept (execFsub x d a b s) := by
  unfold execFsub
  refine issue_kept (fun q hq => ?_) hs
  simp [hq]

theorem execFmul_kept (x : Ext) (d a b : Code) (s : State) (hs : s.memWf = true) : Kept (execFmul x d a b s) := by
  unfold execFmul
  refine issue_kept (fun q hq => ?_) hs
  simp [hq]

theorem execFfma_kept (x : Ext) (d a b : Code) (s : State) (hs : s.memWf = true) : Kept (execFfma x d a b s) := by
  unfold execFfma
  refine issue_kept (fun q hq => ?_) hs
  simp [hq]

@[simp] theorem Iss.fminmaxOp_kept (q : Iss) (isMax num : Bool) (h : q.s.memWf = true) : KeptEff (q.fminmaxOp isMax num) := q.floatOp_kept _ h

theorem execFmin_kept (x : Ext) (d a b : Code) (s : State) (hs : s.memWf = true) : Kept (execFmin x d a b s) := by
  unfold execFmin
  refine issue_kept (fun q hq => ?_) hs
  simp [hq]

theorem execFmax_kept (x : Ext) (d a b : Code) (s : State) (hs : s.memWf = true) : Kept (execFmax x d a b s) := by
  unfold execFmax
  refine issue_kept (fun q hq => ?_) hs
  simp [hq]

theorem execFminNum_kept (x : Ext) (d a b : Code) (s : State) (hs : s.memWf = true) : Kept (execFminNum x d a b s) := by
  unfold execFminNum
  refine issue_kept (fun q hq => ?_) hs
  simp [hq]

theorem execFmaxNum_kept (x : Ext) (d a b : Code) (s : State) (hs : s.memWf = true) : Kept (execFmaxNum x d a b s) := by
  unfold execFmaxNum
  refine issue_kept (fun q hq => ?_) hs
  simp [hq]

theorem execFabs_kept (x : Ext) (d a : Code) (s : State) (hs : s.memWf = true) : Kept (execFabs x d a s) := by
  unfold execFabs
  refine issue_kept (fun q hq => ?_) hs
  simp [hq]

theorem execFneg_kept (x : Ext) (d a : Code) (s : State) (hs : s.memWf = true) : Kept (execFneg x d a s) := by
  unfold execFneg
  refine issue_kept (fun q hq => ?_) hs
  simp [hq]

theorem execFrnd_kept (x : Ext) (d a : Code) (s : State) (hs : s.memWf = true) : Kept (execFrnd x d a s) := by
  unfold execFrnd
  refine issue_kept (fun q hq => ?_) hs
  simp [hq]

theorem execFclass_kept (x : Ext) (d a : Code) (s : State) (hs : s.memWf = true) : Kept (execFclass x d a s) := by
  unfold execFclass
  refine issue_kept (fun q hq => ?_) hs
  simp [hq]

theorem execFscale_kept (x : Ext) (d a b : Code) (s : State) (hs : s.memWf = true) : Kept (execFscale x d a b s) := by
  unfold execFscale
  refine issue_kept (fun q hq => ?_) hs
  simp [hq]

theorem execFcmp_kept (x : Ext) (c : BitVec 4) (d a b : Code) (s : State) (hs : s.memWf = true) : Kept (execFcmp x c d a b s) := by
  unfold execFcmp
  refine issue_kept (fun q hq => ?_) hs
  simp [hq]

theorem execCvtF2i_kept (x : Ext) (d a : Code) (e : BitVec 4) (s : State) (hs : s.memWf = true) : Kept (execCvtF2i x d a e s) := by
  unfold execCvtF2i
  refine issue_kept (fun q hq => ?_) hs
  dsimp only
  repeat' split
  all_goals simp [hq]

theorem execCvtI2f_kept (x : Ext) (d a : Code) (e : BitVec 4) (s : State) (hs : s.memWf = true) : Kept (execCvtI2f x d a e s) := by
  unfold execCvtI2f
  refine issue_kept (fun q hq => ?_) hs
  dsimp only
  repeat' split
  all_goals simp [hq]

theorem execCvtF2f_kept (x : Ext) (d a : Code) (h : BitVec 1) (e : BitVec 4) (s : State) (hs : s.memWf = true) : Kept (execCvtF2f x d a h e s) := by
  unfold execCvtF2f
  refine issue_kept (fun q hq => ?_) hs
  dsimp only
  repeat' split
  all_goals simp [hq]

theorem execQnt_kept (x : Ext) (d a : Code) (fmt : BitVec 5) (s : State) (hs : s.memWf = true) : Kept (execQnt x d a fmt s) := by
  unfold execQnt
  refine issue_kept (fun q hq => ?_) hs
  simp [hq]

theorem execDqnt_kept (x : Ext) (d a : Code) (fmt : BitVec 5) (s : State) (hs : s.memWf = true) : Kept (execDqnt x d a fmt s) := by
  unfold execDqnt
  refine issueOk_kept (fun q hq => ?_) hs
  simp [hq]

theorem execMxsc_kept (x : Ext) (d a : Code) (fmt : BitVec 5) (s : State) (hs : s.memWf = true) : Kept (execMxsc x d a fmt s) := by
  unfold execMxsc
  refine issue_kept (fun q hq => ?_) hs
  simp [hq]

theorem execPack_kept (x : Ext) (d a b : Code) (s : State) (hs : s.memWf = true) : Kept (execPack x d a b s) := by
  unfold execPack
  refine issue_kept (fun q hq => ?_) hs
  repeat' split
  all_goals simp [hq]

theorem execUnpk_kept (x : Ext) (d a : Code) (s : State) (hs : s.memWf = true) : Kept (execUnpk x d a s) := by
  unfold execUnpk
  refine issue_kept (fun q hq => ?_) hs
  repeat' split
  all_goals simp [hq]

theorem execRng_kept (x : Ext) (d a : Code) (s : State) (hs : s.memWf = true) : Kept (execRng x d a s) := by
  unfold execRng
  refine issueOk_kept (fun q hq => ?_) hs
  simp [hq]

theorem execFlags_kept (l : Option Word) (d a : Code) (s : State) (hs : s.memWf = true) : Kept (execFlags l d a s) := by
  unfold execFlags
  refine issueOk_kept (fun q hq => ?_) hs
  simp [hq]

theorem execLdi_kept (p : Option Pfx) (d : Code) (imm : BitVec 11) (s : State) (hs : s.memWf = true) : Kept (execLdi p d imm s) := by
  unfold execLdi
  refine issueOk_kept (fun q hq => ?_) hs
  simp [hq]

@[simp] theorem Iss.goto_memWf (q : Iss) (pc : DWord) (h : q.s.memWf = true) : (Iss.goto q pc).memWf = true := by
  exact (State.memWf_congr rfl rfl).trans h

@[simp] theorem Iss.splitInto_memWf (q : Iss) (parts : List Frag) (h : q.s.memWf = true) : (Iss.splitInto q parts).memWf = true := by
  exact (State.memWf_congr rfl rfl).trans h

theorem execBra_kept (c : BitVec 4) (off : BitVec 21) (s : State) (hs : s.memWf = true) : Kept (execBra c off s) := by
  unfold execBra
  refine issueOk_kept (fun q hq => ?_) hs
  simp [hq]

theorem execBrz_kept (c : BitVec 4) (off : BitVec 21) (s : State) (hs : s.memWf = true) : Kept (execBrz c off s) := by
  unfold execBrz
  refine issueOk_kept (fun q hq => ?_) hs
  simp [hq]

theorem execBrx_kept (c : BitVec 4) (off : BitVec 21) (s : State) (hs : s.memWf = true) : Kept (execBrx c off s) := by
  unfold execBrx
  refine issueOk_kept (fun q hq => ?_) hs
  simp +contextual (maxDischargeDepth := 20) [hq]

@[simp] theorem Iss.brk_kept (q : Iss) (detail : Nat) : KeptEff (q.brk detail) := trivial

theorem execJoin_kept (off : BitVec 21) (s : State) (hs : s.memWf = true) : Kept (execJoin off s) := by
  unfold execJoin
  refine issue_kept (fun q hq => ?_) hs
  repeat' split
  all_goals simp [hq]

@[simp] theorem Iss.depart_memWf (q : Iss) (out : List Frag) (h : q.s.memWf = true) : (Iss.depart q out).memWf = true := by
  unfold Iss.depart
  simp [h]

theorem execLeave_kept (n : BitVec 4) (s : State) (hs : s.memWf = true) : Kept (execLeave n s) := by
  unfold execLeave
  refine issue_kept (fun q hq => ?_) hs
  repeat' split
  all_goals simp [hq]

theorem execCont_kept (off : BitVec 21) (s : State) (hs : s.memWf = true) : Kept (execCont off s) := by
  unfold execCont
  refine issue_kept (fun q hq => ?_) hs
  repeat' split
  all_goals simp [hq]

@[simp] theorem Iss.callTo_memWf (q : Iss) (groups : List (DWord × Mask)) (h : q.s.memWf = true) : (Iss.callTo q groups).memWf = true := by
  exact (State.memWf_congr rfl rfl).trans h

theorem execCall_kept (off : BitVec 21) (s : State) (hs : s.memWf = true) : Kept (execCall off s) := by
  unfold execCall
  refine issue_kept (fun q hq => ?_) hs
  repeat' split
  all_goals simp [hq]

theorem execCalli_kept (a : Code) (s : State) (hs : s.memWf = true) : Kept (execCalli a s) := by
  unfold execCalli
  refine issue_kept (fun q hq => ?_) hs
  repeat' split
  all_goals simp [hq]

theorem execRet_kept (s : State) (hs : s.memWf = true) : Kept (execRet s) := by
  unfold execRet
  refine issue_kept (fun q hq => ?_) hs
  repeat' split
  all_goals simp [hq]

theorem execYield_kept (s : State) (hs : s.memWf = true) : Kept (execYield s) := by
  unfold execYield
  refine issueOk_kept (fun q hq => ?_) hs
  simp [hq]

theorem execExit_kept (l : Option Word) (a b : Code) (s : State) (hs : s.memWf = true) : Kept (execExit l a b s) := by
  unfold execExit
  refine issue_kept (fun q hq => ?_) hs
  repeat' split
  all_goals simp [hq]

theorem execNop_kept (s : State) (hs : s.memWf = true) : Kept (execNop s) := by
  unfold execNop
  refine issueOk_kept (fun q hq => ?_) hs
  simp [hq]

@[simp] theorem State.revote_memWf (s : State) (h : s.memWf = true) : (State.revote s).memWf = true := by
  unfold State.revote
  simp [h]

@[simp] theorem State.modRail_memWf (s : State) (r : Nat) (f : Rail → Rail) (h : s.memWf = true) : (State.modRail s r f).memWf = true := by
  exact (State.memWf_congr rfl rfl).trans h

theorem execRailRaiseSettled_kept (rail : Nat) (s : State) (hs : s.memWf = true) : Kept (execRailRaiseSettled rail s) := by
  unfold execRailRaiseSettled
  repeat' split
  all_goals simp [hs]

theorem execRailLowerHoldExpiry_kept (rail : Nat) (s : State) (hs : s.memWf = true) : Kept (execRailLowerHoldExpiry rail s) := by
  unfold execRailLowerHoldExpiry
  repeat' split
  all_goals simp [hs]

@[simp] theorem State.railFall_memWf (s : State) (rail mv : Nat) (h : s.memWf = true) : (State.railFall s rail mv).memWf = true := by
  exact (State.memWf_congr rfl rfl).trans h

@[simp] theorem State.railsDown_memWf (s : State) (h : s.memWf = true) : (State.railsDown s).memWf = true := by
  exact (State.memWf_congr rfl rfl).trans h

theorem execThermalStep_kept (cluster : Nat) (celsius : Int) (s : State) (hs : s.memWf = true) : Kept (execThermalStep cluster celsius s) := by
  unfold execThermalStep
  repeat' split
  all_goals simp [hs]

@[simp] theorem State.clocksOff_memWf (s : State) (h : s.memWf = true) : (State.clocksOff s).memWf = true := by
  exact (State.memWf_congr rfl rfl).trans h

@[simp] theorem State.powerOff_memWf (s : State) (h : s.memWf = true) : s.powerOff.memWf = true :=
  foldl_keeps (fun s => s.memWf = true) _ _ (fun s _ h => (s.setRails_memWf _ _).trans h) _ ((State.memWf_congr rfl rfl).trans h)

theorem execThermalShutdown_kept (cluster : Nat) (s : State) (hs : s.memWf = true) : Kept (execThermalShutdown cluster s) := by
  unfold execThermalShutdown
  repeat' (split <;> (try dsimp only))
  all_goals simp +contextual (maxDischargeDepth := 20) [hs]

theorem execBrownout_kept (s : State) (hs : s.memWf = true) : Kept (execBrownout s) := by
  unfold execBrownout
  repeat' split
  all_goals simp [hs]

theorem execChargeRecordUpdate_kept (cluster : Nat) (s : State) (hs : s.memWf = true) : Kept (execChargeRecordUpdate cluster s) := by
  unfold execChargeRecordUpdate
  repeat' split
  all_goals simp [hs]

theorem execL2Window_kept (bank : Nat) (s : State) (hs : s.memWf = true) : Kept (execL2Window bank s) := by
  unfold execL2Window
  repeat' split
  all_goals simp [hs]

@[simp] theorem State.stageBundle_memWf (s : State) (h : s.memWf = true) : (State.stageBundle s).memWf = true := by
  unfold State.stageBundle
  simp +contextual (maxDischargeDepth := 20) [h]

@[simp] theorem State.lifeCycle_memWf (s : State) (b : FwSlot) (mount : Nat) (h : s.memWf = true) : (State.lifeCycle s b mount).memWf = true := by
  unfold State.lifeCycle
  simp +contextual (maxDischargeDepth := 20) [h]

@[simp] theorem State.wipeAll_memWf (s : State) (h : s.memWf = true) : (State.wipeAll s).memWf = true := by
  unfold State.wipeAll
  simp [h]

@[simp] theorem State.bootBundle_memWf (s : State) (n : Nat) (b : FwSlot) (h : s.memWf = true) : (State.bootBundle s n b).1.memWf = true := by
  unfold State.bootBundle
  repeat' (split <;> (try dsimp only))
  all_goals simp +contextual (maxDischargeDepth := 20) [h]

@[simp] theorem State.haltBoot_memWf (s : State) (err : Nat) (h : s.memWf = true) : (State.haltBoot s err).memWf = true := by
  exact (State.memWf_congr rfl rfl).trans h

@[simp] theorem State.bootPass_memWf (n : Nat) (s : State) (h : s.memWf = true) : (State.bootPass n s).memWf = true := by
  induction n generalizing s with
  | zero => exact s.wiped_memWf h
  | succ n ih =>
    unfold State.bootPass
    have hs : State.memWf { s with boot := { s.boot with err := 0 } } = true := (State.memWf_congr rfl rfl).trans h
    have hb := State.stageBundle_memWf _ hs
    dsimp only
    split
    · exact State.haltBoot_memWf _ _ hb
    · split
      · exact State.haltBoot_memWf _ _ hb
      · split <;> obtain rfl := congrArg Prod.fst ‹_ = ((_ : State), _)›
        · exact ih _ (State.bootBundle_memWf _ _ _ hb)
        · exact State.wiped_memWf _ (State.bootBundle_memWf _ _ _ hb)

@[simp] theorem State.bringUp_memWf (s : State) (h : s.memWf = true) : s.bringUp.memWf = true :=
  State.bootPass_memWf _ _ ((State.memWf_congr rfl rfl).trans (s.writeHead_memWf.trans h))

theorem execPowerUp_kept (s : State) (hs : s.memWf = true) : Kept (execPowerUp s) := by
  unfold execPowerUp
  simp [hs]

theorem execPfFlr_kept (s : State) (hs : s.memWf = true) : Kept (execPfFlr s) := by
  unfold execPfFlr
  repeat' split
  all_goals simp [hs]

@[simp] theorem State.beginPreempt_memWf (s : State) (c : Command) (r : Request) (victims : List Nat) (h : s.memWf = true) : (State.beginPreempt s c r victims).memWf = true := by
  unfold State.beginPreempt
  simp +contextual (maxDischargeDepth := 20) [h]

theorem execPreemptVacate_kept (cmd : Nat) (s : State) (hs : s.memWf = true) : Kept (execPreemptVacate cmd s) := by
  unfold execPreemptVacate
  repeat' split
  all_goals simp [hs]

theorem execPreemptResize_kept (cmd : Nat) (s : State) (hs : s.memWf = true) : Kept (execPreemptResize cmd s) := by
  unfold execPreemptResize
  repeat' split
  all_goals simp [hs]

@[simp] theorem State.setHeld_memWf (s : State) (l : List Nat) (held : Bool) (h : s.memWf = true) : (s.setHeld l held).memWf = true :=
  foldl_keeps (fun s => s.memWf = true) _ _ (fun s _ h => (s.modCore_memWf _ _).trans h) s h

theorem execPreemptReleaseHold_kept (cmd : Nat) (s : State) (hs : s.memWf = true) : Kept (execPreemptReleaseHold cmd s) := by
  unfold execPreemptReleaseHold
  repeat' split
  all_goals simp [hs]

theorem execPreemptGraceExpiry_kept (tid gi : Nat) (s : State) (hs : s.memWf = true) : Kept (execPreemptGraceExpiry tid gi s) := by
  unfold execPreemptGraceExpiry
  repeat' split
  all_goals simp [hs]

@[simp] theorem State.removeClusters_memWf (s : State) (part m : Nat) (h : s.memWf = true) : (State.removeClusters s part m).memWf = true := by
  unfold State.removeClusters
  simp +contextual (maxDischargeDepth := 20) [h]

theorem execContextSave_kept (part : Nat) (s : State) (hs : s.memWf = true) : Kept (execContextSave part s) := by
  unfold execContextSave
  repeat' (split <;> (try dsimp only))
  all_goals simp +contextual (maxDischargeDepth := 20) [hs]

theorem State.hostWrite_kept {s : State} {f : State → State} (hf : (f s).memWf = true) (h : s.memWf = true) : Kept (s.hostWrite f) := by
  unfold State.hostWrite
  split <;> simp [h, hf]

@[simp] theorem State.kicked_memWf (s : State) (fn : Fn) (q : Nat) (h : s.memWf = true) : (State.kicked s fn q).memWf = true := by
  unfold State.kicked
  dsimp only
  repeat' split
  all_goals simp [h]

theorem execKick_kept (fn : Fn) (v : Word) (s : State) (hs : s.memWf = true) : Kept (execKick fn v s) := by
  unfold execKick
  exact State.hostWrite_kept (by simp +contextual (maxDischargeDepth := 20) [hs]) hs

@[simp] theorem State.attest_memWf (s : State) (h : s.memWf = true) : (State.attest s).memWf = true := by
  unfold State.attest
  simp [h]

theorem execRepbase_kept (fn : Fn) (hi : Bool) (v : Word) (s : State) (hs : s.memWf = true) : Kept (execRepbase fn hi v s) := by
  unfold execRepbase
  exact State.hostWrite_kept (by simp +contextual (maxDischargeDepth := 20) [hs]) hs

theorem execRephead_kept (fn : Fn) (v : Word) (s : State) (hs : s.memWf = true) : Kept (execRephead fn v s) := by
  unfold execRephead
  exact State.hostWrite_kept (by simp +contextual (maxDischargeDepth := 20) [hs]) hs

theorem execHmWallHi_kept (v : Word) (s : State) (hs : s.memWf = true) : Kept (execHmWallHi v s) := by
  unfold execHmWallHi
  exact State.hostWrite_kept (by simp +contextual (maxDischargeDepth := 20) [hs]) hs

theorem execVal_kept (v : Word) (s : State) (hs : s.memWf = true) : Kept (execVal v s) := by
  unfold execVal
  exact State.hostWrite_kept (by simp +contextual (maxDischargeDepth := 20) [hs]) hs

theorem execHmInjCtl_kept (v : Word) (s : State) (hs : s.memWf = true) : Kept (execHmInjCtl v s) :=
  State.hostWrite_kept ((State.memWf_congr rfl rfl).trans hs) hs

@[simp] theorem State.modTenant_memWf (s : State) (t : Nat) (f : Tenant → Tenant) (h : s.memWf = true) : (State.modTenant s t f).memWf = true := by
  exact (State.memWf_congr rfl rfl).trans h

@[simp] theorem State.tenantError_memWf (s : State) (t : Nat) (h : s.memWf = true) : (State.tenantError s t).memWf = true := by
  exact (State.memWf_congr rfl rfl).trans h

@[simp] theorem State.tenantSet_memWf (s : State) (t : Nat) (f : Tenant → Tenant) (h : s.memWf = true) : (State.tenantSet s t f).memWf = true := by
  exact (State.memWf_congr rfl rfl).trans h

@[simp] theorem State.writeTenCtl_memWf (s : State) (t : Nat) (x : Tenant) (v : Word) (h : s.memWf = true) : (State.writeTenCtl s t x v).memWf = true := by
  unfold State.writeTenCtl
  simp [h]

@[simp] theorem State.writeFixed_memWf (s : State) (t : Nat) (x : Tenant) (old new : DWord) (put : Tenant → DWord → Tenant) (h : s.memWf = true) : (State.writeFixed s t x old new put).memWf = true := by
  unfold State.writeFixed
  simp [h]

theorem execTenantBlockWrite_kept (t off : Nat) (v : Word) (s : State) (hs : s.memWf = true) : Kept (execTenantBlockWrite t off v s) := by
  refine State.hostWrite_kept ?_ hs
  repeat' split
  all_goals simp [hs]

@[simp] theorem State.wipeClusters_memWf (s : State) (p : Partition) (h : s.memWf = true) : (State.wipeClusters s p).memWf = true := by
  exact (State.memWf_congr rfl rfl).trans h

@[simp] theorem State.wipeBerths_memWf (s : State) (p : Partition) (h : s.memWf = true) : (State.wipeBerths s p).memWf = true := by
  exact (State.memWf_congr rfl rfl).trans h

@[simp] theorem State.partError_memWf (s : State) (p : Nat) (h : s.memWf = true) : (State.partError s p).memWf = true := by
  exact (State.memWf_congr rfl rfl).trans h

@[simp] theorem State.writePCtl_memWf (s : State) (p : Nat) (x : Partition) (v : Word) (h : s.memWf = true) : (State.writePCtl s p x v).memWf = true := by
  unfold State.writePCtl
  repeat' (split <;> (try dsimp only))
  all_goals simp +contextual (maxDischargeDepth := 20) [h]

@[simp] theorem State.writeMask_memWf (s : State) (p : Nat) (x : Partition) (old v : Word) (put : Partition → Word → Partition) (h : s.memWf = true) : (State.writeMask s p x old v put).memWf = true := by
  unfold State.writeMask
  simp +contextual (maxDischargeDepth := 20) [h]

@[simp] theorem State.clearBerths_memWf (s : State) (p k : Nat) (v : Word) (h : s.memWf = true) : (s.clearBerths p k v).memWf = true := by
  unfold State.clearBerths
  dsimp only
  split
  · exact h
  · refine foldl_keeps (fun s => s.memWf = true) _ _ (fun s i h => ?_) s h
    split <;> simp [h]

theorem execPartitionBlockWrite_kept (p off : Nat) (v : Word) (s : State) (hs : s.memWf = true) : Kept (execPartitionBlockWrite p off v s) := by
  refine State.hostWrite_kept ?_ hs
  dsimp only
  repeat' split
  all_goals simp [hs]

theorem execPartitionStart_kept (p : Nat) (s : State) (hs : s.memWf = true) : Kept (execPartitionStart p s) := by
  unfold execPartitionStart
  repeat' split
  all_goals simp [hs]

theorem execQuayPortWrite_kept (q : Nat) (v : Word) (s : State) (hs : s.memWf = true) : Kept (execQuayPortWrite q v s) := by
  unfold execQuayPortWrite
  exact State.hostWrite_kept (by simp +contextual (maxDischargeDepth := 20) [hs]) hs

@[simp] theorem State.writeQueueReg_memWf (s : State) (fn : Fn) (off : Nat) (v : Word) (h : s.memWf = true) : (State.writeQueueReg s fn off v).memWf = true := by
  unfold State.writeQueueReg
  simp +contextual (maxDischargeDepth := 20) [h]

theorem execRegisterWrite_kept (fn : Fn) (off : Nat) (v : Word) (s : State) (hs : s.memWf = true) : Kept (execRegisterWrite fn off v s) := by
  unfold execRegisterWrite
  split
  · simp
  · refine State.hostWrite_kept ?_ hs
    dsimp only
    repeat' split
    all_goals simp [hs]

theorem execVfFlr_kept (v : Nat) (s : State) (hs : s.memWf = true) : Kept (execVfFlr v s) := by
  unfold execVfFlr
  repeat' (split <;> (try dsimp only))
  all_goals simp +contextual (maxDischargeDepth := 20) [hs]

@[simp] theorem Iss.openDone_memWf (q : Iss) (look : Nat) (pend : List PWrite) (triple : Option (Nat × List Nat × List Nat)) (fl : Nat) (h : q.s.memWf = true) : (Iss.openDone q look pend triple fl).memWf = true := by
  exact (State.memWf_congr rfl rfl).trans h

@[simp] theorem Iss.sfu_kept (q : Iss) (fn : Nat) (k : BitVec 4) (h : q.s.memWf = true) : KeptEff (q.sfu fn k) := by
  unfold Iss.sfu
  dsimp only
  repeat' split
  all_goals simp [h]

theorem execRcp_kept (p : Option Pfx) (k : BitVec 4) (d a : Code) (s : State) (hs : s.memWf = true) : Kept (execRcp p k d a s) := by
  unfold execRcp
  refine issue_kept (fun q hq => ?_) hs
  simp [hq]

theorem execRsq_kept (p : Option Pfx) (k : BitVec 4) (d a : Code) (s : State) (hs : s.memWf = true) : Kept (execRsq p k d a s) := by
  unfold execRsq
  refine issue_kept (fun q hq => ?_) hs
  simp [hq]

theorem execSqrt_kept (p : Option Pfx) (k : BitVec 4) (d a : Code) (s : State) (hs : s.memWf = true) : Kept (execSqrt p k d a s) := by
  unfold execSqrt
  refine issue_kept (fun q hq => ?_) hs
  simp [hq]

theorem execEx2_kept (p : Option Pfx) (k : BitVec 4) (d a : Code) (s : State) (hs : s.memWf = true) : Kept (execEx2 p k d a s) := by
  unfold execEx2
  refine issue_kept (fun q hq => ?_) hs
  simp [hq]

theorem execLg2_kept (p : Option Pfx) (k : BitVec 4) (d a : Code) (s : State) (hs : s.memWf = true) : Kept (execLg2 p k d a s) := by
  unfold execLg2
  refine issue_kept (fun q hq => ?_) hs
  simp [hq]

theorem execSinpi_kept (p : Option Pfx) (k : BitVec 4) (d a : Code) (s : State) (hs : s.memWf = true) : Kept (execSinpi p k d a s) := by
  unfold execSinpi
  refine issue_kept (fun q hq => ?_) hs
  simp [hq]

theorem execCospi_kept (p : Option Pfx) (k : BitVec 4) (d a : Code) (s : State) (hs : s.memWf = true) : Kept (execCospi p k d a s) := by
  unfold execCospi
  refine issue_kept (fun q hq => ?_) hs
  simp [hq]

theorem execTanh_kept (p : Option Pfx) (k : BitVec 4) (d a : Code) (s : State) (hs : s.memWf = true) : Kept (execTanh p k d a s) := by
  unfold execTanh
  refine issue_kept (fun q hq => ?_) hs
  simp [hq]

theorem execSigm_kept (p : Option Pfx) (k : BitVec 4) (d a : Code) (s : State) (hs : s.memWf = true) : Kept (execSigm p k d a s) := by
  unfold execSigm
  refine issue_kept (fun q hq => ?_) hs
  simp [hq]

theorem execLreadAt_kept (x : Ext) (d a b : Code) (s : State) (hs : s.memWf = true) : Kept (execLreadAt x d a b s) := by
  unfold execLreadAt
  refine issueOk_kept (fun q hq => ?_) hs
  simp [hq]

theorem execLreadBack_kept (x : Ext) (d a b : Code) (s : State) (hs : s.memWf = true) : Kept (execLreadBack x d a b s) := by
  unfold execLreadBack
  refine issueOk_kept (fun q hq => ?_) hs
  simp [hq]

theorem execLreadFwd_kept (x : Ext) (d a b : Code) (s : State) (hs : s.memWf = true) : Kept (execLreadFwd x d a b s) := by
  unfold execLreadFwd
  refine issueOk_kept (fun q hq => ?_) hs
  simp [hq]

theorem execLreadFlip_kept (x : Ext) (d a b : Code) (s : State) (hs : s.memWf = true) : Kept (execLreadFlip x d a b s) := by
  unfold execLreadFlip
  refine issueOk_kept (fun q hq => ?_) hs
  simp [hq]

theorem execBcast_kept (x : Ext) (d a b : Code) (s : State) (hs : s.memWf = true) : Kept (execBcast x d a b s) := by
  unfold execBcast
  refine issueOk_kept (fun q hq => ?_) hs
  simp [hq]

@[simp] theorem Iss.tripleResult_memWf (q : Iss) (d : Code) (m : Mask) (h : q.s.memWf = true) : (Iss.tripleResult q d m).memWf = true := by
  exact (State.memWf_congr rfl rfl).trans h

theorem execVoteAny_kept (x : Ext) (d a : Code) (s : State) (hs : s.memWf = true) : Kept (execVoteAny x d a s) := by
  unfold execVoteAny
  refine issueOk_kept (fun q hq => ?_) hs
  simp [hq]

theorem execVoteAll_kept (x : Ext) (d a : Code) (s : State) (hs : s.memWf = true) : Kept (execVoteAll x d a s) := by
  unfold execVoteAll
  refine issueOk_kept (fun q hq => ?_) hs
  simp [hq]

theorem execVoteBal_kept (x : Ext) (d a b : Code) (s : State) (hs : s.memWf = true) : Kept (execVoteBal x d a b s) := by
  unfold execVoteBal
  refine issueOk_kept (fun q hq => ?_) hs
  simp [hq]

theorem execLane_kept (d : Code) (s : State) (hs : s.memWf = true) : Kept (execLane d s) := by
  unfold execLane
  refine issueOk_kept (fun q hq => ?_) hs
  simp [hq]

theorem execGrpid_kept (d : Code) (s : State) (hs : s.memWf = true) : Kept (execGrpid d s) := by
  unfold execGrpid
  refine issueOk_kept (fun q hq => ?_) hs
  simp [hq]

theorem execGetw_kept (d : Code) (s : State) (hs : s.memWf = true) : Kept (execGetw d s) := by
  unfold execGetw
  refine issueOk_kept (fun q hq => ?_) hs
  simp [hq]

theorem execSetw_kept (l : Option Word) (a : Code) (s : State) (hs : s.memWf = true) : Kept (execSetw l a s) := by
  unfold execSetw
  refine issue_kept (fun q hq => ?_) hs
  dsimp only
  repeat' split
  all_goals simp [hq]

theorem execMatchLanes_kept (p : Option Pfx) (k : BitVec 4) (d a : Code) (s : State) (hs : s.memWf = true) : Kept (execMatchLanes p k d a s) := by
  unfold execMatchLanes
  refine issueOk_kept (fun q hq => ?_) hs
  simp [hq]

@[simp] theorem Iss.reduce_kept (q : Iss) (fn : Nat) (scan : Bool) (k : BitVec 4) (h : q.s.memWf = true) : KeptEff (q.reduce fn scan k) := by
  unfold Iss.reduce
  dsimp only
  generalize q.fpTrap _ = r
  cases r <;> simp [h]

theorem execRedAdd_kept (p : Option Pfx) (k : BitVec 4) (d a : Code) (s : State) (hs : s.memWf = true) : Kept (execRedAdd p k d a s) := by
  unfold execRedAdd
  refine issue_kept (fun q hq => ?_) hs
  simp [hq]

theorem execRedMin_kept (p : Option Pfx) (k : BitVec 4) (d a : Code) (s : State) (hs : s.memWf = true) : Kept (execRedMin p k d a s) := by
  unfold execRedMin
  refine issue_kept (fun q hq => ?_) hs
  simp [hq]

theorem execRedMax_kept (p : Option Pfx) (k : BitVec 4) (d a : Code) (s : State) (hs : s.memWf = true) : Kept (execRedMax p k d a s) := by
  unfold execRedMax
  refine issue_kept (fun q hq => ?_) hs
  simp [hq]

theorem execRedBitAnd_kept (p : Option Pfx) (k : BitVec 4) (d a : Code) (s : State) (hs : s.memWf = true) : Kept (execRedBitAnd p k d a s) := by
  unfold execRedBitAnd
  refine issue_kept (fun q hq => ?_) hs
  simp [hq]

theorem execRedBitOr_kept (p : Option Pfx) (k : BitVec 4) (d a : Code) (s : State) (hs : s.memWf = true) : Kept (execRedBitOr p k d a s) := by
  unfold execRedBitOr
  refine issue_kept (fun q hq => ?_) hs
  simp [hq]

theorem execRedBitXor_kept (p : Option Pfx) (k : BitVec 4) (d a : Code) (s : State) (hs : s.memWf = true) : Kept (execRedBitXor p k d a s) := by
  unfold execRedBitXor
  refine issue_kept (fun q hq => ?_) hs
  simp [hq]

theorem execScanAdd_kept (p : Option Pfx) (k : BitVec 4) (d a : Code) (s : State) (hs : s.memWf = true) : Kept (execScanAdd p k d a s) := by
  unfold execScanAdd
  refine issue_kept (fun q hq => ?_) hs
  simp [hq]

theorem execScanMax_kept (p : Option Pfx) (k : BitVec 4) (d a : Code) (s : State) (hs : s.memWf = true) : Kept (execScanMax p k d a s) := by
  unfold execScanMax
  refine issue_kept (fun q hq => ?_) hs
  simp [hq]

theorem execCsamp_kept (p : Option Pfx) (k : BitVec 4) (d a : Code) (s : State) (hs : s.memWf = true) : Kept (execCsamp p k d a s) := by
  unfold execCsamp
  refine issue_kept (fun q hq => ?_) hs
  extract_lets
  split
  · trivial
  · exact (keptEff_ok _).2 (q.openDone_memWf _ _ _ _ hq)

@[simp] theorem Iss.putTriple_memWf (q : Iss) (d : Code) (m : Mask) (h : q.s.memWf = true) : (Iss.putTriple q d m).memWf = true := by
  exact (State.memWf_congr rfl rfl).trans h

theorem execMand_kept (d a b : Code) (s : State) (hs : s.memWf = true) : Kept (execMand d a b s) := by
  unfold execMand
  refine issueOk_kept (fun q hq => ?_) hs
  simp [hq]

theorem execMor_kept (d a b : Code) (s : State) (hs : s.memWf = true) : Kept (execMor d a b s) := by
  unfold execMor
  refine issueOk_kept (fun q hq => ?_) hs
  simp [hq]

theorem execMxor_kept (d a b : Code) (s : State) (hs : s.memWf = true) : Kept (execMxor d a b s) := by
  unfold execMxor
  refine issueOk_kept (fun q hq => ?_) hs
  simp [hq]

theorem execMnot_kept (d a : Code) (s : State) (hs : s.memWf = true) : Kept (execMnot d a s) := by
  unfold execMnot
  refine issueOk_kept (fun q hq => ?_) hs
  simp [hq]

theorem execMandn_kept (d a b : Code) (s : State) (hs : s.memWf = true) : Kept (execMandn d a b s) := by
  unfold execMandn
  refine issueOk_kept (fun q hq => ?_) hs
  simp [hq]

theorem execMpop_kept (d a : Code) (s : State) (hs : s.memWf = true) : Kept (execMpop d a s) := by
  unfold execMpop
  refine issueOk_kept (fun q hq => ?_) hs
  simp [hq]

theorem execMffs_kept (d a : Code) (s : State) (hs : s.memWf = true) : Kept (execMffs d a s) := by
  unfold execMffs
  refine issueOk_kept (fun q hq => ?_) hs
  simp [hq]

theorem execMcur_kept (d : Code) (s : State) (hs : s.memWf = true) : Kept (execMcur d s) := by
  unfold execMcur
  refine issueOk_kept (fun q hq => ?_) hs
  simp [hq]

theorem execMspill_kept (d a : Code) (s : State) (hs : s.memWf = true) : Kept (execMspill d a s) := by
  unfold execMspill
  refine issueOk_kept (fun q hq => ?_) hs
  simp [hq]

theorem execMfill_kept (l : Option Word) (d a : Code) (s : State) (hs : s.memWf = true) : Kept (execMfill l d a s) := by
  unfold execMfill
  refine issueOk_kept (fun q hq => ?_) hs
  simp [hq]

@[simp] theorem Iss.scalar_memWf (q : Iss) (x : Word) (h : q.s.memWf = true) : (Iss.scalar q x).memWf = true := by
  unfold Iss.scalar
  repeat' split
  all_goals simp [h]

theorem execSadd_kept (l : Option Word) (d a b : Code) (s : State) (hs : s.memWf = true) : Kept (execSadd l d a b s) := by
  unfold execSadd
  refine issueOk_kept (fun q hq => ?_) hs
  simp [hq]

theorem execSsub_kept (l : Option Word) (d a b : Code) (s : State) (hs : s.memWf = true) : Kept (execSsub l d a b s) := by
  unfold execSsub
  refine issueOk_kept (fun q hq => ?_) hs
  simp [hq]

theorem execSmul_kept (l : Option Word) (d a b : Code) (s : State) (hs : s.memWf = true) : Kept (execSmul l d a b s) := by
  unfold execSmul
  refine issueOk_kept (fun q hq => ?_) hs
  simp [hq]

theorem execSshl_kept (l : Option Word) (d a b : Code) (s : State) (hs : s.memWf = true) : Kept (execSshl l d a b s) := by
  unfold execSshl
  refine issueOk_kept (fun q hq => ?_) hs
  simp [hq]

theorem execSshr_kept (l : Option Word) (d a b : Code) (s : State) (hs : s.memWf = true) : Kept (execSshr l d a b s) := by
  unfold execSshr
  refine issueOk_kept (fun q hq => ?_) hs
  simp [hq]

theorem execSand_kept (l : Option Word) (d a b : Code) (s : State) (hs : s.memWf = true) : Kept (execSand l d a b s) := by
  unfold execSand
  refine issueOk_kept (fun q hq => ?_) hs
  simp [hq]

theorem execSor_kept (l : Option Word) (d a b : Code) (s : State) (hs : s.memWf = true) : Kept (execSor l d a b s) := by
  unfold execSor
  refine issueOk_kept (fun q hq => ?_) hs
  simp [hq]

theorem execSxor_kept (l : Option Word) (d a b : Code) (s : State) (hs : s.memWf = true) : Kept (execSxor l d a b s) := by
  unfold execSxor
  refine issueOk_kept (fun q hq => ?_) hs
  simp [hq]

theorem execSsel_kept (l : Option Word) (d a b : Code) (s : State) (hs : s.memWf = true) : Kept (execSsel l d a b s) := by
  unfold execSsel
  refine issueOk_kept (fun q hq => ?_) hs
  simp [hq]

theorem execSmov_kept (l : Option Word) (d a : Code) (s : State) (hs : s.memWf = true) : Kept (execSmov l d a s) := by
  unfold execSmov
  refine issueOk_kept (fun q hq => ?_) hs
  simp [hq]

theorem execScmp_kept (l : Option Word) (c : BitVec 4) (d a b : Code) (s : State) (hs : s.memWf = true) : Kept (execScmp l c d a b s) := by
  unfold execScmp
  refine issueOk_kept (fun q hq => ?_) hs
  simp [hq]

/-- Whatever an instruction does, both memories stay in canonical form. -/
theorem exec_kept (i : Instr) (s : State) (hs : s.memWf = true) : Kept (exec i s) := by
  cases i
  case iadd => exact execIadd_kept _ _ _ _ s hs
  case isub => exact execIsub_kept _ _ _ _ s hs
  case imul => exact execImul_kept _ _ _ _ s hs
  case imulh => exact execImulh_kept _ _ _ _ s hs
  case imad => exact execImad_kept _ _ _ _ s hs
  case imadw => exact execImadw_kept _ _ _ _ s hs
  case ineg => exact execIneg_kept _ _ _ s hs
  case iabs => exact execIabs_kept _ _ _ s hs
  case imin => exact execImin_kept _ _ _ _ s hs
  case imax => exact execImax_kept _ _ _ _ s hs
  case isel => exact execIsel_kept _ _ _ _ s hs
  case sad => exact execSad_kept _ _ _ _ s hs
  case dot4 => exact execDot4_kept _ _ _ _ s hs
  case lea => exact execLea_kept _ _ _ _ s hs
  case aadd => exact execAadd_kept _ _ _ _ s hs
  case icmp => exact execIcmp_kept _ _ _ _ _ s hs
  case and => exact execAnd_kept _ _ _ _ s hs
  case or => exact execOr_kept _ _ _ _ s hs
  case xor => exact execXor_kept _ _ _ _ s hs
  case not => exact execNot_kept _ _ _ s hs
  case andn => exact execAndn_kept _ _ _ _ s hs
  case shl => exact execShl_kept _ _ _ _ s hs
  case shr => exact execShr_kept _ _ _ _ s hs
  case sar => exact execSar_kept _ _ _ _ s hs
  case rol => exact execRol_kept _ _ _ _ s hs
  case shf => exact execShf_kept _ _ _ _ s hs
  case popc => exact execPopc_kept _ _ _ s hs
  case clz => exact execClz_kept _ _ _ s hs
  case ctz => exact execCtz_kept _ _ _ s hs
  case brev => exact execBrev_kept _ _ _ s hs
  case bfe => exact execBfe_kept _ _ _ _ s hs
  case bfi => exact execBfi_kept _ _ _ _ s hs
  case bytesel => exact execBytesel_kept _ _ _ _ s hs
  case mov => exact execMov_kept _ _ _ s hs
  case s2v => exact execS2v_kept _ _ s hs
  case v2s => exact execV2s_kept _ _ _ s hs
  case idiv => exact execIdiv_kept _ _ _ _ s hs
  case irem => exact execIrem_kept _ _ _ _ s hs
  case movi => exact execMovi_kept _ _ _ _ s hs
  case ldi => exact execLdi_kept _ _ _ s hs
  case sadd => exact execSadd_kept _ _ _ _ s hs
  case ssub => exact execSsub_kept _ _ _ _ s hs
  case smul => exact execSmul_kept _ _ _ _ s hs
  case sshl => exact execSshl_kept _ _ _ _ s hs
  case sshr => exact execSshr_kept _ _ _ _ s hs
  case sand => exact execSand_kept _ _ _ _ s hs
  case sor => exact execSor_kept _ _ _ _ s hs
  case sxor => exact execSxor_kept _ _ _ _ s hs
  case ssel => exact execSsel_kept _ _ _ _ s hs
  case smov => exact execSmov_kept _ _ _ s hs
  case scmp => exact execScmp_kept _ _ _ _ _ s hs
  case fadd => exact execFadd_kept _ _ _ _ s hs
  case fsub => exact execFsub_kept _ _ _ _ s hs
  case fmul => exact execFmul_kept _ _ _ _ s hs
  case ffma => exact execFfma_kept _ _ _ _ s hs
  case fmin => exact execFmin_kept _ _ _ _ s hs
  case fmax => exact execFmax_kept _ _ _ _ s hs
  case fminNum => exact execFminNum_kept _ _ _ _ s hs
  case fmaxNum => exact execFmaxNum_kept _ _ _ _ s hs
  case fabs => exact execFabs_kept _ _ _ s hs
  case fneg => exact execFneg_kept _ _ _ s hs
  case frnd => exact execFrnd_kept _ _ _ s hs
  case fclass => exact execFclass_kept _ _ _ s hs
  case fscale => exact execFscale_kept _ _ _ _ s hs
  case fcmp => exact execFcmp_kept _ _ _ _ _ s hs
  case cvtF2i => exact execCvtF2i_kept _ _ _ _ s hs
  case cvtI2f => exact execCvtI2f_kept _ _ _ _ s hs
  case cvtF2f => exact execCvtF2f_kept _ _ _ _ _ s hs
  case qnt => exact execQnt_kept _ _ _ _ s hs
  case dqnt => exact execDqnt_kept _ _ _ _ s hs
  case mxsc => exact execMxsc_kept _ _ _ _ s hs
  case pack => exact execPack_kept _ _ _ _ s hs
  case unpk => exact execUnpk_kept _ _ _ s hs
  case rng => exact execRng_kept _ _ _ s hs
  case flags => exact execFlags_kept _ _ _ s hs
  case rcp => exact execRcp_kept _ _ _ _ s hs
  case rsq => exact execRsq_kept _ _ _ _ s hs
  case sqrt => exact execSqrt_kept _ _ _ _ s hs
  case ex2 => exact execEx2_kept _ _ _ _ s hs
  case lg2 => exact execLg2_kept _ _ _ _ s hs
  case sinpi => exact execSinpi_kept _ _ _ _ s hs
  case cospi => exact execCospi_kept _ _ _ _ s hs
  case tanh => exact execTanh_kept _ _ _ _ s hs
  case sigm => exact execSigm_kept _ _ _ _ s hs
  case lreadAt => exact execLreadAt_kept _ _ _ _ s hs
  case lreadBack => exact execLreadBack_kept _ _ _ _ s hs
  case lreadFwd => exact execLreadFwd_kept _ _ _ _ s hs
  case lreadFlip => exact execLreadFlip_kept _ _ _ _ s hs
  case bcast => exact execBcast_kept _ _ _ _ s hs
  case voteAny => exact execVoteAny_kept _ _ _ s hs
  case voteAll => exact execVoteAll_kept _ _ _ s hs
  case voteBal => exact execVoteBal_kept _ _ _ _ s hs
  case lane => exact execLane_kept _ s hs
  case grpid => exact execGrpid_kept _ s hs
  case getw => exact execGetw_kept _ s hs
  case setw => exact execSetw_kept _ _ s hs
  case matchLanes => exact execMatchLanes_kept _ _ _ _ s hs
  case redAdd => exact execRedAdd_kept _ _ _ _ s hs
  case redMin => exact execRedMin_kept _ _ _ _ s hs
  case redMax => exact execRedMax_kept _ _ _ _ s hs
  case redBitAnd => exact execRedBitAnd_kept _ _ _ _ s hs
  case redBitOr => exact execRedBitOr_kept _ _ _ _ s hs
  case redBitXor => exact execRedBitXor_kept _ _ _ _ s hs
  case scanAdd => exact execScanAdd_kept _ _ _ _ s hs
  case scanMax => exact execScanMax_kept _ _ _ _ s hs
  case csamp => exact execCsamp_kept _ _ _ _ s hs
  case bra => exact execBra_kept _ _ s hs
  case brx => exact execBrx_kept _ _ s hs
  case brz => exact execBrz_kept _ _ s hs
  case join => exact execJoin_kept _ s hs
  case leave => exact execLeave_kept _ s hs
  case cont => exact execCont_kept _ s hs
  case call => exact execCall_kept _ s hs
  case calli => exact execCalli_kept _ s hs
  case ret => exact execRet_kept s hs
  case yield => exact execYield_kept s hs
  case exit => exact execExit_kept _ _ _ s hs
  case nop => exact execNop_kept s hs
  case mand => exact execMand_kept _ _ _ s hs
  case mor => exact execMor_kept _ _ _ s hs
  case mxor => exact execMxor_kept _ _ _ s hs
  case mnot => exact execMnot_kept _ _ s hs
  case mandn => exact execMandn_kept _ _ _ s hs
  case mpop => exact execMpop_kept _ _ s hs
  case mffs => exact execMffs_kept _ _ s hs
  case mcur => exact execMcur_kept _ s hs
  case mspill => exact execMspill_kept _ _ s hs
  case mfill => exact execMfill_kept _ _ _ s hs
  case setmode => exact execSetmode_kept _ _ _ _ s hs
  case getmode => exact execGetmode_kept _ s hs
  case bar => exact execBar_kept _ s hs
  case barTask => exact execBarTask_kept _ s hs
  case bara => exact execBara_kept _ _ s hs
  case barw => exact execBarw_kept _ _ _ s hs
  case barc => exact execBarc_kept _ _ _ s hs
  case role => exact execRole_kept _ s hs
  case teamid => exact execTeamid_kept _ s hs
  case nteam => exact execNteam_kept _ s hs
  case gridid => exact execGridid_kept _ s hs
  case lclk => exact execLclk_kept _ _ s hs
  case taskend => exact execTaskend_kept s hs
  case safept => exact execSafept_kept s hs
  case ecard => exact execEcard_kept _ _ _ _ _ _ s hs
  case etail => exact execEtail_kept _ _ _ s hs
  case eseq => exact execEseq_kept _ _ _ s hs
  case ewait => exact execEwait_kept _ _ _ s hs
  case graph => exact execGraph_kept _ _ _ s hs
  case gcond => exact execGcond_kept _ _ _ s hs
  case ldmb => exact execLdmb_kept _ _ _ _ _ s hs
  case mstart => exact execMstart_kept _ _ _ _ _ s hs
  case maccRd => exact execMaccRd_kept _ _ _ s hs
  case maccWr => exact execMaccWr_kept _ _ _ s hs
  case trap => exact execTrap_kept _ s hs
  case eret => exact execEret_kept s hs
  case emret => exact execEmret_kept _ s hs
  case wrd => exact execWrd_kept _ _ _ s hs
  case wwr => exact execWwr_kept _ _ _ _ s hs
  case winfo => exact execWinfo_kept _ _ s hs
  case csrr => exact execCsrr_kept _ _ s hs
  case csrw => exact execCsrw_kept _ _ _ s hs
  case segld => exact execSegld_kept _ _ s hs
  case tlbinv => exact execTlbinv_kept s hs
  case tlbinvVa => exact execTlbinvVa_kept _ s hs
  case dbgbrk => exact execDbgbrk_kept _ s hs
  case halt => exact execHalt_kept s hs
  case ldGB => exact execLdGB_kept _ _ _ _ _ s hs
  case ldGH => exact execLdGH_kept _ _ _ _ _ s hs
  case ldGW => exact execLdGW_kept _ _ _ _ _ s hs
  case ldGD => exact execLdGD_kept _ _ _ _ _ s hs
  case ldGQ => exact execLdGQ_kept _ _ _ _ _ s hs
  case ldSB => exact execLdSB_kept _ _ _ _ _ s hs
  case ldSH => exact execLdSH_kept _ _ _ _ _ s hs
  case ldSW => exact execLdSW_kept _ _ _ _ _ s hs
  case ldSD => exact execLdSD_kept _ _ _ _ _ s hs
  case ldSQ => exact execLdSQ_kept _ _ _ _ _ s hs
  case ldCB => exact execLdCB_kept _ _ _ _ _ s hs
  case ldCH => exact execLdCH_kept _ _ _ _ _ s hs
  case ldCW => exact execLdCW_kept _ _ _ _ _ s hs
  case ldCD => exact execLdCD_kept _ _ _ _ _ s hs
  case ldCQ => exact execLdCQ_kept _ _ _ _ _ s hs
  case ldLB => exact execLdLB_kept _ _ _ _ _ s hs
  case ldLH => exact execLdLH_kept _ _ _ _ _ s hs
  case ldLW => exact execLdLW_kept _ _ _ _ _ s hs
  case ldLD => exact execLdLD_kept _ _ _ _ _ s hs
  case ldLQ => exact execLdLQ_kept _ _ _ _ _ s hs
  case stGB => exact execStGB_kept _ _ _ _ _ s hs
  case stGH => exact execStGH_kept _ _ _ _ _ s hs
  case stGW => exact execStGW_kept _ _ _ _ _ s hs
  case stGD => exact execStGD_kept _ _ _ _ _ s hs
  case stGQ => exact execStGQ_kept _ _ _ _ _ s hs
  case stSB => exact execStSB_kept _ _ _ _ _ s hs
  case stSH => exact execStSH_kept _ _ _ _ _ s hs
  case stSW => exact execStSW_kept _ _ _ _ _ s hs
  case stSD => exact execStSD_kept _ _ _ _ _ s hs
  case stSQ => exact execStSQ_kept _ _ _ _ _ s hs
  case stLB => exact execStLB_kept _ _ _ _ _ s hs
  case stLH => exact execStLH_kept _ _ _ _ _ s hs
  case stLW => exact execStLW_kept _ _ _ _ _ s hs
  case stLD => exact execStLD_kept _ _ _ _ _ s hs
  case stLQ => exact execStLQ_kept _ _ _ _ _ s hs
  case ldGAcqW => exact execLdGAcqW_kept _ _ _ _ _ _ s hs
  case ldGAcqD => exact execLdGAcqD_kept _ _ _ _ _ _ s hs
  case ldSAcqW => exact execLdSAcqW_kept _ _ _ _ _ _ s hs
  case ldSAcqD => exact execLdSAcqD_kept _ _ _ _ _ _ s hs
  case stGRelW => exact execStGRelW_kept _ _ _ _ _ _ s hs
  case stGRelD => exact execStGRelD_kept _ _ _ _ _ _ s hs
  case stSRelW => exact execStSRelW_kept _ _ _ _ _ _ s hs
  case stSRelD => exact execStSRelD_kept _ _ _ _ _ _ s hs
  case atomGW => exact execAtomGW_kept _ _ _ _ _ _ s hs
  case atomGD => exact execAtomGD_kept _ _ _ _ _ _ s hs
  case atomSW => exact execAtomSW_kept _ _ _ _ _ _ s hs
  case atomSD => exact execAtomSD_kept _ _ _ _ _ _ s hs
  case redmGW => exact execRedmGW_kept _ _ _ _ _ _ s hs
  case redmGD => exact execRedmGD_kept _ _ _ _ _ _ s hs
  case ldv => exact execLdv_kept _ _ _ _ _ _ _ s hs
  case stv => exact execStv_kept _ _ _ _ _ _ _ s hs
  case prf => exact execPrf_kept _ _ _ s hs
  case cwb => exact execCwb_kept _ _ _ s hs
  case cinv => exact execCinv_kept _ _ _ s hs
  case waitc => exact execWaitc_kept _ _ _ s hs
  case segrd => exact execSegrd_kept _ _ _ s hs
  case fence => exact execFence_kept _ s hs
  case juryrig => exact execJuryrig_kept _ s hs
  case illegal => exact execIllegal_kept _ s hs
  case vendorTest => exact execVendorTest_kept _ s hs
  case mlda => exact execMlda_kept _ _ _ _ _ s hs
  case mma => exact execMma_kept _ _ _ _ _ _ _ s hs
  case mzero => exact execMzero_kept _ _ s hs
  case mdrain => exact execMdrain_kept _ s hs
  case marrb => exact execMarrb_kept _ s hs
  case mwaitb => exact execMwaitb_kept _ s hs
  case mloop => exact execMloop_kept _ _ s hs
  case mscale => exact execMscale_kept _ _ _ s hs
  case mend => exact execMend_kept s hs
  case maccRdStream => exact execMaccRdStream_kept _ _ s hs
  case maccWrStream => exact execMaccWrStream_kept _ _ s hs
  case exitArrival => exact execExitArrival_kept _ _ _ s hs
  case fragmentAgeing => exact execFragmentAgeing_kept _ _ _ s hs
  case hang => exact execHang_kept _ _ s hs
  case inFlightFinish => exact execInFlightFinish_kept _ _ _ _ _ s hs
  case reslice => exact execReslice_kept _ s hs
  case taskBoundary => exact execTaskBoundary_kept _ s hs
  case teamEnd => exact execTeamEnd_kept _ s hs
  case teamPlacement => exact execTeamPlacement_kept _ s hs
  case trapReport => exact execTrapReport_kept _ _ s hs
  case reportRingWrite => exact execReportRingWrite_kept _ s hs
  case pageWalk => exact execPageWalk_kept _ _ _ _ s hs
  case taskRollback => exact execTaskRollback_kept _ s hs
  case telltaleMismatch => exact execTelltaleMismatch_kept _ _ s hs
  case cardAcceptance => exact execCardAcceptance_kept s hs
  case cardDispatch => exact execCardDispatch_kept s hs
  case cardCompletion => exact execCardCompletion_kept _ s hs
  case quaySendArrival => exact execQuaySendArrival_kept _ _ _ s hs
  case quayLinkDown => exact execQuayLinkDown_kept _ s hs
  case graphStart => exact execGraphStart_kept _ s hs
  case graphNode => exact execGraphNode_kept _ s hs
  case berthDecision => exact execBerthDecision_kept _ s hs
  case commandAcceptance => exact execCommandAcceptance_kept _ s hs
  case commandCompletion => exact execCommandCompletion_kept _ s hs
  case launch => exact execLaunch_kept _ s hs
  case syslaunch => exact execSyslaunch_kept _ s hs
  case copy => exact execCopy_kept _ s hs
  case ctxnew =>
    dsimp only [exec]
    exact execCtxnew_kept _ s hs
  case ctxdel => exact execCtxdel_kept _ s hs
  case mapcode => exact execMapcode_kept _ s hs
  case tlbinvCommand => exact execTlbinvCommand_kept _ s hs
  case resumeRetry => exact execResumeRetry_kept _ s hs
  case resumeSkip => exact execResumeSkip_kept _ s hs
  case resumeKill => exact execResumeKill_kept _ s hs
  case grload => exact execGrload_kept _ s hs
  case grstart => exact execGrstart_kept _ s hs
  case debugCommand => exact execDebugCommand_kept _ s hs
  case signal => exact execSignal_kept _ s hs
  case preemptVacate => exact execPreemptVacate_kept _ s hs
  case preemptResize => exact execPreemptResize_kept _ s hs
  case preemptReleaseHold => exact execPreemptReleaseHold_kept _ s hs
  case s2resumeRetry => exact execS2resumeRetry_kept _ s hs
  case s2resumeSkip => exact execS2resumeSkip_kept _ s hs
  case s2resumeKill => exact execS2resumeKill_kept _ s hs
  case s2inv => exact execS2inv_kept _ s hs
  case preemptGraceExpiry => exact execPreemptGraceExpiry_kept _ _ s hs
  case contextSave => exact execContextSave_kept _ s hs
  case teamResume => exact execTeamResume_kept _ s hs
  case l2Window => exact execL2Window_kept _ s hs
  case railRaiseSettled => exact execRailRaiseSettled_kept _ s hs
  case railLowerHoldExpiry => exact execRailLowerHoldExpiry_kept _ s hs
  case thermalStep => exact execThermalStep_kept _ _ s hs
  case thermalShutdown => exact execThermalShutdown_kept _ s hs
  case brownout => exact execBrownout_kept s hs
  case powerUp => exact execPowerUp_kept s hs
  case pfFlr => exact execPfFlr_kept s hs
  case vfFlr => exact execVfFlr_kept _ s hs
  case partitionStart => exact execPartitionStart_kept _ s hs
  case kick => exact execKick_kept _ _ s hs
  case hmWallHi => exact execHmWallHi_kept _ s hs
  case val => exact execVal_kept _ s hs
  case hmInjCtl => exact execHmInjCtl_kept _ s hs
  case tenantBlockWrite => exact execTenantBlockWrite_kept _ _ _ s hs
  case partitionBlockWrite => exact execPartitionBlockWrite_kept _ _ _ s hs
  case quayPortWrite => exact execQuayPortWrite_kept _ _ s hs
  case repbase => exact execRepbase_kept _ _ _ s hs
  case rephead => exact execRephead_kept _ _ s hs
  case registerWrite => exact execRegisterWrite_kept _ _ _ s hs
  case quayLinkUp => exact execQuayLinkUp_kept _ s hs
  case chargeRecordUpdate => exact execChargeRecordUpdate_kept _ s hs
  case debuggerAttach => exact execDebuggerAttach_kept _ _ s hs

@[simp] theorem State.bringStrays_memWf (s : State) (tid : Nat) (lead : Team) (h : s.memWf = true) : (State.bringStrays s tid lead).memWf = true := by
  unfold State.bringStrays
  simp +contextual (maxDischargeDepth := 20) [h]

@[simp] theorem State.chargeTrailing_memWf (s : State) (t : Team) (trailing : State) (h : s.memWf = true) : (State.chargeTrailing s t trailing).memWf = true := by
  unfold State.chargeTrailing
  repeat' split
  all_goals simp [h]

@[simp] theorem State.follow_memWf (s u : State) (tid : Nat) (e : State → Option State) (h : u.memWf = true) : (s.follow u tid e).memWf = true := by
  unfold State.follow
  dsimp only
  repeat' split
  all_goals simp [h]

theorem State.both_kept {s : State} {e : State → Option State} (he : KeptOpt (e s)) : KeptOpt (s.both e) := by
  unfold State.both
  cases hr : e s with
  | none => simp
  | some u => exact (keptOpt_some _).2 (foldl_keeps (fun s => s.memWf = true) _ _ (fun u t h => State.follow_memWf _ _ _ _ h) u (he u hr))

@[simp] theorem State.strike_memWf (s : State) (team : Nat) (trailing : Bool) (f : Team → Team) (h : s.memWf = true) : (State.strike s team trailing f).memWf = true := by
  exact (State.memWf_congr rfl rfl).trans h

@[simp] theorem State.flipAt_memWf (s : State) (team : Nat) (p : Spot) (bit : Nat) (trailing : Bool) (h : s.memWf = true) : (State.flipAt s team p bit trailing).memWf = true := by
  unfold State.flipAt
  simp [h]

theorem State.enginePieceEvent_kept (s : State) (card : Nat) (h : s.memWf = true) : Kept (s.enginePieceEvent card) := by
  unfold State.enginePieceEvent
  have hk := s.enginePiece_kept card h
  split
  · rename_i u hu
    exact (kept_next _).2 (hk u hu)
  · simp

/-! ### What may be due -/

/-- An event that keeps both memories in canonical form. -/
def KeepsMem (e : Event) : Prop := ∀ s : State, s.memWf = true → Kept (e s)

theorem Team.events_keep (t : Team) {e : Event} (he : e ∈ t.events) : KeepsMem e := by
  intro s hs
  simp only [Team.events, List.mem_append, List.mem_map, List.mem_flatMap, List.mem_ite_nil_right, List.mem_singleton] at he
  obtain ((((((⟨m, -, rfl⟩ | ⟨-, rfl⟩) | ⟨-, rfl⟩) | ⟨-, rfl⟩) | ⟨-, rfl⟩) | ⟨g, -, (⟨-, rfl⟩ | ⟨-, rfl⟩) | ⟨f, -, ⟨-, rfl⟩ | ⟨-, rfl⟩⟩⟩) |
    ⟨tr, -, rfl⟩) := he
  · exact execTelltaleMismatch_kept _ _ s hs
  · exact execTaskRollback_kept _ s hs
  · exact execReslice_kept _ s hs
  · exact execTaskBoundary_kept _ s hs
  · exact execTeamEnd_kept _ s hs
  · exact execPreemptGraceExpiry_kept _ _ s hs
  · exact execHang_kept _ _ s hs
  · exact execExitArrival_kept _ _ _ s hs
  · exact execFragmentAgeing_kept _ _ _ s hs
  · exact execTrapReport_kept _ _ s hs

theorem Command.events_keep (c : Command) {e : Event} (he : e ∈ c.events) : KeepsMem e := by
  intro s hs
  unfold Command.events at he
  split at he <;> simp only [List.mem_cons, List.not_mem_nil, or_false] at he
  · subst he; exact execLaunch_kept _ s hs
  · subst he; exact execSyslaunch_kept _ s hs
  · subst he; exact execCopy_kept _ s hs
  · subst he; exact execCtxnew_kept _ s hs
  · subst he; exact execCtxdel_kept _ s hs
  · subst he; exact execMapcode_kept _ s hs
  · subst he; exact execTlbinvCommand_kept _ s hs
  · obtain rfl | rfl | rfl := he
    · exact execResumeRetry_kept _ s hs
    · exact execResumeSkip_kept _ s hs
    · exact execResumeKill_kept _ s hs
  · subst he; exact execGrload_kept _ s hs
  · subst he; exact execGrstart_kept _ s hs
  · subst he; exact execDebugCommand_kept _ s hs
  · subst he; exact execSignal_kept _ s hs
  · obtain rfl | rfl | rfl := he
    · exact execPreemptVacate_kept _ s hs
    · exact execPreemptResize_kept _ s hs
    · exact execPreemptReleaseHold_kept _ s hs
  · obtain rfl | rfl | rfl := he
    · exact execS2resumeRetry_kept _ s hs
    · exact execS2resumeSkip_kept _ s hs
    · exact execS2resumeKill_kept _ s hs
  · subst he; exact execS2inv_kept _ s hs

/-- Whatever may be due keeps both memories in canonical form. -/
theorem State.events_keep (r : State) {e : Event} (he : e ∈ r.events) : KeepsMem e := by
  simp only [State.events, partEvents, List.mem_append, List.mem_map, List.mem_flatMap, List.mem_ite_nil_left, List.mem_ite_nil_right,
    List.mem_singleton] at he
  obtain ((((((((((((((((⟨p, -, rfl⟩ | ⟨t, -, he⟩) | ⟨p, -, rfl⟩) | ⟨f, -, rfl⟩) | ⟨c, -, he⟩) | ⟨p, -, -, rfl⟩) | ⟨-, rfl⟩) | ⟨b, -, rfl⟩) |
    ⟨-, rfl⟩) | ⟨-, rfl⟩) | ⟨c, -, rfl⟩) | ⟨c, -, rfl⟩) | ⟨p, -, rfl⟩) | ⟨p, -, rfl⟩) | ⟨t, -, rfl⟩) | ⟨g, -, rfl⟩) | ⟨b, -, rfl⟩) := he
  · exact execPartitionStart_kept _
  · exact t.events_keep he
  · exact execContextSave_kept _
  · exact execReportRingWrite_kept _
  · split at he
    · obtain rfl := List.mem_singleton.1 he
      exact execCommandCompletion_kept _
    · split at he
      · cases he
      · exact c.events_keep he
  · exact execCommandAcceptance_kept _
  · exact execCommandAcceptance_kept _
  · exact execBerthDecision_kept _
  · exact execCardAcceptance_kept
  · exact execCardDispatch_kept
  · exact execCardCompletion_kept _
  · exact fun s hs => s.enginePieceEvent_kept _ hs
  · exact execGraphStart_kept _
  · exact execGraphNode_kept _
  · exact execTeamResume_kept _
  · exact execTeamPlacement_kept _
  · exact execL2Window_kept _

theorem State.firstDue_kept (s : State) (h : s.memWf = true) : KeptOpt s.firstDue := by
  intro t ht
  obtain ⟨e, he, hn⟩ := List.exists_of_findSome?_eq_some ht
  exact State.both_kept (nextOf_kept (s.events_keep he s h)) t hn

/-! ### What a core issues -/

@[simp] theorem State.cachedWord_memWf (s : State) (t : Team) (va pa : Nat) (h : s.memWf = true) : (State.cachedWord s t va pa).1.memWf = true := by
  unfold State.cachedWord
  dsimp only
  repeat' split
  all_goals simp [h]

@[simp] theorem State.codeUnit_memWf (s : State) (t : Team) (va n : Nat) (h : s.memWf = true) : (State.codeUnit s t va n).1.memWf = true := by
  unfold State.codeUnit
  repeat' (split <;> (try obtain rfl := congrArg Prod.fst ‹_ = ((_ : State), _)›) <;> (try dsimp only))
  all_goals simp +contextual (maxDischargeDepth := 20) [h]

@[simp] theorem State.decodeAt_memWf (s : State) (t : Team) (va : Nat) (h : s.memWf = true) : (State.decodeAt s t va).1.memWf = true := by
  unfold State.decodeAt
  repeat' (split <;> (try obtain rfl := congrArg Prod.fst ‹_ = ((_ : State), _)›) <;> (try dsimp only))
  all_goals simp +contextual (maxDischargeDepth := 20) [h]

@[simp] theorem State.fetchWords_memWf (s : State) (t : Team) (va : Nat) (h : s.memWf = true) : (State.fetchWords s t va).1.memWf = true := by
  unfold State.fetchWords
  repeat' (split <;> (try obtain rfl := congrArg Prod.fst ‹_ = ((_ : State), _)›) <;> (try dsimp only))
  all_goals simp +contextual (maxDischargeDepth := 20) [h]

@[simp] theorem State.fateWords_memWf (s : State) (t : Team) (va : Nat) (x : Fetched) (h : s.memWf = true) : (State.fateWords s t va x).1.memWf = true := by
  unfold State.fateWords
  repeat' (split <;> (try obtain rfl := congrArg Prod.fst ‹_ = ((_ : State), _)›) <;> (try dsimp only))
  all_goals simp +contextual (maxDischargeDepth := 20) [h]

@[simp] theorem State.fetchGroup_memWf (s : State) (t : Team) (gi : Nat) (g : Group) (va : Nat) (h : s.memWf = true) : (State.fetchGroup s t gi g va).1.memWf = true := by
  unfold State.fetchGroup
  repeat' (split <;> (try obtain rfl := congrArg Prod.fst ‹_ = ((_ : State), _)›) <;> (try dsimp only))
  all_goals simp +contextual (maxDischargeDepth := 20) [h]

theorem fetchTrap_kept (e : FetchErr) (s : State) (h : s.memWf = true) : Kept (fetchTrap e s) :=
  issueForm_kept (fun q hq => q.account_memWf hq) (fun _ _ => trivial) h

theorem streamFetchTrap_kept (e : FetchErr) (s : State) (h : s.memWf = true) : Kept (streamFetchTrap e s) :=
  streamWord_kept (fun _ _ => trivial) h

@[simp] theorem State.codeFor_memWf (s : State) (t : Team) (gi : Nat) (g : Group) (va : Nat) (h : s.memWf = true) :
    (s.codeFor t gi g va).1.memWf = true := by
  have hf := s.fetchGroup_memWf t gi g va h
  unfold State.codeFor
  split <;> rename_i he <;> rw [he] at hf <;> exact hf

theorem State.issueCode_kept (s : State) (t : Team) (gi fi : Nat) (f : Frag) (code : Except (FetchErr × Nat) Fetched) (h : s.memWf = true) :
    Kept (s.issueCode t gi fi f code).2.2 := by
  unfold State.issueCode
  split
  · exact fetchTrap_kept _ _ h
  · exact exec_kept _ _ h

@[simp] theorem State.poisonAt_memWf (s : State) (addr : Nat) (h : s.memWf = true) : (State.poisonAt s addr).memWf = true := by
  unfold State.poisonAt
  simp [h]

@[simp] theorem State.l2ErrorAt_memWf (s : State) (addr : Nat) (owner : Option Nat) (h : s.memWf = true) : (State.l2ErrorAt s addr owner).memWf = true := by
  unfold State.l2ErrorAt
  repeat' split
  all_goals simp [h]

@[simp] theorem State.l2TagErrorAt_memWf (s : State) (addr : Nat) (owner : Option Nat) (h : s.memWf = true) : (State.l2TagErrorAt s addr owner).memWf = true := by
  unfold State.l2TagErrorAt
  repeat' (split <;> (try dsimp only))
  all_goals simp +contextual (maxDischargeDepth := 20) [h]

@[simp] theorem State.l2CorrectedAt_memWf (s : State) (bank : Nat) (h : s.memWf = true) : (State.l2CorrectedAt s bank).memWf = true := by
  exact (State.memWf_congr rfl rfl).trans h

@[simp] theorem State.codeDropAt_memWf (s : State) (core va : Nat) (h : s.memWf = true) : (State.codeDropAt s core va).memWf = true := by
  exact (State.memWf_congr rfl rfl).trans h

@[simp] theorem State.tick_memWf (s : State) (h : s.memWf = true) : s.tick.memWf = true :=
  foldl_keeps (fun s => s.memWf = true) _ _ (fun s k h => keptOpt_getD (nextOf_kept (execChargeRecordUpdate_kept k s h)) h) s h

@[simp] theorem State.settleRails_memWf (s : State) (h : s.memWf = true) : s.settleRails.memWf = true :=
  foldl_keeps (fun s => s.memWf = true) _ _ (fun s k h => keptOpt_getD (nextOf_kept (execRailRaiseSettled_kept k s h)) h) s h

@[simp] theorem State.lowerRails_memWf (s : State) (h : s.memWf = true) : s.lowerRails.memWf = true :=
  foldl_keeps (fun s => s.memWf = true) _ _ (fun s k h => keptOpt_getD (nextOf_kept (execRailLowerHoldExpiry_kept k s h)) h) s h

@[simp] theorem State.idle_memWf (s : State) (h : s.memWf = true) : s.idle.memWf = true :=
  State.railsDown_memWf _ (State.lowerRails_memWf _ (State.settleRails_memWf s h))

@[simp] theorem State.wake_memWf (s : State) (h : s.memWf = true) : (State.wake s).memWf = true := by
  unfold State.wake
  simp +contextual (maxDischargeDepth := 20) [h]

@[simp] theorem State.compared_memWf (s : State) (h : s.memWf = true) : (State.compared s).memWf = true := by
  exact (State.memWf_congr rfl rfl).trans h

/-! ### The step -/

theorem keptOpt_bind {α : Type} {o : Option α} {f : α → Option State} (hf : ∀ a, o = some a → KeptOpt (f a)) : KeptOpt (o.bind f) := by
  intro t ht
  obtain ⟨a, ha, hb⟩ := Option.bind_eq_some_iff.1 ht
  exact hf a ha t hb

theorem keptOpt_map {α : Type} {o : Option α} {f : α → State} (hf : ∀ a, o = some a → (f a).memWf = true) : KeptOpt (o.map f) := by
  intro t ht
  obtain ⟨a, ha, rfl⟩ := Option.map_eq_some_iff.1 ht
  exact hf a ha

/-- An offer is what an issue comes to, so it keeps both memories in canonical form. -/
theorem State.offer_kept {s : State} (h : s.memWf = true) {core : Nat} {k : Core} {team gi : Nat} {o : Offer}
    (ho : s.offer core k team gi = some o) : o.after.memWf = true := by
  unfold State.offer at ho
  split at ho
  · cases ho
  · dsimp only at ho
    split at ho
    · cases ho
    · split at ho
      · cases ho
      · split at ho
        · cases ho
        · split at ho
          · cases ho
          · cases ho
            exact nextOf_kept (State.issueCode_kept _ _ _ _ _ _ (s.codeFor_memWf _ _ _ _ h)) _ ‹_›

theorem State.mateOffer_kept {s : State} {core : Nat} {k : Core} {o m : Offer} (h : o.after.memWf = true)
    (hm : s.mateOffer core k o = some m) : m.after.memWf = true := by
  obtain ⟨t, -, hm⟩ := Option.bind_eq_some_iff.1 hm
  obtain ⟨p, -, hm⟩ := Option.bind_eq_some_iff.1 hm
  split at hm
  · obtain ⟨x, hx, hm⟩ := Option.bind_eq_some_iff.1 hm
    split at hm
    · cases hm
      exact State.offer_kept h hx
    · cases hm
  · cases hm

theorem State.oldest_kept {s : State} (h : s.memWf = true) {core : Nat} {k : Core} {pipe : Nat} {p : Option Port} {o : Offer}
    (ho : s.oldest core k pipe p = some o) : o.after.memWf = true := by
  obtain ⟨a, -, ho⟩ := List.exists_of_findSome?_eq_some ho
  obtain ⟨x, hx, ho⟩ := Option.bind_eq_some_iff.1 ho
  split at ho
  · cases ho
  · cases ho
    exact State.offer_kept h hx

theorem State.flatten_mem {s : State} {core : Nat} {k : Core} {l : List Offer} {o : Offer} (ho : s.flatten core k l = some o) : o ∈ l := by
  unfold State.flatten at ho
  split at ho
  · cases ho
    exact List.mem_of_find?_eq_some ‹_›
  · split at ho
    · cases ho
      exact List.mem_of_find?_eq_some ‹_›
    · exact List.mem_of_mem_head? ho

theorem State.pickLate_kept {s : State} (h : s.memWf = true) {core : Nat} {k : Core} {f : Offer → Bool} {b : Offer} (hb : b.after.memWf = true)
    {x : Nat × Offer × List Offer} (hx : s.pickLate core k f b = some x) : x.2.1.after.memWf = true := by
  unfold State.pickLate at hx
  split at hx
  · obtain ⟨o, ho, rfl⟩ := Option.map_eq_some_iff.1 hx
    obtain ⟨hm, -⟩ := List.mem_filter.1 (List.mem_of_mem_take (State.flatten_mem ho))
    obtain ⟨a, -, ha⟩ := List.mem_filterMap.1 hm
    exact State.offer_kept h ha
  · cases hx
    exact hb

theorem State.pick_kept {s : State} (h : s.memWf = true) {core : Nat} {k : Core} {x : Nat × Offer × List Offer}
    (hx : s.pick core k = some x) : x.2.1.after.memWf = true := by
  unfold State.pick at hx
  split at hx
  · split at hx
    · split at hx
      · cases hx
        exact State.oldest_kept h ‹_›
      · exact State.pickLate_kept h (State.oldest_kept h ‹_›) hx
    · cases hx
      exact State.oldest_kept h ‹_›
  · cases hx
    exact State.oldest_kept h ‹_›
  · cases hx
  · exact State.pickLate_kept h (State.oldest_kept h ‹_›) hx

theorem State.chosen_kept {s : State} (h : s.memWf = true) {core : Nat} {x : Nat × List Offer × List Offer} (hx : s.chosen core = some x) :
    ∀ o ∈ x.2.1, o.after.memWf = true := by
  obtain ⟨k, -, hx⟩ := Option.bind_eq_some_iff.1 hx
  obtain ⟨y, hy, rfl⟩ := Option.map_eq_some_iff.1 hx
  have h1 := State.pick_kept h hy
  intro o ho
  obtain rfl | ho := List.mem_cons.1 ho
  · exact h1
  · exact State.mateOffer_kept h1 (Option.mem_toList.1 ho)

theorem State.followed_kept (s : State) (l : List Offer) (h : ∀ o ∈ l, o.after.memWf = true) : KeptOpt (s.followed l) := by
  unfold State.followed
  split
  · simp
  · exact (keptOpt_some _).2 (State.follow_memWf _ _ _ _ (h _ (by simp)))
  · refine (keptOpt_some _).2 (State.follow_memWf _ _ _ _ ?_)
    split <;> simp [h]

theorem State.issueOn_kept (s : State) (core : Nat) (h : s.memWf = true) : KeptOpt (s.issueOn core) :=
  keptOpt_bind (fun _ hx => keptOpt_map (fun u hu => (u.modCore_memWf _ _).trans (s.followed_kept _ (State.chosen_kept h hx) u hu)))

theorem State.issueAny_kept (s : State) (h : s.memWf = true) : KeptOpt s.issueAny := by
  intro t ht
  obtain ⟨k, -, hk⟩ := List.exists_of_findSome?_eq_some ht
  exact s.issueOn_kept _ h t hk

theorem State.streamIssue_kept (s : State) (team : Nat) (code : Except FetchErr Nat) (h : s.memWf = true) : KeptOpt (s.streamIssue team code) := by
  refine keptOpt_bind (fun t _ => keptOpt_bind (fun st _ => ?_))
  dsimp only
  split
  · exact nextOf_kept (streamFetchTrap_kept _ _ h)
  · exact nextOf_kept (exec_kept _ _ h)

theorem State.streamStep_kept (s : State) (team : Nat) (h : s.memWf = true) : KeptOpt (s.streamStep team) := by
  refine keptOpt_bind (fun r hr => State.both_kept (State.streamIssue_kept _ _ _ ?_))
  obtain ⟨t, -, hr⟩ := Option.bind_eq_some_iff.1 hr
  obtain ⟨st, -, rfl⟩ := Option.map_eq_some_iff.1 hr
  exact s.codeUnit_memWf _ _ _ h

theorem State.turn_kept (s : State) (a : Turn) (h : s.memWf = true) : KeptOpt (s.turn a) := by
  cases a with
  | event i => exact State.both_kept (nextOf_kept (exec_kept i s h))
  | issue core => exact s.issueOn_kept core h
  | stream team => exact s.streamStep_kept team h
  | enginePiece card => exact s.enginePiece_kept card h
  | _ => simp [State.turn, h]

theorem State.cycle_kept (s : State) (h : s.memWf = true) : KeptOpt s.cycle := by
  unfold State.cycle
  have ht := State.settleRails_memWf _ (s.tick_memWf h)
  dsimp only
  split <;> split
  · simp
  · simp [ht]
  · simp
  · simp [h]

/-- What waits is looked at with both memories in canonical form. -/
@[simp] theorem State.settled_memWf (s : State) (h : s.memWf = true) : s.settled.memWf = true := by
  have hb : KeptOpt (s.both (fun s => some s.wake)) := State.both_kept ((keptOpt_some _).2 (s.wake_memWf h))
  exact State.revote_memWf _ (State.compared_memWf _ (keptOpt_getD hb h))

/-- Whatever happens next, both memories stay in canonical form. -/
@[simp] theorem State.advance_memWf (s : State) (h : s.memWf = true) : s.advance.memWf = true := by
  unfold State.advance
  split
  · exact keptOpt_getD (nextOf_kept (execPowerUp_kept s h)) h
  · split
    · dsimp only
      split
      · exact keptOpt_getD (State.turn_kept _ _ h) h
      · exact h
    · split
      · exact s.writeHead_memWf.trans h
      · split
        · exact h
        · split
          · exact s.firstDue_kept h _ ‹_›
          · split
            · exact s.issueAny_kept h _ ‹_›
            · exact keptOpt_getD (s.cycle_kept h) (s.idle_memWf h)

end Sys2Proof.Machine
end

