-- ==== Sys2Proof/Tests/Slice0.lean ====
section
/-!
SUPPORT. The tests: ill-formed terms that WellFormed refuses, words written out from the spec's encodings, single steps with results worked
out from the rules, and for every statement of Certificates/Slice0 states and operands that meet its hypotheses, clause by clause.
-/
namespace Sys2Proof.Tests
open Sys2Proof Sys2Proof.Machine

-- one theorem after the other: a theorem that the kernel decides would hold a thread while it waits for those before it
set_option Elab.async false

/-! ### States to test with -/

/-- No prefix, no literal. -/
def e0 : Ext := ⟨none, none⟩

/-- The prefix word with every field zero. -/
def p0 : Pfx := Pfx.ofWord 0xFE000000

/-- A running part with one team of one group of 32 lanes, whose first fragment issues; the guard lets lane 0 alone take part. -/
def base : State := { State.reset.placeWord 32 0 with cur := some { team := 0, g := 0, f := 0, addr := 0x10100, trapLen := 4 } }

/-- Change the team. -/
def onT (f : Team → Team) (s : State) : State := s.modTeam 0 f

/-- Change the group. -/
def onG (f : Group → Group) (s : State) : State := onT (fun t => t.modGroup 0 f) s

/-- Change the fragment. -/
def onF (f : Frag → Frag) (s : State) : State := onG (fun g => g.modFrag 0 f) s

/-- Change lane 0. -/
def onL (f : Lane → Lane) (s : State) : State := onT (fun t => t.modLane 0 f) s

/-- The mode register. -/
def mr (m : Word) (s : State) : State := onG (fun g => { g with mr := m }) s

/-- Element type e in MR. -/
def et (e : Nat) (s : State) : State := mr (BitVec.ofNat 32 (8 * e)) s

/-- V register n of lane 0. -/
def setV (n : Nat) (x : Word) (s : State) : State := onL (fun l => l.setReg (.v n) x) s

/-- S register n. -/
def setS (n : Nat) (x : Word) (s : State) : State := onG (fun g => g.setS n x) s

/-- EXEC empty. -/
def none0 (s : State) : State := onG (fun g => g.setTriple 8 0) s

/-- The fragment inside the handler, with these window words; lane 0 keeps taking part. -/
def inJr (w : List Word) (s : State) : State :=
  onL (fun l => { l with x1 := true })
    (onF (fun f => { f with jr := [{ w := w, jrpc := 0x10200, jrnext := 0x10204, wins := [], wait := .none, stream := false, pc := 0x10200 }] }) s)

/-- A join chain of n entries, the top one a call entry or not. -/
def chain (n : Nat) (call : Bool) (s : State) : State :=
  onF (fun f => { f with chain := (List.range n).map (fun k => { id := k, jaddr := 0x10300, key := 0, callEnt := call && k == 0 }) }) s

/-- A kernel with a handler whose role reserves its bank registers. -/
def withHandler (s : State) : State :=
  onT (fun t => { t with hdr := { t.hdr with jrhandler := 0x200, roles := t.hdr.roles.map (fun r => { r with reserve := true }) } }) s

/-- A page of data, virtual 0x20000 to physical 0x40000, of a memory type. -/
def page (mt : MemType) (s : State) : State :=
  s.modCore 0 (fun c => { c with tlb := { ctx := 1, vpage := 0x20, size := 12, ppage := 0x40, w := true, x := false, mt := mt } :: c.tlb })

/-- SG0 with nothing in it. -/
def noSeg0 (s : State) : State := onG (fun g => { g with seg := listModify g.seg 0 (fun _ => { base := 0, limit := 0 }) }) s

/-- A card that copies 64 bytes inside the data page. -/
def fillCard : List Word := (copyCard 0x20000 0x20800 64).set 0 0x001

/-- Write words at a physical address. -/
def putWords (pa : Nat) (ws : List Word) (s : State) : State := s.physWrite pa (4 * ws.length) (natOfBytes (ws.flatMap (fun w => bytesOfNat 4 w.toNat)))

/-- The place of the control block of chain 0. -/
def ccb0 : Loc := { pa := 0x40000, cut := 64, pa2 := 0 }

/-- SG5 over the data page, with chain 0 of class 1 at 0x40000, four slots at offset 0x100, and a card in slot 0. -/
def withChain (s : State) : State :=
  let s := onG (fun g => { g with seg := listModify g.seg 5 (fun _ => { base := 0x20000, limit := 0x1000 }) }) (page .cached s)
  putWords 0x40100 fillCard (((s.physWrite 0x40000 4 0x2FF01).physWrite 0x40008 8 0x100).physWrite 0x40020 8 (2 ^ 64 - 1))

/-- A matrix stream at its first word, its accumulator and images clear. -/
def withStream (s : State) : State :=
  onT (fun t => { t with
    hdr := { t.hdr with mstream := 0x400 },
    body := { t.body with stream := some { addr := 0x10400, t := List.replicate 16 0, a := [{}, {}], b := List.replicate 8 {} } } }) s

/-- The stream issues. -/
def asStream (s : State) : State := { s with cur := some { team := 0, g := 0, f := 0, addr := 0x10400, stream := true } }

/-- A kernel of a level. -/
def atLevel (n : Nat) (s : State) : State := onT (fun t => { t with hdr := { t.hdr with level := n, taskfoot := 8 } }) s

/-- n accesses in flight on a path. -/
def flying (n path : Nat) (s : State) : State :=
  onG (fun g => { g with flight := (List.range n).map (fun k =>
    { id := 100 + k, path := path, addr := 0, kind := .card, parts := [], got := [], hint := 0, mr := 0, poisoned := none }) }) s

/-- A graph of the partition, and queued starts. -/
def withGraph (starts : Nat) (s : State) : State :=
  s.modPart 0 (fun p => { p with graphs := [{ num := 3, ctx := 1, nodes := [] }], starts := List.replicate starts (3, 0) })

/-- What the instruction does for the state. -/
def after (i : Instr) (s : State) : Option State := match exec i s with
  | .next t => some t
  | _ => none

/-- V register n of lane 0. -/
def getV (n : Nat) (o : Option State) : Option Word := (o.bind (fun s => s.team? 0)).map (fun t => (t.lane 0).v.get n)

/-- S register n of the group. -/
def getS (n : Nat) (o : Option State) : Option Word := (o.bind (fun s => s.group? 0 0)).map (fun g => g.s.get n)

/-- The class and the parking of the newest trap. -/
def trapOf (o : Option State) : Option Nat := (o.bind (fun s => s.team? 0)).bind (fun t => t.traps.getLast?.map (·.cls))

/-! ### Witnesses of an unhindered issue -/

/-- An instruction, a state, the registers written where they are not those of the form, and what more the clause asks. -/
structure Wit where
  i : Instr
  s : State := base
  ts : Option (List Target) := none
  p : Iss → Bool := fun _ => true

/-- The issuer of the witness, as its effect reads it. -/
def Wit.iss (w : Wit) : Option Iss :=
  w.i.form.bind (fun fm => (w.s.issuer fm).bind (fun q => (w.s.atIssue w.i q.c).issuer fm))

/-- The decidable content of `IssuesTo`, of the further premise, and that exec answers a next state. -/
def Wit.ok (w : Wit) : Bool :=
  match w.i.form, w.iss with
  | some fm, some q =>
    ((w.s.issuer fm).map Iss.c == some q.c) && q.pcMatch.isNone && q.fm.ok (q.t.hdr.budget q.g.role) && !q.fm.overlaps
      && q.regError.isNone
      && !lkhdHit q.g q.f q.c.f (q.t.hdr.reserveSpan q.g.role).1 (q.t.hdr.reserveSpan q.g.role).2 (w.ts.getD q.fm.targets) && w.p q
      && (after w.i w.s).isSome
  | _, _ => false

/-- What a witness shows: an issuer that issues unhindered, with the further premise, and a next state. -/
theorem Wit.shows (w : Wit) (h : w.ok = true) :
    ∃ q, IssuesTo w.i (w.ts.getD q.fm.targets) w.s q ∧ w.p q = true ∧ ∃ t, exec w.i w.s = .next t := by
  unfold Wit.ok at h
  split at h
  · rename_i fm q hf hq
    simp only [Bool.and_eq_true, Bool.not_eq_true', beq_iff_eq, Option.isNone_iff_eq_none] at h
    obtain ⟨⟨⟨⟨⟨⟨⟨h1, h2⟩, h3⟩, h4⟩, hu⟩, h5⟩, h6⟩, h7⟩ := h
    simp only [Wit.iss, hf, Option.bind_some] at hq
    obtain ⟨q0, hq0, hq1⟩ := Option.bind_eq_some_iff.1 hq
    have hfm : q.fm = fm := (State.issuer_eq_some.1 hq1).2.2.2.2.2.2.1
    have hc : q0.c = q.c := by rw [hq0] at h1; exact Option.some.inj h1
    refine ⟨q, ⟨hfm ▸ hf, hfm ▸ h1, ?_, h2, h3, h4, hu, h5⟩, h6, ?_⟩
    · rw [hfm, ← hc]; exact hq1
    · unfold after at h7
      split at h7
      · exact ⟨_, by assumption⟩
      · cases h7
  · cases h

/-- Every witness of a list shows what it says. -/
def allOk (l : List Wit) : Bool := l.all Wit.ok

theorem allOk_shows (l : List Wit) (h : allOk l = true) (w : Wit) (hw : w ∈ l) :
    ∃ q, IssuesTo w.i (w.ts.getD q.fm.targets) w.s q ∧ w.p q = true ∧ ∃ t, exec w.i w.s = .next t :=
  w.shows (List.all_eq_true.1 h w hw)

/-- The access passes its checks, and its path has room. -/
def passes (x : Iss → Access) (q : Iss) : Bool :=
  (match q.counted.checked (x q) with
   | .ok _ => true
   | .error _ => false) && decide (q.g.counter (x q).path < 63)

/-- The access fails a check. -/
def failsCheck (x : Iss → Access) (q : Iss) : Bool :=
  match q.counted.checked (x q) with
  | .ok _ => false
  | .error _ => true

/-- The fate of a disabled major: the handler can be entered (R351). -/
def entersHandler (q : Iss) : Bool := !q.s.skuOn 6 && decide (q.f.jr.length < 2) && handlerReady q.t q.g

/-- A float type with no flag enabled: nothing raised traps (R162). -/
def floatQuiet (q : Iss) : Bool := etFloat q.etype && mrExcen q.g.mr == 0

/-- The chain's control block translates. -/
def chainOk (q : Iss) : Bool :=
  match q.counted.ccb 0 with
  | .ok (s, a) => decide (a = ccb0) && decide (s.ccbLog2 a = 2)
  | .error _ => false

/-! ### Witnesses of stream words and events -/

/-- A step that is no group instruction, a state, and the premise of the clause. -/
structure Ev where
  i : Instr
  s : State
  p : State → Bool := fun _ => true

/-- The premise holds and exec answers a next state. -/
def evOk (l : List Ev) : Bool := l.all (fun e => (after e.i e.s).isSome && e.p e.s)

theorem evOk_shows (l : List Ev) (h : evOk l = true) (e : Ev) (he : e ∈ l) : e.p e.s = true ∧ ∃ t, exec e.i e.s = .next t := by
  have := List.all_eq_true.1 h e he
  simp only [Bool.and_eq_true, after] at this
  refine ⟨this.2, ?_⟩
  have h1 := this.1
  split at h1
  · exact ⟨_, by assumption⟩
  · cases h1

/-- A running device: tenant 0 with four clusters, channel 0 and 32 berths in partition 0; context 1 maps the first 2 MiB onto itself. -/
def dev : State :=
  let s := { base with
    cur := none,
    tenants := listModify base.tenants 0 (fun t => { t with en := true, cardq := 64, verq := 64, s2root := 0x100000, ialim := 0x200000 }),
    parts := listModify base.parts 0 (fun p => { p with en := true, clu := [0xF, 0], chan := 1, berth := [0xFFFFFFFF, 0] }),
    ctxs := [{ num := 1, tenant := 0, root := 0x100000 }] }
  ((s.physWrite 0x100000 8 0x101003).physWrite 0x101000 8 0x102003).physWrite 0x102000 8 5

/-- A command record: opcode and arguments 0 to 4. -/
def record (op : Nat) (a : List Nat) : List Word :=
  ([BitVec.ofNat 32 op, 0] ++ a.flatMap (fun x => [BitVec.ofNat 32 x, BitVec.ofNat 32 (x / 2 ^ 32)]) ++ List.replicate 14 0).take 16

/-- An accepted command 7 of a function, in context 1 of partition 0. -/
def cmd (fn : Fn) (op : Nat) (a : List Nat) (s : State) : State :=
  { s with cmds := [{ id := 7, fn := fn, queue := 0, part := 0, ctx := 1, pos := 0, words := record op a, code := none }] }

/-- A trap of class c that holds lane 0. -/
def trapAt (c : Nat) : Trap := { id := 5, cls := c, pc := 0x10100, lids := [0], len := 4 }

/-- A card that copies inside the page, on chain 0 of tenant 0. -/
def aCard : Card := { id := 9, owner := .chain 0 ccb0, tenant := 0, part := 0, ctx := 1, pos := 0, words := fillCard }

/-- A mismatch of a store. -/
def aMismatch : Mismatch :=
  { kind := 1, lid := 0, elem := 0, group := 0, pc := 0x10100, leadMask := 1, trailMask := 1, leadAddr := 0, trailAddr := 0, leadData := 0, trailData := 1 }

/-- A stream that issues. -/
def strm : State := asStream (withStream base)

/-- Change barrier 1. -/
def onBar (f : Barrier → Barrier) (s : State) : State := onT (fun t => t.modBody (fun b => { b with barriers := listModify b.barriers 1 f })) s

/-- The stream inside one more loop, the widest. -/
def inLoop (s : State) : State := onT (fun t => t.modStream (fun st =>
  { st with loops := { start := 0x10400, stop := 0x20000, index := 0, count := 2 } :: st.loops })) s

/-- An MDRAIN of f32 into the place of the descriptor at offset 0. -/
def f0 : DrainFields := ⟨0, 0, 0, 0, 0, 0, 0, 0, 0, 0, 0⟩

/-- Core 0 with no resident group. -/
def clearCore (s : State) : State := s.modCore 0 (fun c => { c with age := [] })

/-- A send of 64 bytes. -/
def sendCard : List Word := (copyCard 0x20000 0 64).set 0 0x020

/-- A card that copies 64 bytes from an address, running on engine 0. -/
def onAddr (va : Nat) : Card := { aCard with words := (copyCard va 0x21000 64).set 0 0x001, engine := some 0 }

/-- Both Quay links up. -/
def linkUp (s : State) : State := { s with quay := s.quay.map (fun q => { q with en := true, up := true }) }

/-- Queue 0 of tenant 0: its QCB at 0x3000, one record at 0x4000, whose first word is w. -/
def withQueue (w : Nat) (s : State) : State :=
  let s := s.modFn (.vf 0) (fun r => { r with qcb := r.qcb.set 0 0x3000, pending := [0] })
  (((s.physWrite 0x3000 8 0x4000).physWrite 0x300A 2 1).physWrite 0x3010 4 1).physWrite 0x4000 4 w

/-- That queue on berth 0. -/
def onBerth (s : State) : State := { s with berths := listModify s.berths 0 (fun _ => { queue := some (0, 0), tail := 1 }) }

/-- The same queue as the PF's queue 255. -/
def pfQueue (s : State) : State :=
  let s := withQueue 0x0C s
  { s with pfRegs := { qcb := ([] : List (Nat × BitVec 64)) ++ [(255, 0x3000)], pending := [255] } }

/-- A running graph whose ready node 1 has a kind and an argument. -/
def inRun (k arg : Nat) (s : State) : State :=
  s.modPart 0 (fun p => { p with
    graphs := [{ num := 3, ctx := 1, nodes := [[], [BitVec.ofNat 32 (0xFFFF0100 + k), 0xFFFF, BitVec.ofNat 32 arg, 0, 0, 0, 0, 0]] }],
    ready := [(3, 1)], runs := [{ graph := 3, arg := 0, running := [], arrivals := [], error := false }] })

/-- A launch record at 0x8000 of an image at 0x9000: one role, one group of 32 lanes. -/
def withLaunch (s : State) : State :=
  [(0x8000, 8, 0x9000), (0x8008, 4, 1), (0x9000, 4, 0x314B5356), (0x9004, 2, 0x0302), (0x900C, 2, 32), (0x900E, 1, 32), (0x900F, 1, 1),
   (0x9010, 4, 0x100), (0x9018, 2, 0x500), (0x901A, 2, 0x700), (0x901C, 2, 0x740), (0x9020, 1, 1), (0x9021, 1, 32), (0x906F, 1, 0x30), (0x9070, 8, 0x200), (0x907F, 1, 0x10),
   (0x909F, 1, 0x30), (0x90AF, 1, 0x20), (0x903C, 2, 0)].foldl (fun s x => s.physWrite x.1 x.2.1 x.2.2) s

/-- A reported trap of lane 0, served by a stage or not, and late or not. -/
def held (served : Option Nat) (late : Bool) (s : State) : State :=
  onT (fun t => { t with traps := [{ trapAt 3 with served := served, late := late, reported := true }] }) s

/-! ### Ill-formed terms, one for each check of WellFormed -/

theorem test_wf_accepts : (Instr.iadd e0 6 4 5).wf = true ∧ (Instr.iadd ⟨none, some 100⟩ 6 4 0x76).wf = true
    ∧ (Instr.juryrig (.group none 0x30000000 none)).wf = true ∧ (Instr.vendorTest (.stream 0xE000000000000000)).wf = true := by decide +kernel

theorem test_wf_refuses_values : (Instr.icmp e0 10 6 4 5).wf = false ∧ (Instr.fcmp e0 8 6 4 5).wf = false ∧ (Instr.setmode none 0 0x74 0).wf = false
    ∧ (Instr.ldSAcqW none 0 5 2 2 0).wf = false ∧ (Instr.leave 0).wf = false ∧ (Instr.qnt e0 6 4 12).wf = false := by decide +kernel

theorem test_wf_refuses_lookahead : (Instr.rcp none 15 6 4).wf = false ∧ (Instr.ldGW none 15 6 4 0).wf = true := by decide +kernel

theorem test_wf_refuses_operands : (Instr.mov e0 0x77 4).wf = false ∧ (Instr.mov e0 6 0x77).wf = false ∧ (Instr.mov e0 0x76 4).wf = false
    ∧ (Instr.rcp none 1 0x70 4).wf = false ∧ (Instr.ldGW none 1 6 3 0).wf = false ∧ (Instr.segld 9 0).wf = false ∧ (Instr.aadd e0 7 4 5).wf = false
    ∧ (Instr.sadd none 0x40 1 2).wf = false ∧ (Instr.mand 9 8 11).wf = false ∧ (Instr.setw none 5).wf = false := by decide +kernel

theorem test_wf_refuses_literals : (Instr.iadd e0 6 4 0x76).wf = false ∧ (Instr.iadd ⟨none, some 1⟩ 6 4 5).wf = false
    ∧ (Instr.iadd ⟨none, some 1⟩ 6 0x76 0x76).wf = false := by decide +kernel

theorem test_wf_refuses_prefixes : (Instr.iadd ⟨some { p0 with mdst := true }, none⟩ 6 4 5).wf = false
    ∧ (Instr.iadd ⟨some { p0 with o4en := true, op4 := 3 }, none⟩ 6 4 5).wf = false ∧ (Instr.iadd ⟨some { p0 with eto := 15 }, none⟩ 6 4 5).wf = false
    ∧ (Instr.iadd ⟨some { p0 with rndo := 7 }, none⟩ 6 4 5).wf = false := by decide +kernel

theorem test_wf_refuses_cells : (Instr.juryrig (.group none 0x02000000 none)).wf = false ∧ (Instr.vendorTest (.group none 0x30000000 none)).wf = false
    ∧ (Instr.juryrig (.stream 0)).wf = false ∧ (Instr.illegal (.group none 0 none)).wf = false := by decide +kernel

/-! ### Words of the spec, written out field by field: major, op, d, a, b -/

/-- Each list of words decodes to its instruction. -/
def decodesTo (l : List (List Nat × Instr)) : Bool :=
  l.all (fun p =>
    match decode (wordBytes (p.1.map (BitVec.ofNat 32))) with
    | .ok (i, rest) => i == p.2 && rest == []
    | .error _ => false)

theorem test_decode_1 : decodesTo
    [([0b0000111_0000_1010001_0000110_0000000], .movi none 5 8 0x300),  -- MOVI V5, #0x0003_0000
     ([0b0000101_0000_0000011_1110110_0000000, 0x12345678], .mov ⟨none, some 0x12345678⟩ 3 0x76),  -- MOVI V3, #0x1234_5678
     ([0b0101001_0000_1101110_1000101_0010000], .setmode none 6 0x74 0x290),  -- SETMODE #6, #0x290
     ([0b0111010_0010_0001010_0000010_0000011], .ldGW none 2 0xA 2 3),  -- LD.G.w.lk2 V10, [V2:V3, #12]
     ([0b0000001_1101_0001010_0000010_0000111], .lea e0 0xA 2 7),  -- LEA V10, V2, V7
     ([0b0001001_0000_0101000_0101001_1110110, 0x00000005], .sadd (some 5) 0x28 0x29 0x76),  -- SADD S40, S41, #5
     ([0b0001000_0000_1100000_0001110_0111000], .ldi none 6 0x738),  -- LDI V6, #-200
     ([0b1111111_0000001000001100010100011, 0b0010000_0011_1001000_0000011_0000101], .ffma ⟨some { p0 with rndo := 2, op4 := 0x62, xd := true, xen := true, o4en := true }, none⟩ 0x48 3 5),  -- FFMA.rtz V200, V3, V5, Q2
     ([0b0000001_0000_0000110_0000100_1110110, 0x00000064], .iadd ⟨none, some 0x64⟩ 6 4 0x76),  -- IADD V6, V4, #100
     ([0b0010100_0011_0000111_0000110_0000101], .lreadFlip e0 7 6 5),  -- LREAD.FLIP V7, V6, V5
     ([0b0010100_1010_0000000_0000000_0000000], .getw 0),  -- GETW V0
     ([0b0010100_1011_0000000_1110110_0000000, 0x00000040], .setw (some 0x40) 0x76),  -- SETW #64
     ([0b1111111_0000000000000000000000100, 0b0010100_0101_0001011_0000100_0000000], .voteAny ⟨some { p0 with mdst := true }, none⟩ 0xB 4),  -- VOTE.ANY S11:S13, V4
     ([0b0010110_0001_0001001_0001000_0000000], .redAdd none 1 9 8),  -- RED.ADD.lk1 V9, V8
     ([0b0000001_0100_0001000_0000010_0000011], .imad e0 8 2 3),  -- IMAD V8, V2, V3
     ([0b0000010_0110_0000100_0000001_0000010], .icmp e0 6 4 1 2),  -- ICMP.ltu V4, V1, V2
     ([0b0000101_0001_0000011_0101000_0000000], .s2v 3 0x28),  -- S2V V3, S40
     ([0b0000101_0010_0101000_0000011_0000000], .v2s none 0x28 3),  -- V2S S40, V3
     ([0b0000110_0000_0001001_0000111_0001000], .idiv e0 9 7 8),  -- IDIV V9, V7, V8
     ([0b0001010_0010_0000010_0000011_0000100], .scmp none 2 2 3 4),  -- SCMP.lt S2, S3, S4
     ([0b0010000_0000_0000011_0000001_0000010], .fadd e0 3 1 2),  -- FADD V3, V1, V2
     ([0b0010001_0010_0000100_0000001_0000010], .fcmp e0 2 4 1 2)  -- FCMP.lt V4, V1, V2
    ] = true := by decide +kernel

theorem test_decode_2 : decodesTo
    [([0b0010000_1100_0001011_0001000_0001010], .fscale e0 0xB 8 0xA),  -- FSCALE V11, V8, V10
     ([0b0010000_1000_0000110_0001000_0000000], .fabs e0 6 8),  -- FABS V6, V8
     ([0b0010010_0010_0000110_0000111_0010100], .cvtF2f e0 6 7 1 4),  -- CVT.F2F V6, V7, bf16x2.hi
     ([0b0010010_0101_0001001_0000111_0001100], .mxsc e0 9 7 0xC),  -- MXSC V9, V7, mxe4m3
     ([0b0010010_1001_0000000_1110110_0000000, 0x0000001F], .flags (some 0x1F) 0 0x76),  -- FLAGS V0, #0x1F
     ([0b0010011_0010_0000101_0000100_0000001], .rsq none 2 5 4),  -- RSQ.lk2 V5, V4
     ([0b0100100_0010_0000000_0000000_0000000], .leave 2),  -- LEAVE #2
     ([0b0100111_0000_0000000_0000110_0000000], .calli 6),  -- CALLI V6:V7
     ([0b0100111_0011_0000000_1110100_1110100], .exit none 0x74 0x74),  -- EXIT
     ([0b0100111_0100_0000000_0000000_0000000], .nop),  -- NOP
     ([0b0101000_0000_0001000_0001011_0001110], .mand 8 0xB 0xE),  -- MAND S8:S10, S11:S13, S14:S16
     ([0b0101000_0101_0101000_0001011_0000000], .mpop 0x28 0xB),  -- MPOP S40, S11:S13
     ([0b0101000_1001_0001011_0000010_0000000], .mfill none 0xB 2),  -- MFILL S11:S13, V2
     ([0b0101010_0000_0000101_0000000_0000000], .getmode 5),  -- GETMODE V5
     ([0b0101010_0001_0000000_0000000_0000011], .bar 3),  -- BAR #3
     ([0b0101010_0001_0000001_0000000_0000000], .barTask 0),  -- BAR.task #0
     ([0b0101010_0011_0000000_1111011_0000010], .barw none 0x7B 2),  -- BARW #2, S3
     ([0b0101010_0100_0000000_1110110_0000001, 0x00000001], .barc (some 1) 0x76 1),  -- BARC #1, #0x01
     ([0b0101010_0110_0000001_0000000_0000000], .teamid 1),  -- TEAMID V1
     ([0b0101010_1001_0000010_0000000_0000001], .lclk 2 1),  -- LCLK.hi V2
     ([0b0101010_1010_0000000_0000000_0000000], .taskend),  -- TASKEND
     ([0b0111111_0000_0000101_0000010_0000000], .ldSW none 0 5 2 0)  -- LD.S.w V5, [V2:V3, #0]
    ] = true := by decide +kernel

theorem test_decode_3 : decodesTo
    [([0b1000111_0000_0000110_0000000_0000011], .ldLB none 0 6 0 3),  -- LD.L.b V6, [V0:V1, #3]
     ([0b1010011_0000_0000100_0000010_0000000], .stSW none 0 4 2 0),  -- ST.S.w V4, [V2:V3, #0]
     ([0b1001111_0001_0001000_0000100_1111111], .stGD none 1 8 4 0x7F),  -- ST.G.d.lk1 V8:V9, [V4:V5, #-8]
     ([0b1101001_1111_0001100_0000010_1100101], .ldv none 0xF 0xC 2 6 1 1),  -- LDV.w.keep.lk15 V12, SG6, [V2:V3]
     ([0b1101011_1111_0000001_0000110_0000000], .cwb 0xF 6 0),  -- CWB.lk15 [V6:V7, #0]
     ([0b1101011_0000_0000010_0000110_0000001], .cinv 0 6 1),  -- CINV [V6:V7, #256]
     ([0b1101100_0000_0000000_1111010_0000011], .waitc none 0x7A 3),  -- WAITC #3, S2
     ([0b1101100_0001_0000100_0000000_0001001], .segrd 4 1 1),  -- SEGRD.lim V4, SG1
     ([0b1101100_0010_0000000_0000000_0000101], .fence 5),  -- FENCE.sys
     ([0b1011011_0000_0000101_0000010_0110010], .ldGAcqW none 0 5 2 3 2),  -- LD.G.acq.w.dev V5, [V2:V3, #8]
     ([0b1011111_0000_0000100_0000110_0110000], .stGRelW none 0 4 6 3 0),  -- ST.G.rel.w.dev V4, [V6:V7, #0]
     ([0b1100000_0000_0001000_0000100_1001111], .stGRelD none 0 8 4 4 0xF),  -- ST.G.rel.d.ten V8:V9, [V4:V5, #-8]
     ([0b1100011_0000_0000110_0000010_0110111], .atomGW none 0 6 2 3 7),  -- ATOM.CAS.G.w.dev V6:V7, [V2:V3]
     ([0b1100100_0000_0001010_0000010_0000110], .atomGD none 0 0xA 2 0 6),  -- ATOM.XCHG.G.d.grp V10:V11, [V2:V3]
     ([0b1100101_0010_0000110_0000010_0010000], .atomSW none 2 6 2 1 0),  -- ATOM.ADD.S.w.team.lk2 V6, [V2:V3]
     ([0b1100111_0000_0000110_0000010_0110000], .redmGW none 0 6 2 3 0),  -- REDM.ADD.G.w.dev V6, [V2:V3]
     ([0b0101011_0000_0000011_0000100_1110100], .ecard none 0 0 3 4 0x74),  -- ECARD.lo #3, V4, ZERO
     ([0b0101100_0000_0000011_1110110_0000000, 0x00000001], .etail (some 1) 3 0x76),  -- ETAIL #3, #1
     ([0b0101100_0001_0000100_0000000_0010011], .eseq 4 1 3),  -- ESEQ.tail V4, #3
     ([0b0101100_0010_0000000_1111010_0000011], .ewait none 0x7A 3),  -- EWAIT #3, S2
     ([0b0101100_0011_0000000_1111001_1111010], .graph none 0x79 0x7A),  -- GRAPH S1, S2
     ([0b0101100_0100_0000000_1110110_1111011, 0x00000005], .gcond (some 5) 0x76 0x7B)  -- GCOND #5, S3
    ] = true := by decide +kernel

theorem test_decode_4 : decodesTo
    [([0b0101101_0010_0101000_0000010_0001100], .ldmb 2 0x28 2 0 0xC),  -- LDMB.G.mxe4m3.lk2 V40, [V2:V3]
     ([0b0101110_0000_0000000_0101000_1111100], .mstart none 0 0 0x28 0x7C),  -- MSTART #0, V40, S4
     ([0b0101111_0000_0000110_0000101_0000000], .maccRd none 6 5),  -- MACC.RD V6, V5
     ([0b0101111_0001_0000000_0000101_0000111], .maccWr none 5 7),  -- MACC.WR V5, V7
     ([0b0110000_0000_0000000_0000000_0000101], .trap 5),  -- TRAP #5
     ([0b0110000_0001_0000000_0000000_0000000], .eret),  -- ERET
     ([0b0110000_0010_0000000_0000000_0000001], .emret 1),  -- EMRET.l
     ([0b0110000_0011_1010000_0000000_0000001], .wrd 0x50 0 1),  -- WRD V80, #1
     ([0b0110000_0100_0000000_1010010_0000000], .wwr none 0x52 0 0),  -- WWR #0, V82
     ([0b0110000_0101_0000100_0000000_0000111], .winfo 4 7),  -- WINFO V4, #7
     ([0b0110000_0110_0000010_0000000_0001010], .csrr 2 0xA),  -- CSRR V2, #10
     ([0b0110000_0111_0000000_1111001_0001010], .csrw none 0x79 0xA),  -- CSRW #10, S1
     ([0b0110000_1000_0000000_0001000_0000110], .segld 8 6),  -- SEGLD SG6, V8:V11
     ([0b0110000_1001_0000000_0000010_0000001], .tlbinvVa 2),  -- TLBINV.va V2:V3
     ([0b0110000_1010_0000000_0000000_0000001], .dbgbrk 1),  -- DBGBRK #1
     ([0b0110000_1011_0000000_0000000_0000000], .halt)  -- HALT
    ] = true := by decide +kernel

/-! ### Witnesses, statement by statement -/

theorem test_witness_IntegerElements : allOk
    (([Instr.iadd, .isub, .imul, .imad, .imulh, .imin, .imax, .isel].map (fun c => { i := c e0 6 4 5, s := mr 0x400 base }) ++
     [Instr.ineg, .iabs].map (fun c => { i := c e0 6 4, s := et 7 base }) ++ [{ i := .iadd e0 6 4 5, s := none0 base }])) = true := by decide +kernel

theorem test_witness_WideAndFoldedIntegers : allOk
    ([{ i := .imadw e0 6 4 5, p := fun q => etWidth q.etype == 32 }, { i := .imadw e0 6 4 5, s := et 5 base, p := fun q => etWidth q.etype != 32 },
     { i := .sad e0 6 4 5 }, { i := .dot4 e0 6 4 5, s := et 7 base, p := fun q => etWidth q.etype != 32 },
     { i := .dot4 e0 6 4 5, p := fun q => etWidth q.etype == 32 }]) = true := by decide +kernel

theorem test_witness_CompareAndShiftElements : allOk
    (([{ i := .icmp e0 0 6 4 5 }, { i := .icmp e0 9 6 4 5 }] ++
      [Instr.shl, .shr, .sar, .rol].map (fun c => { i := c e0 6 4 5, s := setV 5 32 base }))) = true := by decide +kernel

theorem test_witness_BitFieldsAndBytes : allOk
    (([Instr.popc, .clz, .ctz, .brev].map (fun c => { i := c e0 6 4, s := et 6 base }) ++
     [Instr.bfe, .bfi, .bytesel].map (fun c => { i := c e0 6 4 5 }))) = true := by decide +kernel

theorem test_witness_Moves : allOk
    ([{ i := .mov e0 6 4 }, { i := .s2v 6 0x3F }, { i := .v2s none 0x3F 4, p := fun q => q.ex != 0 },
     { i := .v2s none 0 4, s := none0 base, p := fun q => q.ex == 0 }, { i := .movi none 6 31 0x400 }, { i := .movi none 6 0 0 },
     { i := .ldi none 6 0x7FF }, { i := .ldi none 6 0x7FF, s := et 4 base, p := fun q => etFloat q.etype }]) = true := by decide +kernel

theorem test_witness_DivisionFate : allOk
    (([Instr.idiv, .irem].map (fun c => { i := c e0 6 4 5, s := { base with fuses := { base.fuses with sku := [6] } }, p := fun q => q.s.skuOn 6 }) ++
     [Instr.idiv, .irem].map (fun c => { i := c e0 6 4 5, s := withHandler base, ts := some [], p := entersHandler }))) = true := by decide +kernel

theorem test_witness_ScalarForms : allOk
    (([Instr.sadd, .ssub, .smul, .sshl, .sshr, .sand, .sor, .sxor, .ssel].flatMap (fun c => [{ i := c none 0x3F 1 2 }, { i := c none 0x74 1 2 },
     { i := c (some 32) 3 1 0x76, s := none0 base }]) ++ [{ i := .smov none 3 1 }, { i := .scmp none 9 3 1 2 },
      { i := .scmp none 0 0x74 1 2 }])) = true := by decide +kernel

theorem test_witness_PatternsFunnelsAddresses : allOk
    (([Instr.and, .or, .xor, .andn, .shf].map (fun c => { i := c e0 6 4 5, s := mr 0x438 base }) ++
     [{ i := .not e0 6 4 }, { i := .lea e0 6 4 5, s := et 7 base }, { i := .lea e0 6 0x74 5 }, { i := .aadd e0 6 4 8 }])) = true := by decide +kernel

theorem test_witness_LaneReads : allOk
    ([{ i := .lreadAt e0 6 4 5, s := setV 5 31 base }, { i := .lreadAt e0 6 4 5, s := setV 5 32 base },
      { i := .lreadBack e0 6 4 5, s := setV 5 1 base },
     { i := .lreadFwd e0 6 4 5 }, { i := .lreadFlip e0 6 4 5 }, { i := .bcast e0 6 4 0x78 }]) = true := by decide +kernel

theorem test_witness_Votes : allOk
    (([Instr.voteAny, .voteAll].flatMap (fun c => [{ i := c e0 6 4, p := fun q => !q.fm.p.mdst }, { i := c e0 6 4, s := none0 base },
      { i := c { e0 with pfx := some { p0 with mdst := true } } 11 4, p := fun q => q.fm.p.mdst }]) ++
     [2, 3].map (fun k => { i := .voteBal e0 6 4 0x78, s := setS 0 k base, p := fun q => q.uni .b == k }))) = true := by decide +kernel

theorem test_witness_LaneIdentity : allOk
    (([Instr.lane, .grpid, .getw, .role, .teamid, .nteam, .gridid, .getmode].map (fun c => { i := c 6 }) ++
     [{ i := .lclk 6 0 }, { i := .lclk 6 1 }, { i := .csrr 6 0 }, { i := .csrr 6 11 }, { i := .segrd 6 0 7 },
      { i := .segrd 6 1 0 }])) = true := by decide +kernel

theorem test_witness_RandomAndFlags : allOk
    (([0, 5].map (fun e => { i := .rng e0 6 0x74, s := et e base, p := fun q => decide (4 < q.etype) || decide (q.etype < 2) }) ++
     [2, 3, 4].map (fun e => { i := .rng e0 6 0x74, s := et e base, p := fun q => q.etype == e }) ++
     [{ i := .flags none 6 0x78, s := setS 0 31 (onG (fun g => { g with flags := 31 }) base) },
      { i := .flags none 6 0x74, s := none0 base }])) = true := by decide +kernel

theorem test_witness_WidthAndMode : allOk
    (([32, 64, 96].map (fun w => { i := .setw (some w) 0x76, p := fun q => q.uni .a == w }) ++
     [{ i := .setw (some 33) 0x76 }, { i := .setw (some 32) 0x76, s := onT (fun t => { t with hdr := { t.hdr with compat16 := true } }) base },
      { i := .setmode none 2 0x74 8, p := fun _ => setmodeImageOk 2 8 },
      { i := .setmode none 2 0x78 0, s := setS 0 0x78 base, p := fun q => q.uni .a == 0x78 && !setmodeImageOk 2 0x78 },
      { i := .setmode (some 8) 2 0x76 0 }])) = true := by decide +kernel

theorem test_witness_FloatArithmetic : allOk
    (([2, 3, 4].flatMap (fun e => [Instr.fadd, .fsub, .fmul, .ffma, .fscale, .fmin, .fmax, .fminNum, .fmaxNum].map (fun c =>
       { i := c e0 6 4 5, s := et e base, p := floatQuiet })) ++
     [Instr.frnd, .fabs, .fneg, .fclass].map (fun c => { i := c e0 6 4, s := et 2 base, p := fun q => etFloat q.etype }) ++
     [0, 7].map (fun c => { i := .fcmp e0 c 6 4 5, s := et 2 base, p := fun q => etFloat q.etype }))) = true := by decide +kernel

theorem test_witness_FloatTraps : allOk
    (([Instr.fadd, .fsub, .fmul, .ffma, .fscale, .fmin, .fmax, .fminNum, .fmaxNum].map (fun c => { i := c e0 6 4 5, p := fun q => !etFloat q.etype }) ++
     [Instr.frnd, .fabs, .fneg, .fclass].map (fun c => { i := c e0 6 4 }) ++ [{ i := .fcmp e0 0 6 4 5 }] ++
     [Instr.rcp, .rsq, .sqrt, .ex2, .lg2, .sinpi, .cospi, .tanh, .sigm].map (fun c => { i := c none 1 6 4 }) ++
     [Instr.fadd, .fsub, .fmul].map (fun c => { i := c e0 6 4 5, s := setV 4 0x7FA00000 (mr 0x1F010 base), p := fun q => etFloat q.etype
        && (firstEnabled (mrExcen q.g.mr) (q.lanes.map (fun l => (l, (List.range (etCount q.etype)).map (fun e =>
          let r := (q.rctx q.fmt l e).add (q.fmt.input q.ftz (q.ea l e)) (q.fmt.input q.ftz (q.eb l e))
          (⟨r.1, r.2, [q.ea l e, q.eb l e]⟩ : ElemRes)))))).isSome }) ++
     [{ i := .cvtF2i e0 6 4 5, s := et 2 base }, { i := .cvtI2f e0 6 4 3 }, { i := .cvtF2f e0 6 4 0 2, s := et 2 base },
      { i := .pack e0 6 4 5, s := et 2 base },
      { i := .unpk e0 6 4 }])) = true := by decide +kernel

theorem test_witness_Conversions : allOk
    (([{ i := .cvtF2i e0 6 4 0, s := et 2 base }, { i := .cvtF2i e0 6 4 6, s := et 3 base }, { i := .cvtI2f e0 6 4 2, s := et 1 base },
     { i := .cvtI2f e0 6 4 4, s := et 5 base }, { i := .cvtF2f e0 6 4 1 3, s := et 2 base }, { i := .cvtF2f e0 6 4 1 2, s := et 4 base },
     { i := .cvtF2f e0 6 4 0 4, s := et 3 base }, { i := .dqnt e0 6 4 3 }, { i := .mxsc e0 6 4 12, s := setV 4 0x3F800000 base },
      { i := .qnt e0 6 4 11, s := setV 4 0x3F800000 base }, { i := .pack e0 6 4 5, s := et 3 base },
     { i := .unpk e0 6 4, s := et 4 base }] : List Wit).map (fun w => { w with p := fun q => mrExcen q.g.mr == 0 })) = true := by decide +kernel

theorem test_witness_LongLatencyResults : allOk
    (([Instr.rcp, .rsq, .sqrt, .ex2, .lg2, .sinpi, .cospi, .tanh, .sigm].map (fun c => { i := c none 1 6 4, s := et 2 base, p := floatQuiet }) ++
     [{ i := .matchLanes none 1 6 4, p := fun q => !q.fm.p.mdst },
      { i := .matchLanes (some { p0 with mdst := true }) 1 11 4, p := fun q => q.fm.p.mdst }] ++
     [Instr.redAdd, .redMin, .redMax, .scanAdd, .scanMax, .redBitAnd, .redBitOr, .redBitXor].map (fun c => { i := c none 1 6 4 }))) = true := by decide +kernel

theorem test_witness_CsampDraw : allOk
    ([{ i := .csamp none 1 6 4, s := setV 4 0x3F800000 (et 2 base), p := fun q =>
      let tot := fun i => q.redElem true (redOp 0 2 false q.ftz 0) (fun j => (csampWeight q.ftz (q.a j)).1) i
      q.lanes.head? == some 0 && q.lanes.getLast? == some 0 && q.lanes.all (fun i => (csampWeight q.ftz (q.a i)).2 == 0 && (tot i).2 == 0)
        && (tot 0).1 == 0x3F800000 }]) = true := by decide +kernel

theorem test_witness_MaskInstructions : allOk
    (([Instr.mand, .mor, .mxor, .mandn].map (fun c => { i := c 29 8 11 }) ++ [{ i := .mnot 11 0x74 }, { i := .mcur 11 }, { i := .mpop 0x3F 8 },
     { i := .mffs 3 8, p := fun q => (maskList (q.tri 8)).head? == some 0 }, { i := .mffs 3 0x74, p := fun q => q.tri 0x74 == 0 },
     { i := .mspill 6 8 }, { i := .mfill none 11 4 }])) = true := by decide +kernel

theorem test_witness_Branches : allOk
    (([Instr.bra, .brz, .brx].flatMap (fun c => [{ i := c 0 4 }, { i := c 1 4 }, { i := c 0 4, s := none0 base }]) ++
     [{ i := .brx 0 4, s := onG (fun g => g.setTriple 8 g.exist) base, p := fun q => q.ex == q.f.mask },
      { i := .brx 0 4, p := fun q => q.ex != 0 && q.ex != q.f.mask }])) = true := by decide +kernel

theorem test_witness_JoinLeaveCont : allOk
    ([{ i := .join 4, s := chain 30 false base, p := fun q => decide (q.f.chain.length < 31) }, { i := .join 4, s := chain 31 false base },
     { i := .leave 1 }, { i := .leave 2, s := chain 3 true base }, { i := .leave 15, s := chain 15 false base, p := fun q => q.ex != 0 },
     { i := .leave 1, s := chain 1 false base }, { i := .leave 1, s := none0 (chain 1 false base), p := fun q => q.ex == 0 },
     { i := .cont 4 }, { i := .cont 4, s := chain 1 true base }, { i := .cont 4, s := chain 1 false base },
      { i := .cont 4, s := none0 (chain 1 false base) }]) = true := by decide +kernel

theorem test_witness_CallsAndReturns : allOk
    ([{ i := .call 4, s := chain 30 false base }, { i := .call 4, s := none0 base }, { i := .call 4, s := chain 31 false base },
     { i := .calli 4, s := setV 4 0x10200 base, p := fun q => (q.a64 0) == 0x10200 }, { i := .calli 4, s := chain 31 false base },
     { i := .calli 4, s := setV 4 0x10202 base }, { i := .ret, s := chain 2 true base }, { i := .ret, s := none0 (chain 2 true base) },
     { i := .ret, s := chain 2 false base }]) = true := by decide +kernel

theorem test_witness_ExitYieldNop : allOk
    ([{ i := .exit none 0x74 0x74, p := fun q => q.uni .a == 0 && q.ex != 0 }, { i := .exit (some 4) 0x76 0x78, p := fun q => q.uni .a == 4 },
     { i := .exit none 0x74 0x74, s := none0 base, p := fun q => q.ex == 0 }, { i := .exit none 0x74 0x74, s := inJr [] base }, { i := .yield },
      { i := .nop }]) = true := by decide +kernel

theorem test_witness_BarrierArrivals : allOk
    (([{ i := .bara 6 15 }, { i := .bar 0 }, { i := .barTask 0 }, { i := .taskend }, { i := .safept },
      { i := .safept, s := onG (fun g => { g with grace := some 5 }) base }] ++
     [Instr.bara 6 1, .bar 1, .barTask 1].map (fun i => { i := i, s := onT (fun t => t.modBody (fun b => { b with barriers := listModify b.barriers 1 (fun x => { x with roles := 2 }) })) base }) ++
     [Instr.bara 6 1, .bar 1].map (fun i => { i := i, s := onT (fun t => t.modBody (fun b => { b with barriers := listModify b.barriers 1 (fun x => { x with arr := [31] }) })) base, p := fun q => q.fragLids.any [31].contains }) ++
     [{ i := .barw (some 0) 0x76 1, p := fun q => !phasePassed 0 (q.uni .a).toNat },
      { i := .barw (some 0xFFFF) 0x76 1, p := fun q => phasePassed 0 (q.uni .a).toNat },
      { i := .barc (some 1) 0x76 1, p := fun q => (q.t.body.barriers[1]?).any (fun b => barcOk q.t b 1) },
      { i := .barc (some 0) 0x76 1, p := fun q => (q.t.body.barriers[1]?).any (fun b => !barcOk q.t b 0) }])) = true := by decide +kernel

theorem test_witness_LoadsAndStores : allOk
    (([Instr.ldGB, .ldGH, .ldGW, .ldGD, .ldGQ].flatMap (fun c => [{ i := c none 1 8 0x74 0, s := noSeg0 base },
       { i := c none 1 8 4 0, s := setV 4 0x20000 (page .cached base), p := fun q => q.a64 0 == 0x20000 }]) ++
     [Instr.ldSB, .ldSH, .ldSW, .ldSD, .ldSQ].map (fun c => { i := c none 1 8 0x74 0x7F }) ++
     [Instr.ldCB, .ldCH, .ldCW, .ldCD, .ldCQ].map (fun c => { i := c none 1 8 0x74 0 }) ++
     [Instr.ldLB, .ldLH, .ldLW, .ldLD, .ldLQ].map (fun c => { i := c none 1 8 0x74 0 }) ++
     [Instr.stGB, .stGH, .stGW, .stGD, .stGQ].map (fun c => { i := c none 1 8 4 0, s := setV 4 0x20000 (page .device base) }) ++
     [Instr.stSB, .stSH, .stSW, .stSD, .stSQ, .stLB, .stLH, .stLW, .stLD, .stLQ].map (fun c => { i := c none 1 8 0x74 0 }) ++
     [{ i := .ldGW none 1 8 0x74 0, s := noSeg0 base, p := failsCheck (fun q => q.loadAccess 0 4 0 0) },
      { i := .ldGW none 1 8 4 0, s := setV 4 0x20000 (page .cached base), p := passes (fun q => q.loadAccess 0 4 0 0) },
      { i := .ldSW none 1 8 0x74 0, s := flying 62 1 base, p := passes (fun q => q.loadAccess 1 4 0 0) },
      { i := .ldSW none 1 8 0x74 0, s := flying 63 1 base, p := fun q => q.ex != 0 && decide (63 ≤ q.g.counter 1) },
      { i := .stGW none 1 8 4 0, s := setV 4 0x20000 (page .cached base), p := passes (fun q => q.storeAccess 0 4 0 0 false 0) },
      { i := .ldv none 1 8 0x74 1 1 0 }, { i := .ldv none 1 8 4 0 1 3, s := setV 4 0x20000 (page .cached base) },
      { i := .stv none 1 8 0x74 1 2 0 }])) = true := by decide +kernel

theorem test_witness_AccessParts : allOk
    ([{ i := .ldGW none 1 8 0x74 0x7F, p := fun q => let off := Int.ofNat (q.a64 0).toNat - 4; q.lanes == [0] && decide (off < 0) },
     { i := .ldSQ none 1 8 0x74 0, p := passes (fun q => q.loadAccess 1 16 0 0) },
     { i := .stGD none 1 8 4 0, s := setV 4 0x20000 (page .cached base), p := passes (fun q => q.storeAccess 0 8 0 0 false 0) }]) = true := by decide +kernel

theorem test_witness_CacheControlAndWaits : allOk
    (([Instr.prf, .cwb, .cinv].flatMap (fun c => [{ i := c 1 4 0, s := setV 4 0x20000 (page .cached base) }, { i := c 1 0x74 0x7F },
      { i := c 1 4 0, s := none0 base, p := fun q => q.ex == 0 }]) ++
     [{ i := .waitc (some 2) 0x76 1, s := flying 2 1 base, p := fun q => decide (q.g.counter 1 ≤ (q.uni .a).toNat) },
      { i := .waitc (some 1) 0x76 1, s := flying 2 1 base, p := fun q => decide ((q.uni .a).toNat < q.g.counter 1) }])) = true := by decide +kernel

theorem test_witness_ScopedAccesses : allOk
    (([0, 1, 4].map (fun k => { i := .fence k, p := fun q => (q.counted.scopeTrap k.toNat false).isNone }) ++
     [Instr.ldGAcqW, .ldGAcqD].map (fun c => { i := c none 1 8 4 2 0, s := setV 4 0x20000 (page .cached base), p := fun q => (q.counted.scopeTrap 2 false).isNone && passes (fun q => q.loadAccess 0 4 0 0) q }) ++
     [Instr.ldSAcqW, .ldSAcqD].map (fun c => { i := c none 1 8 0x74 0 7, p := passes (fun q => q.loadAccess 1 8 0 0) }) ++
     [Instr.stGRelW, .stGRelD].map (fun c => { i := c none 1 8 4 4 0, s := setV 4 0x20000 (page .cached base) }) ++
     [Instr.stSRelW, .stSRelD].map (fun c => { i := c none 1 8 0x74 1 0, p := passes (fun q => q.storeAccess 1 8 0 0 true 1) }) ++
     [Instr.atomGW, .atomGD].map (fun c => { i := c none 1 8 4 2 0, s := setV 4 0x20000 (page .cached base), p := fun q => atomicTypeOk 0 q.etype && passes (fun q => q.atomAccess 0 4 2 0 true) q }) ++
     [Instr.atomSW, .atomSD].map (fun c => { i := c none 1 8 0x74 0 6, p := passes (fun q => q.atomAccess 1 8 0 6 true) }) ++
     [Instr.redmGW, .redmGD].map (fun c => { i := c none 1 8 4 1 3, s := setV 4 0x20000 (page .cached base), p := passes (fun q => q.atomAccess 0 8 1 3 false) }) ++
     [{ i := .atomSW none 1 8 0x74 0 0, s := none0 base, p := fun q => q.ex == 0 }])) = true := by decide +kernel

theorem test_witness_ScopeAndTypeTraps : allOk
    (([2, 5].map (fun k => { i := .fence k, s := mr 0x80000000 base, p := fun q => mrDet q.g.mr && q.counted.s.tenants[q.t.tenant]?.isSome }) ++
     [{ i := .fence 5, p := fun q => !mrDet q.g.mr && !((q.counted.s.tenants[q.t.tenant]?).map (·.hvScope)).any (·.testBit 0) }] ++
     [Instr.ldGAcqW, .ldGAcqD, .stGRelW, .stGRelD].flatMap (fun c => [{ i := c none 1 8 4 2 0, s := mr 0x80000000 base },
       { i := c none 1 8 4 5 0 }]) ++
     [Instr.atomGW, .atomGD, .atomSW, .atomSD, .redmGW, .redmGD].map (fun c => { i := c none 1 8 4 1 0, s := et 2 base, p := fun q => !atomicTypeOk 0 q.etype }) ++
     [Instr.atomGW, .atomGD, .redmGW, .redmGD].flatMap (fun c => [{ i := c none 1 8 4 3 3, s := mr 0x80000000 base },
       { i := c none 1 8 4 5 3, p := fun q => !mrDet q.g.mr },
      { i := c none 1 8 4 2 3, s := atLevel 1 base, p := fun q => q.t.hdr.level != 0 }]))) = true := by decide +kernel

theorem test_witness_DebugAndHandlerReturns : allOk
    ([{ i := .trap 0x7F }, { i := .halt }, { i := .dbgbrk 1 }, { i := .eret, s := inJr [] base, p := fun q => q.f.jr != [] },
     { i := .emret 0, s := inJr [] base }, { i := .emret 1, s := inJr [] base }, { i := .eret }, { i := .emret 1 }]) = true := by decide +kernel

theorem test_witness_OperandWindow : allOk
    (([1, 255, 0x100, 0x112, 0x141, 0x114, 0x115, 0x116, 0x147, 0x117].map (fun n => { i := .wrd 6 0 1, s := inJr [0, 0, 7, 0, BitVec.ofNat 32 (n * 65536)] base, p := fun q => (q.f.jr.head?).any (fun l => slotId l.w 1 == n) && q.t.hdr.budget q.g.role == 256 }) ++
     [{ i := .winfo 6 7, s := inJr [0] base }, { i := .winfo 6 0 }, { i := .wrd 6 0 0 }, { i := .wwr none 6 0 0, ts := some [] }] ++
     [1, 0x101, 0x112].map (fun n => { i := .wwr none 6 0 1, s := inJr [0, 0, 0, 0, BitVec.ofNat 32 (n * 65536)] base, ts := some (if n = 1 then [.v 1 1] else []), p := fun q => !q.bankedHit (slotReg n 0 256) }) ++
     [0x110, 0x114, 0x115, 0x147].map (fun n => { i := .wwr none 6 0 0, s := inJr [0, 0, 0, 0, BitVec.ofNat 32 n] base, ts := some (if n = 0x147 then [.s 7 1] else []), p := fun q => !q.bankedHit (slotReg n 0 256) && q.lanes.head? == some 0 }))) = true := by decide +kernel

theorem test_witness_HandlerRegistersAndTranslation : allOk
    (([{ i := .csrw (some 4) 0x76 10 }, { i := .csrw (some 4) 0x76 10, s := inJr [] base }, { i := .csrw (some 5) 0x76 10, s := inJr [] base },
     { i := .csrw (some 0xFFFFF) 0x76 11, s := inJr [] base }, { i := .csrw (some 0x100000) 0x76 11, s := inJr [] base },
     { i := .csrw (some 5) 0x76 0, s := inJr [] base },
     { i := .segld 8 0 }, { i := .segld 8 1, s := inJr [] base },
      { i := .segld 8 0, s := inJr [] base, p := fun q => q.counted.privileged && q.lanes.head? == some 0 },
     { i := .segld 8 3, s := setV 10 8 (inJr [] base) }, { i := .segld 8 7, s := setV 11 0x200000 (inJr [] base) },
     { i := .segld 8 7, s := setV 11 0x1FFFFF (inJr [] base) }] ++
     [Instr.tlbinv, .tlbinvVa 4].flatMap (fun i => [{ i := i, p := fun q => !q.counted.privileged },
      { i := i, s := inJr [] base, p := fun q => q.counted.privileged }]))) = true := by decide +kernel

theorem test_witness_CardInstructions : allOk
    (([{ i := .ecard none 1 0 0 8 0x74, s := none0 base, p := fun q => q.ex == 0 },
      { i := .ecard (some 3) 1 1 0 8 0x76, s := withChain base, p := fun q => chainOk q && q.lanes.head? == some 0 && decide (q.g.counter 4 < 63) && (match q.counted.cardParts 0 (0x20000 + 0x100 + 128 * 3 + 64) q.counted.s (List.range 8) with | (_, .ok l) => l.length == 8 | _ => false) },
      { i := .etail none 0 0x74, p := fun q => q.g.drained }, { i := .etail (some 1) 0 0x76, s := flying 1 4 base, p := fun q => !q.g.drained }] ++
     [0, 1].map (fun v => { i := .etail (some 1) 0 0x76, s := atLevel v (withChain base), p := fun q => chainOk q && q.g.drained && q.t.levelNow == v && (match q.counted.ccb 0 with | .ok (s1, a) => s1.chainEngines a q.t.tenant != [] && (match State.readSlots q.t.core? q.t.tenant q.t.ctx (q.segOf 5) a s1 [0] with | (_, l) => (slotError l).isNone && (cardsFault (s1.ccbClass a) (mrDet q.g.mr) (s1.sysord q.t.tenant) (cardsRead l)).isNone) | .error _ => false) }) ++
     [0, 1, 2].map (fun k => { i := .eseq 6 k 0, s := withChain base, p := chainOk }) ++
     [{ i := .ewait (some 0) 0x76 0, s := withChain base, p := fun q => chainOk q && seqReached 0 0 && q.t.levelNow == 0 },
      { i := .ewait (some 1) 0x76 0, s := withChain base, p := fun q => chainOk q && !seqReached 0 1 && q.t.levelNow == 0 }])) = true := by decide +kernel

theorem test_witness_GraphInstructions : allOk
    (([{ i := .graph (some 2) 0x76 0x74, s := withGraph 0 base }, { i := .graph (some 3) 0x76 0x74, s := mr 0x80000000 (withGraph 0 base) },
      { i := .graph (some 3) 0x76 0x74, s := atLevel 2 (withGraph 0 base), p := fun q => q.t.levelNow != 0 },
      { i := .gcond (some 256) 0x76 0x74 }, { i := .gcond (some 255) 0x76 0x74, s := mr 0x80000000 base }, { i := .gcond (some 255) 0x76 0x74 },
      { i := .gcond (some 0) 0x76 0x78, s := atLevel 1 base }] ++
     [15, 16].map (fun n => { i := .graph (some 3) 0x76 0x74, s := withGraph n base, p := fun q => q.t.levelNow == 0 && (q.counted.s.parts[q.t.part]?).any (fun p => p.starts.length == n && p.graphs.any (fun g => g.num == 3)) }))) = true := by decide +kernel

theorem test_witness_MatrixGroupInstructions : allOk
    ([{ i := .ldmb 1 16 0 1 1, s := none0 base, ts := some [.v 16 (blockRegs 1 32)], p := fun q => q.ex == 0 && decide (16 + blockRegs 1 32 ≤ 256) },
     { i := .ldmb 1 16 0 1 1, ts := some [.v 16 (blockRegs 1 32)], p := fun q => q.lanes.head? == some 0 && !imageSegFails (q.segOf 1).limit (mfImage 32 1) (Int.ofNat (q.a64 0).toNat) && q.fm.flds.any (fun f => f.code == 0) },
     { i := .mstart (some 1) 1 1 0 0x76, s := withStream base, p := fun q => q.t.body.stream.isSome && decide (blockRegs 1 32 ≤ 256) },
     { i := .maccRd none 6 5, s := withStream base, p := fun q => q.t.body.stream.isSome }, { i := .maccWr none 6 5, s := withStream base },
     { i := .mstart (some 1) 1 1 0 0x76 }, { i := .maccRd none 6 5, p := fun q => q.t.body.stream.isNone },
      { i := .maccWr none 6 5 }]) = true := by decide +kernel

theorem test_witness_StreamArithmetic : evOk
    ((([(.mzero 0 0), (.mzero 2 7), (.mscale 1 0 6), (.mzero 3 0), (.mscale 1 0 1), (.mma 1 1 3 0 0 0 0), (.mlda 1 1 0 0 0), (.mlda 1 0 2 0 0xFFFF),
       (.maccRdStream 7 0), (.maccWrStream 7 0), (.maccRdStream 0 0xFFFF), (.maccWrStream 0 0xFFFF)] : List Instr).map (fun i => { i := i, s := strm }) ++
     [{ i := .mma 1 1 0 0 0 0 1, s := onT (fun t => t.modStream (fun st => { st with a := [{ tag := some 1 }, {}], b := List.replicate 8 { tag := some 1 } })) strm, p := fun s => s.streamIssuer.any (fun q => q.mmaReady 1 1 0 0) && tileOk 0 0 },
      { i := .mlda 1 0 1 0xFFFF 0, s := strm, p := fun s => s.streamIssuer.any (fun q => !(q.counted 512).rangeFails 32 ((q.counted 0).offset 0 0xFFFF 1) (mfImage 64 1)) },
      { i := .mlda 1 0 0 0 0xFFFF, s := strm, p := fun s => s.streamIssuer.any (fun q => (q.counted 512).rangeFails 32 ((q.counted 0).offset 0xFFFF 0 0) (mfImage 64 1)) }])) = true := by decide +kernel

theorem test_witness_StreamControl : evOk
    ([{ i := .marrb 1, s := strm }, { i := .marrb 1, s := onBar (fun b => { b with stream := true, streamArr := true }) strm },
     { i := .marrb 1, s := onBar (fun b => { b with stream := true }) strm }, { i := .mwaitb 1, s := strm, p := fun _ => !phasePassed 0 0 },
     { i := .mwaitb 1, s := onBar (fun b => { b with c := 1 }) strm, p := fun _ => phasePassed 1 0 },
     { i := .mloop 1 1, s := strm }, { i := .mloop 0xFFFF 0x3FF, s := inLoop strm, p := fun s => s.streamIssuer.any (fun q => q.st.loops.length == 1) },
     { i := .mloop 0 1, s := strm }, { i := .mloop 1 0, s := strm }, { i := .mloop 2 1, s := inLoop (inLoop strm) }, { i := .mend, s := strm },
     { i := .mdrain ⟨3, 0, 0, 0, 0, 0, 0, 0, 0, 0, 0⟩, s := strm, p := fun _ => !drainOk ⟨3, 0, 0, 0, 0, 0, 0, 0, 0, 0, 0⟩ },
     { i := .mdrain f0, s := strm, p := fun _ => drainOk f0 },
     { i := .mdrain f0, s := onT (fun t => t.modBody (fun b => { b with scratch := Cells.writeNat [] 8 4 512 })) strm, p := fun s => s.streamIssuer.any (fun q => let dz := q.counted 1024; (match dz.desc f0 0 with
       | some d => (dz.drainSeg (drainSpans f0 d)).isNone && (match dz.drainParts dz.s f0 d with
          | (_, .ok l) => !l.isEmpty
          | _ => false)
       | none => false)) }]) = true := by decide +kernel

theorem test_witness_FragmentEvents : evOk
    ([{ i := .exitArrival 0 0 0, s := onF (fun f => { f with pc := 0x10300 }) (chain 1 false dev) },
      { i := .fragmentAgeing 0 0 0, s := onF (fun f => { f with slot := some 0, count := 64 }) dev },
     { i := .hang 0 0, s := onG (fun g => { g with hang := 2 ^ 27 }) dev, p := fun s => (s.team? 0).any (fun t => t.body.groups.any (fun g => t.runs g && g.frags.any (·.isLive))) },
     { i := .preemptGraceExpiry 0 0, s := onG (fun g => { g with grace := some 0 }) dev },
     { i := .inFlightFinish 0 0 100 0 true, s := flying 1 4 dev }, { i := .pageWalk 0 1 0x1FF000 .load, s := dev },
      { i := .pageWalk 0 1 0xFFFFFFFFFF000 .store, s := dev }]) = true := by decide +kernel

theorem test_witness_TaskEvents : evOk
    (([{ i := .taskBoundary 0, s := onT (fun t => { t with boundary := some .taskend }) dev },
      { i := .taskBoundary 0, s := onT (fun t => { t with boundary := some (.bar 0), committed := true }) dev, p := fun s => (s.team? 0).any (fun t => s.commitMoves t) },
      { i := .reslice 0, s := onT (fun t => { t with reslice := some (32, 0) }) dev },
      { i := .teamEnd 0, s := onT (fun t => t.modBody (fun b => { b with lanes := b.lanes.map (fun l => { l with exited := true }) })) dev, p := fun s => (s.team? 0).any (·.over) }] ++
     [RunMode.first, .levelZero, .rerun].map (fun m => { i := .taskRollback 0, s := onT (fun t => { t with rollback := some (trapAt 4), mode := m }) (atLevel 1 dev) }) ++
     [true, false].map (fun v => { i := .taskRollback 0, s := onT (fun t => { t with rollback := some (trapAt 10), hdr := { t.hdr with vfall := v } }) (atLevel 1 dev) }) ++
     [(0, RunMode.levelZero), (0, .first), (1, .first), (2, .rerun)].map (fun x => { i := .telltaleMismatch 0 aMismatch, s := onT (fun t => { t with pairSlot := some 0, mcount := x.1, mode := x.2 }) (atLevel 2 dev) }))) = true := by decide +kernel

theorem test_witness_PlacementAndPreemption : evOk
    (([{ i := .teamPlacement 0, s := { dev with grids := [{ wordGrid with placed := 0 }] }, p := fun s => (s.bestCore 0 s.nextId 0 wordGrid.hdr wordGrid.hdr.wreq).isSome },
      { i := .teamResume 0, s := onT (fun t => { t with place := .saved }) (clearCore dev), p := fun s => (s.team? 0).any (fun t => t.isSaved && (s.resumeCore t).isSome) },
      { i := .contextSave 0, s := onG (fun g => { g with stopped := true }) { dev with preempts := [{ part := 0, victims := [0], grace := 0, hold := true, remove := 0, command := 7 }] } },
      { i := .contextSave 0, s := onG (fun g => { g with stopped := true }) { dev with preempts := [{ part := 0, victims := [0, 1], grace := 0, hold := false, remove := 1, command := 7 }] } }] ++
     [(0x10000, 0), (0x90000, 0), (0x10000 + 2 ^ 48, 0), (0x10000, 1)].map (fun a => { i := .preemptVacate 7, s := cmd .pf 0x20 [a.1, a.2] dev }) ++
     [1, 0xF].map (fun m => { i := .preemptResize 7, s := cmd .pf 0x20 [0x100, m] dev, p := fun s => (s.cmdOf 7 0x20).any (fun x => s.refuses x.request == (m == 0xF)) }) ++
     [3, 0x10].map (fun m => { i := .preemptReleaseHold 7, s := cmd .pf 0x20 [0x200, m] dev, p := fun s => (s.cmdOf 7 0x20).any (fun x => s.refuses x.request == (m == 0x10)) }) ++
     [{ i := .preemptVacate 7, s := cmd .pf 0x20 [0x10300, 0] dev }])) = true := by decide +kernel

theorem test_witness_QueueAndReportEvents : evOk
    (([trapAt 4, { trapAt 3 with served := some 2 }].map (fun tr => { i := .trapReport 0 (.group 0), s := onT (fun t => { t with traps := [tr] }) dev, p := fun s => s.teams.all (fun t => t.mismatch.isNone && t.traps.all (fun x => !x.reportsBefore tr)) }) ++
     [{ i := .reportRingWrite .pf, s := { dev with pfRegs := { repBase := 0x6000, reports := [[1]] } }, p := fun s => (s.fnPa .pf 0x6000 true).isSome },
      { i := .reportRingWrite (.vf 0), s := dev.modFn (.vf 0) (fun r => { r with repBase := 0x6000, reports := [[1], [2]], repTail := 3, repHead := 2 }) },
      { i := .commandAcceptance (.berths 0), s := onBerth (withQueue 1 dev) },
      { i := .commandAcceptance (.berths 0), s := onBerth (withQueue 0x2FF dev) },
      { i := .commandAcceptance .pfQueues, s := pfQueue dev },
      { i := .berthDecision 0, s := (withQueue 1 dev).modPart 0 (fun p => { p with leaving := [0] }) },
      { i := .berthDecision 0, s := withQueue 1 dev, p := fun s => (s.parts[0]?).any (fun p => (s.unmapped 0 p).length == 1) }] ++
     [0, 0x5000].flatMap (fun a => [0x00C, 0x5010C].map (fun w => { i := .commandCompletion 7, s := let s := cmd (.vf 0) w [0, 0, 0, a, 9] dev
                                                               { s with cmds := s.cmds.map (fun c => { c with code := some 0 }) } })))) = true := by decide +kernel

theorem test_witness_CardEvents : evOk
    (([{ i := .cardAcceptance, s := { withChain dev with pubs := [{ id := 3, owner := .chain 0 ccb0, tenant := 0, part := 0, ctx := 1, cards := [fillCard, fillCard] }] } },
      { i := .cardDispatch, s := { withChain dev with cards := [aCard] } },
      { i := .cardCompletion 9, s := ({ withChain dev with cards := [aCard] }.physWrite 0x40020 8 0).physWrite 0x40028 1 4 |> (fun s => { s with cards := [{ aCard with pos := 1 }] }), p := fun s => decide (s.errPosOf (.chain 0 ccb0) < 1) },
      { i := .quaySendArrival 0 (2 ^ 32 - 1) [1], s := linkUp dev },
      { i := .quayLinkDown 1, s := { linkUp dev with cards := [{ aCard with words := sendCard, engine := some 1 }] } },
      { i := .quayLinkUp 1, s := dev }] ++
     [(0x20000, fun (r : Work) => match r with
         | .over _ => true
         | _ => false),
       (2 ^ 52, fun r => match r with
         | .fails _ (.fault _ e) => e.served == none
         | _ => false),
       (2 ^ 40, fun r => match r with
         | .fails _ (.fault _ e) => e.served == some 1
         | _ => false),
       (0x30000, fun r => match r with
         | .fails _ (.code _) => true
         | _ => false)].map (fun x => { i := .cardCompletion 9, s := { withChain dev with poison := [0x6000], cards := [onAddr x.1] }, p := fun s => x.2 (State.engineRun 68 s 9 0) }) ++
     [{ i := .cardCompletion 9, s := { linkUp dev with cards := [{ onAddr (2 ^ 52) with words := (onAddr (2 ^ 52)).words.set 0 0x20 }] } }])) = true := by decide +kernel

theorem test_witness_GraphEvents : evOk
    (([(64, 0, 1), (63, 0x7000, 4097), (63, 2 ^ 40, 1), (63, 0x7000, 1), (63, 0x7020, 1)].map (fun (a : Nat × Nat × Nat) => { i := .grload 7, s := cmd (.vf 0) 0x09 [a.1, a.2.1, a.2.2] (dev.physWrite 0x7000 4 0xFFFF0006 |> (fun s => s.physWrite 0x7020 4 7)) }) ++
     [{ i := .grstart 7, s := cmd (.vf 0) 0x0A [4, 0] (withGraph 0 dev) }, { i := .grstart 7, s := cmd (.vf 0) 0x0A [3, 0] (withGraph 15 dev) },
      { i := .graphStart 0, s := withGraph 16 dev }] ++
     [0, 1, 2, 3, 4, 5, 6].map (fun k => { i := .graphNode 0, s := inRun k 0x7000 dev, p := fun s => (s.parts[0]?).any (fun p => nodeKind (p.nodeOf 3 1) == k) }) ++
     [{ i := .graphNode 0, s := inRun 0 0x8000 (withLaunch dev), p := fun s => match s.launchAt 0 0 1 0x8000 false none (some (3, 1)) with
        | (_, none) => true
        | (_, some _) => false },
      { i := .graphNode 0, s := inRun 1 0x7000 (putWords 0x7000 fillCard dev), p := fun s => (s.parts[0]?).any (fun p => (s.nodeCard p 1 0x7000).2.isSome) }])) = true := by decide +kernel

theorem test_witness_Commands : evOk
    (([Instr.launch 7, .syslaunch 7].flatMap (fun i => [0x8000, 0x7000, 2 ^ 40].map (fun a => { i := i, s := cmd (.vf 0) (if i = .launch 7 then 1 else 2) [a] (withLaunch dev) })) ++
     [(0, 0, 0), (0x20000, 0x20020, 64), (0x20000, 0x30000, 2 ^ 32), (0x20000, 0x30000, 64)].map (fun (a : Nat × Nat × Nat) => { i := .copy 7, s := cmd (.vf 0) 3 [a.1, a.2.1, a.2.2] dev }) ++
     [1, 0x10000].map (fun a => { i := .ctxnew 7, s := cmd (.vf 0) 4 [a] dev }) ++
     [1, 2].flatMap (fun a => [{ i := .ctxdel 7, s := cmd (.vf 0) 5 [a] { dev with grids := [] } }, { i := .mapcode 7, s := cmd (.vf 0) 6 [a] dev },
       { i := .tlbinvCommand 7, s := cmd (.vf 0) 7 [a, 0x20000] dev }, { i := .tlbinvCommand 7, s := cmd (.vf 0) 7 [a, 2 ^ 64 - 1] dev }]) ++
     [15, 16].map (fun a => { i := .s2inv 7, s := cmd .pf 0x22 [a] dev }) ++
     [(0x000, 0), (0xB00, 0), (0xC00, 0), (0x008, 0), (0x800, 2 ^ 62)].map (fun (a : Nat × Nat) => { i := .debugCommand 7, s := cmd (.vf 0) 0x0B [a.1, 1, a.2] dev }) ++
     [{ i := .signal 7, s := cmd (.vf 0) 0x0C [] dev }, { i := .debuggerAttach 1 true, s := dev }])) = true := by decide +kernel

theorem test_witness_ResumeAnswers : evOk
    (([(0x08, Instr.resumeRetry 7, Instr.resumeSkip 7, Instr.resumeKill 7, (none : Option Nat)), (0x21, .s2resumeRetry 7, .s2resumeSkip 7, .s2resumeKill 7, some 2)].flatMap (fun z =>
     ([(z.2.1, 0x000), (z.2.2.1, 0x100), (z.2.2.2.1, 0x200), (z.2.1, 0x300)] : List (Instr × Nat)).flatMap (fun x =>
       [{ i := x.1, s := cmd (.vf 0) z.1 [1, x.2] (held z.2.2.2.2 false dev), p := fun s => (s.cmdOf 7 z.1).any (fun c => (s.namedTrap c (z.1 == 0x21)).isSome) },
        { i := x.1, s := cmd (.vf 0) z.1 [2, x.2] (held z.2.2.2.2 true dev), p := fun s => (s.cmdOf 7 z.1).any (fun c => (s.namedTrap c (z.1 == 0x21)).isNone) },
        { i := x.1, s := cmd (.vf 0) z.1 [1, x.2] (held z.2.2.2.2 true dev) },
        { i := x.1, s := cmd (.vf 0) z.1 [0, x.2 + 0xFE] { withChain dev with cards := [{ aCard with held := some (if z.1 = 8 then 1 else 2) }] }, p := fun s => (s.cmdOf 7 z.1).any (fun c => (s.namedCard c (z.1 == 0x21)).isSome) },
        { i := x.1, s := cmd (.vf 0) z.1 [0, x.2 + 0xFE] dev }])))) = true := by decide +kernel

theorem test_witness_PowerEvents : evOk
    (([{ i := .railRaiseSettled 11, s := dev.modRail 11 (fun r => { r with raising := true }) },
      { i := .railLowerHoldExpiry 0, s := dev.modRail 0 (fun r => { r with hold := true }) },
     { i := .thermalStep 47 124, s := dev }, { i := .thermalShutdown 47, s := dev }, { i := .brownout, s := dev },
      { i := .chargeRecordUpdate 47, s := dev },
     { i := .powerUp, s := dev }, { i := .pfFlr, s := dev }, { i := .pfFlr, s := { dev with boot := { dev.boot with phase := 7 } } },
      { i := .vfFlr 1, s := dev }, { i := .vfFlr 16, s := dev }] ++
     [1023, 1024, 8191, 8192].map (fun m => { i := .l2Window 63, s := dev.modBank 63 (fun b => { b with windows := [m, 5] }) }))) = true := by decide +kernel

theorem test_witness_HostWrites : evOk
    (([.kick .pf 255, .hmWallHi 1, .val 1, .hmInjCtl 1, .tenantBlockWrite 0 0 1, .partitionBlockWrite 0 0 1, .quayPortWrite 1 1, .repbase (.vf 3) true 1, .rephead .pf 1, .registerWrite .pf 0x100 5, .registerWrite (.vf 3) 0x10 5, .repbase .pf false 64].flatMap (fun i =>
       [{ i := i, s := dev, p := fun s => s.up }, { i := i, s := { dev with boot := { dev.boot with phase := 3 } }, p := fun s => !s.up }]) ++
     [{ i := .val 0x80000100, s := dev }, { i := .hmInjCtl 0, s := { dev with hm := { dev.hm with injCtl := 1 } } },
      { i := .tenantBlockWrite 1 0 0x2001, s := dev }, { i := .tenantBlockWrite 1 0 0x2101, s := dev },
      { i := .tenantBlockWrite 0 0 0x6000, s := dev }, { i := .tenantBlockWrite 0 8 5, s := dev },
      { i := .tenantBlockWrite 0 0x10 0x400, s := dev }, { i := .tenantBlockWrite 1 0x10 0x400, s := dev },
      { i := .partitionBlockWrite 1 0 1, s := dev },
      { i := .partitionBlockWrite 1 0 1, s := dev.modPart 1 (fun p => { p with clu := [0xF0, 0], chan := 2, berth := [0, 1] }), p := fun s => !s.blocksTaken 1 [0xF0, 0] 2 [0, 1] },
      { i := .partitionBlockWrite 0 0 0x11, s := dev }, { i := .partitionBlockWrite 0 0 0, s := dev, p := fun s => s.partBusy 0 },
      { i := .partitionBlockWrite 0 0 0, s := { dev with teams := [], grids := [] }, p := fun s => !s.partBusy 0 },
      { i := .partitionBlockWrite 0 0x10 3, s := dev },
      { i := .partitionStart 0, s := dev.modPart 0 (fun p => { p with busy := true }) }])) = true := by decide +kernel

theorem test_witness_LaneFrames : allOk
    ([{ i := .iadd e0 6 4 5 }, { i := .lea e0 6 4 5 }, { i := .voteAny e0 6 4, p := fun q => !q.fm.p.mdst }, { i := .dot4 e0 6 4 5, s := et 7 base },
      { i := .dot4 e0 6 4 5 }, { i := .imadw e0 6 4 8 }, { i := .fadd e0 6 4 5, s := et 2 base }, { i := .unpk e0 6 4, s := et 3 base }]) = true := by
  decide +kernel

theorem test_witness_GroupFrames : allOk
    ([{ i := .sadd none 1 2 3 }, { i := .sadd none 0x74 2 3 }, { i := .v2s none 3 4 }, { i := .mand 11 8 14 }, { i := .setw (some 32) 0x76 },
      { i := .voteAny { e0 with pfx := some { p0 with mdst := true } } 11 4, p := fun q => q.fm.p.mdst }, { i := .setw (some 5) 0x76 },
      { i := .setmode none 2 0x74 8 }, { i := .safept }, { i := .join 4 }, { i := .join 4, s := chain 31 true base }, { i := .nop }]) = true := by
  decide +kernel

theorem test_witness_MemoryAtIssue : allOk
    ([{ i := .stGW none 1 8 4 0, s := setV 4 0x20000 (page .cached base) }, { i := .ldGW none 1 8 4 0 }, { i := .redmGW none 1 8 4 1 3 },
      { i := .prf 1 4 0 }, { i := .stv none 1 8 0x74 1 0 0 }]) = true := by decide +kernel

/-- A store of four bytes to UNCACHED memory. -/
def aStore : Op :=
  { id := 1, path := 2, addr := 0, kind := .store false 0, got := [], hint := 0, mr := 0, poisoned := none, parts := [] }

/-- Its one part. -/
def aPart : Part :=
  { lid := 0, ix := 0, scratch := false, va := 0x20004, pa := 0x40004, mt := .uncached, cut := 0xFFC, pa2 := 0, size := 4, data := 0x04030201, data2 := 0 }

theorem test_witness_StorePerformed : base.memWf = true ∧ ((base.team? 0).any (fun t => t.hdr.level == 0)) = true ∧ aStore.kind = .store false 0
    ∧ aPart.whole = true ∧ aPart.size ∈ [1, 2, 4, 8] ∧ aPart.mt ≠ .writeCombine := by decide +kernel

/-- The premise of the clauses on group words that name no instruction. -/
def fateFree (s : State) (m : Word) (p : Iss → Bool) : Bool :=
  let fm := rawForm none m
  match s.issuer fm with
  | none => false
  | some q0 =>
    match ({ (s.modTeam q0.c.team (fun t => t.deliverWhere q0.c.g q0.c.f (Window.due false))) with cur := s.cur } : State).issuer fm with
    | some q => decide (q0.c = q.c) && q.pcMatch.isNone && p q
    | none => false

theorem test_witness_WordsThatNameNoInstruction :
    fateFree (withHandler base) 0x30000000 (fun q => decide (q.f.jr.length < 2) && handlerReady q.t q.g) = true
    ∧ fateFree base 0x30000000 (fun q => !handlerReady q.t q.g) = true
    ∧ fateFree (onF (fun f => { f with jr := f.jr ++ f.jr }) (inJr [] base)) 0x30000000 (fun q => decide (2 ≤ q.f.jr.length)) = true
    ∧ fateFree base 0 (fun _ => true) = true ∧ fateFree base 0xE0000000 (fun q => q.s.fuses.lcs != 3) = true
    ∧ fateFree { base with fuses := { base.fuses with lcs := 3 } } 0xE0000000 (fun q => q.s.fuses.lcs == 3) = true
    ∧ evOk [{ i := .illegal (.stream 0), s := strm }, { i := .vendorTest (.stream 0xE000000000000000), s := strm },
            { i := .vendorTest (.stream 0xE000000000000000), s := { strm with fuses := { strm.fuses with lcs := 3 } } },
            { i := .juryrig (.stream 0xC000000000000000), s := onF (fun f => { f with park := .exitArrived }) strm,
              p := fun s => s.streamIssuer.any (fun q => q.t.lowestLive == none) }] = true := by decide +kernel

theorem test_witness_HandlerEntryAndReturn :
    ((base.team? 0).bind (fun t => (t.body.groups[0]?).bind (fun g => g.frags[0]?))).isSome = true := by decide +kernel

theorem test_witness_TranslationChecks :
    -- a walk of the device's tables, and each check of a TLB entry
    (walkFrom (dev.readEntry 1) 1 0x20000 4 0 0x100000).isOk = true
    ∧ (0x10100 < 2 ^ 52 ∧ (dev.cores[0]?).any (fun k => k.tlb.any (fun e => e.maps 1 0x10100 && e.x)) = true)
    ∧ ((page .device dev).cores[0]?).any (fun k => (k.tlb.find? (fun e => e.maps 1 0x20010)).any (fun e => e.w && !e.x)) = true := by decide +kernel

/-- A comparator on the pc of the issuing fragment, for every lid. -/
def cmpHere : BitVec 128 := BitVec.ofNat 128 (1 + 1 * 2 ^ 16 + 0xFFFF * 2 ^ 48 + 0x10100 * 2 ^ 64)

/-- A window that writes V6 is open. -/
def openOn6 : State := onF (fun f => { f with wins := [
    { id := 90, addr := 0x10000, path := none, remaining := 3, lk15 := false, younger := 0,
        issued := 0, dst := [.v 6 1], pend := [], triple := none, done := false, flags := 0 }] }) base

theorem test_witness_TrapTaken : ((base.team? 0).any (fun t => t.levelNow == 0)) = true ∧ (((atLevel 1 base).team? 0).any (fun t => t.levelNow == 1)) = true
    -- a comparator on the pc, an illegal form, an overlap, an open window on the destination
    ∧ ((Wit.iss { i := .mov e0 6 4, s := base.modCore 0 (fun k => { k with cmps := listModify k.cmps 0 (fun _ => cmpHere) }) }).any
        (fun q => q.pcMatch.isSome)) = true
    ∧ ((Wit.iss { i := .mov e0 0x77 4 }).any (fun q => q.pcMatch.isNone && !q.fm.ok (q.t.hdr.budget q.g.role))) = true
    ∧ ((Wit.iss { i := .aadd e0 6 4 7 }).any (fun q => q.fm.ok (q.t.hdr.budget q.g.role) && q.fm.overlaps)) = true
    ∧ ((Wit.iss { i := .mov e0 6 4, s := openOn6 }).any (fun q => !q.fm.overlaps
        && lkhdHit q.g q.f q.c.f (q.t.hdr.reserveSpan q.g.role).1 (q.t.hdr.reserveSpan q.g.role).2 q.fm.targets)) = true
    -- a register with an uncorrectable error
    ∧ ((Wit.iss { i := .mov e0 6 4, s := base.strike 0 false (Spot.lane 0 (.v 4)).spoil }).any (fun q => !q.fm.reads.any q.g.bad
        && (q.lanes.find? (fun n => q.fm.reads.any (q.t.lane (q.lid n)).bad)).isSome)) = true := by decide +kernel

/-! ### Further clauses of the statements -/

/-- Some lane of EXEC raises an enabled flag (R162). -/
def raises (n : Nat) (f : Iss → Nat → Nat → Nat × Nat) (ops : Iss → Nat → Nat → List Nat) (q : Iss) : Bool :=
  (firstEnabled (mrExcen q.g.mr) (q.lanes.map (fun l => (l, (List.range n).map (fun e => (⟨(f q l e).1, (f q l e).2, ops q l e⟩ : ElemRes)))))).isSome

/-- Element type e with every flag enabled; V4 of lane 0 holds x. -/
def armed (e : Nat) (x : Word) (s : State) : State := setV 4 x (mr (BitVec.ofNat 32 (0x1F000 + 8 * e)) s)

/-- Lanes 0 and 1 take part. -/
def pair0 (s : State) : State := onG (fun g => g.setTriple 8 3) s

/-- An element of a, as the float instructions read it. -/
def in1 (q : Iss) (i k : Nat) : FVal := q.fmt.input q.ftz (q.ea i k)
/-- An element of b. -/
def in2 (q : Iss) (i k : Nat) : FVal := q.fmt.input q.ftz (q.eb i k)
/-- The element of a. -/
def ops1 (q : Iss) (i k : Nat) : List Nat := [q.ea i k]
/-- Both elements. -/
def ops2 (q : Iss) (i k : Nat) : List Nat := [q.ea i k, q.eb i k]
/-- The whole word of a. -/
def opsW (q : Iss) (i : Nat) (_ : Nat) : List Nat := [(q.a i).toNat]

theorem test_witness_FloatTraps_flags : allOk
    ((([(.ffma e0 6 4 5, fun q i k => (q.rctx q.fmt i k).fma (in1 q i k) (in2 q i k) (q.fmt.input q.ftz (q.ec i k)), fun q i k => [q.ea i k, q.eb i k, q.ec i k]),
       (.frnd e0 6 4, fun q i k => (q.rctx q.fmt i k).integral (in1 q i k), ops1),
       (.fscale e0 6 4 5, fun q i k => (q.rctx q.fmt i k).scale (in1 q i k) (sextNat (etWidth q.etype) (q.eb i k)), ops2),
       (.fmin e0 6 4 5, fun q i k => fminmax q.fmt q.ftz false false (q.ea i k) (q.eb i k), ops2),
       (.fmax e0 6 4 5, fun q i k => fminmax q.fmt q.ftz true false (q.ea i k) (q.eb i k), ops2),
       (.fminNum e0 6 4 5, fun q i k => fminmax q.fmt q.ftz false true (q.ea i k) (q.eb i k), ops2),
       (.fmaxNum e0 6 4 5, fun q i k => fminmax q.fmt q.ftz true true (q.ea i k) (q.eb i k), ops2),
       (.fcmp e0 2 6 4 5, fun q i k => let r := fcond 2 (in1 q i k) (in2 q i k); (if r.1 then 2 ^ etWidth q.etype - 1 else 0, r.2), ops2)] ++
      ([(.rcp, 0), (.rsq, 1), (.sqrt, 2), (.ex2, 3), (.lg2, 4), (.sinpi, 5), (.cospi, 6), (.tanh, 7), (.sigm, 8)] :
        List ((Option Pfx → BitVec 4 → Code → Code → Instr) × Nat)).map (fun z => (z.1 none 1 6 4, fun q i k => sfuElem z.2 q.fmt q.ftz (q.ea i k), ops1)) ++
      ([(.redAdd, 0, false), (.redMin, 1, false), (.redMax, 2, false), (.scanAdd, 0, true), (.scanMax, 2, true)] :
        List ((Option Pfx → BitVec 4 → Code → Code → Instr) × Nat × Bool)).map (fun z => (z.1 none 1 6 4,
          fun q i e => q.redElem z.2.2 (redOp z.2.1 q.etype (mrSat q.g.mr) q.ftz q.redMode) (fun j => q.ea j e) i, ops1)) :
      List (Instr × (Iss → Nat → Nat → Nat × Nat) × (Iss → Nat → Nat → List Nat))).map (fun z => { i := z.1, s := pair0 (armed 2 0x7FA00000 base), p := raises 1 z.2.1 z.2.2 }))) = true := by decide +kernel

theorem test_witness_FloatTraps_conversions : allOk
    ((([(2, 0x7FC00000, .cvtF2i e0 6 4 0, fun q i k => fToInt 32 (etSigned 0) q.rnd (q.rv i k) (mrSat q.g.mr) (in1 q i k), ops1, 1),
       (3, 0x7E00, .cvtF2i e0 6 4 5, fun q i k => fToInt 16 (etSigned 5) q.rnd (q.rv i k) (mrSat q.g.mr) (in1 q i k), ops1, 2),
       (0, 0x1000001, .cvtI2f e0 6 4 2, fun q i k => intToF (etFmt 2) q.rnd (q.rv i k) (mrSat q.g.mr) q.ftz (elemVal q.etype (q.a i) k), ops1, 1),
       (5, 0x7FFF, .cvtI2f e0 6 4 3, fun q i k => intToF (etFmt 3) q.rnd (q.rv i k) (mrSat q.g.mr) q.ftz (elemVal q.etype (q.a i) k), ops1, 2),
       (2, 0x7149F2CA, .cvtF2f e0 6 4 1 3, fun q i _ => fconvert (etFmt 3) q.rnd (q.rv i 1) (mrSat q.g.mr) q.ftz (fp32.input q.ftz (q.a i).toNat), opsW, 1),
       (4, 0x7FA00000, .cvtF2f e0 6 4 1 2, fun q i _ => fconvert fp32 q.rnd (q.rv i 0) (mrSat q.g.mr) q.ftz (in1 q i 1), fun q i _ => [q.ea i 1], 1),
       (4, 0x7149, .cvtF2f e0 6 4 0 3, fun q i k => fconvert (etFmt 3) q.rnd (q.rv i k) (mrSat q.g.mr) q.ftz (in1 q i k), ops1, 2),
       (0, 0x3F800001, .qnt e0 6 4 11, fun q i _ => qnt 11 q.rnd (q.rv i 0) (mrSat q.g.mr) q.ftz (q.a i).toNat, opsW, 1),
       (0, 0x7FA00000, .mxsc e0 6 4 12, fun q i _ => mxscCode 12 (fp32.input q.ftz (q.a i).toNat), opsW, 1),
       (3, 0x7149F2CA, .pack e0 6 4 5, fun q i k => fconvert q.fmt q.rnd (q.rv i k) (mrSat q.g.mr) q.ftz (fp32.input q.ftz (if k = 0 then q.a i else q.b i).toNat),
         fun q i _ => [(q.a i).toNat, (q.b i).toNat], 2),
       (4, 0x7FA0, .unpk e0 6 4, fun q i k => (toFp32 (in1 q i k), if (in1 q i k).snan then flIV else 0), ops1, 2)] :
      List (Nat × Word × Instr × (Iss → Nat → Nat → Nat × Nat) × (Iss → Nat → Nat → List Nat) × Nat)).map (fun z =>
        { i := z.2.2.1, s := armed z.1 z.2.1 base, p := raises z.2.2.2.2.2 z.2.2.2.1 z.2.2.2.2.1 }))) = true := by decide +kernel

theorem test_witness_FloatTraps_draw : allOk
    ([{ i := .csamp none 1 6 4, s := armed 2 0x7FA00000 base, p := fun q =>
      let tot := fun i => q.redElem true (redOp 0 2 false q.ftz 0) (fun j => (csampWeight q.ftz (q.a j)).1) i
      q.lanes.head? == some 0 && q.lanes.getLast? == some 0
        && (q.lanes.foldl (fun f i => f ||| (csampWeight q.ftz (q.a i)).2 ||| (tot i).2) 0 ||| flagIf ((tot 0).1 == fp32.infPat) flOF) &&& mrExcen q.g.mr != 0 }]) = true := by decide +kernel

/-- Two roles. -/
def twoRoles (s : State) : State := onT (fun t => { t with hdr := { t.hdr with roles := t.hdr.roles ++ t.hdr.roles } }) s

theorem test_witness_BarrierArrivals_task : allOk
    ([{ i := .barTask 1, s := twoRoles (onBar (fun b => { b with roles := 1 }) base), p := fun q => (q.t.body.barriers[1]?).any (fun b => b.roles.testBit q.g.role && b.roles &&& q.t.hdr.allRoles != q.t.hdr.allRoles) },
  { i := .barTask 1, s := onBar (fun b => { b with arr := [31] }) base, p := fun q => q.fragLids.any [31].contains && (q.t.body.barriers[1]?).any (fun b => b.roles.testBit q.g.role && b.roles &&& q.t.hdr.allRoles == q.t.hdr.allRoles) },
  { i := .taskend, s := onT (fun t => t.modBody (fun b => { b with taskArr := [31] })) base, p := fun q => q.fragLids.any [31].contains }]) = true := by decide +kernel

/-- V register n of lane 0 holds an uncorrectable error. -/
def ueV (n : Nat) (s : State) : State := s.strike 0 false (Spot.lane 0 (.v n)).spoil

theorem test_witness_OperandErrors : allOk
    ([{ i := .wrd 6 0 1, s := ueV 1 (inJr [0, 0, 7, 0, 0x10000] base), p := fun q => (q.slotError (slotReg 1 0 256)).isSome },
  { i := .mstart (some 1) 1 1 20 0x76, s := ueV 21 (withStream base), p := fun q => q.t.body.stream.isSome && (q.blockError 20 (blockRegs 1 32)).isSome },
  { i := .etail (some 1) 0 0x76, s := base |> withChain |> (fun s => putWords 0x40100 [0xFF] s), p := fun q => q.g.drained && (match q.counted.ccb 0 with
     | .ok (s1, a) => (match (s1.etailRead q.t.core? q.t.tenant q.t.ctx (q.segOf 5) a 0 (s1.ccbTail a) 0 1 (mrDet q.g.mr) (q.trap clsIllegal)).2 with | .error _ => true | .ok _ => false) | .error _ => false) }]) = true := by decide +kernel

theorem test_witness_WordsThatNameNoInstruction_error :
    fateFree (withHandler (base.strike 0 false (Spot.scalar 0 8).spoil)) 0x30000000
        (fun q => decide (q.f.jr.length < 2) && handlerReady q.t q.g && q.regError.isSome) = true
    ∧ fateFree (onF (fun f => { f with ue := true }) (withHandler base)) 0x30000000
        (fun q => decide (q.f.jr.length < 2) && handlerReady q.t q.g && q.regError.isSome) = true := by decide +kernel

theorem test_witness_ResumeAnswers_served : evOk
    ((([(0x08, Instr.resumeRetry 7, Instr.resumeSkip 7, Instr.resumeKill 7, 1), (0x21, .s2resumeRetry 7, .s2resumeSkip 7, .s2resumeKill 7, 2)].flatMap (fun z =>
     ([(z.2.1, 0x000), (z.2.2.1, 0x100), (z.2.2.2.1, 0x200)] : List (Instr × Nat)).flatMap (fun x =>
       [{ i := x.1, s := cmd (.vf 0) z.1 [1, x.2] (held (some z.2.2.2.2) false dev), p := fun s => (s.cmdOf 7 z.1).any (fun c => (s.namedTrap c (z.1 == 0x21)).any (fun y => y.2.served.isSome && !y.1.isSaved)) },
        { i := x.1, s := cmd (.vf 0) z.1 [1, x.2] (onT (fun t => { t with place := .saved }) (held (some z.2.2.2.2) false dev)), p := fun s => (s.cmdOf 7 z.1).any (fun c => (s.namedTrap c (z.1 == 0x21)).any (fun y => y.1.isSaved)) }]))))) = true := by decide +kernel

/-- Two lanes' parts of a scratchpad load. -/
def twoParts : List Part := [0, 1].map (fun l => { lid := l, ix := 0, scratch := true, va := 4 * l, pa := 4 * l, mt := .cached, cut := 4, pa2 := 0, size := 4, data := 7, data2 := 0 })

theorem test_witness_FragmentEvents_det : evOk
    ([{ i := .inFlightFinish 0 0 100 2 true, s := mr 0x80000000 (onG (fun g => { g with flight := g.flight.map (fun o => { o with parts := twoParts }) }) (flying 1 1 dev)), p := fun s => (s.group? 0 0).any (fun g => mrDet g.mr && g.ix 0 == 0 && g.ix 1 == 1) }]) = true := by decide +kernel

/-- A load of lane 0 from a poisoned word, in flight. -/
def badLoad : Op := { id := 100, path := 2, addr := 0x10100, kind := .load (.v 6) 1 false, got := [], hint := 0, mr := 0, poisoned := none, parts := [{ lid := 0, ix := 0, scratch := false, va := 0x6000, pa := 0x6000, mt := .uncached, cut := 4, pa2 := 0, size := 4, data := 0, data2 := 0 }] }

/-- Its window. -/
def badWindow : Window := { id := 100, addr := 0x10100, path := some 2, remaining := 3, lk15 := false, younger := 0, issued := 0, dst := [.v 6 1], pend := [], triple := none, done := false, flags := 0 }

theorem test_witness_PlacementAndPreemption_hit : evOk
    ([ -- a trap raised by the drain is served first
   { i := .contextSave 0, s := atLevel 1 (onG (fun g => { g with stopped := true, flight := [badLoad], frags := g.frags.map (fun f => { f with wins := [badWindow] }) }) { dev with poison := [0xC00], preempts := [{ part := 0, victims := [0], grace := 0, hold := true, remove := 0, command := 7 }] }), p := fun s => (s.preempts.find? (fun y => y.part == 0)).any (fun p => let vs := s.victimTeams p.victims
       vs.all (·.stoppedWhole) && (vs.foldl (fun u t => (u.withdraw t.id).drainTeam t.id) s).teams.any (fun t => t.rollback.isSome && vs.any (fun v => v.id == t.id))) },
   { i := .preemptReleaseHold 7, s := cmd .pf 0x20 [0x200, 0x10] dev, p := fun s => (s.cmdOf 7 0x20).any (fun x => !s.preempting x.request.part && !s.preemptBefore x) }]) = true := by decide +kernel

theorem test_witness_CardEvents_reread : evOk
    ([{ i := .cardAcceptance, s := { withChain dev with pubs := [{ id := 3, owner := .chain 0 ccb0, tenant := 0, part := 0, ctx := 1, cards := [fillCard], start := 2 ^ 20, seg := { base := 0x40000, limit := 0x1000 }, site := some (trapAt 0) }] }, p := fun s => (s.nextPub [] s.pubs).any (fun p => match (s.pubCards p).2 with | .ok _ => true | .error _ => false) },
   { i := .cardAcceptance, s := { putWords 0x40100 [0xFF] (withChain dev) with pubs := [{ id := 3, owner := .chain 0 ccb0, tenant := 0, part := 0, ctx := 1, cards := [fillCard], start := 2 ^ 20, seg := { base := 0x40000, limit := 0x1000 }, site := some (trapAt 0) }] }, p := fun s => (s.nextPub [] s.pubs).any (fun p => match (s.pubCards p).2 with | .ok _ => false | .error _ => true) },
   { i := .cardCompletion 9, s := { withChain dev with cards := [{ onAddr 0x20000 with moved := 64 }] }, p := fun s => s.cards.all (fun c => [1, 2, 3].contains (cardOp c.words) && decide (cardBytes c.words ≤ c.moved)) },
   { i := .cardCompletion 9, s := { withChain dev with cards := [{ onAddr (2 ^ 40) with owner := .command 7 }] }, p := fun s => match State.engineRun 68 s 9 0 with | .fails _ (.fault _ e) => e.served == some 1 | _ => false }]) = true := by decide +kernel

theorem test_witness_Commands_refusals : evOk
    ([{ i := .ctxnew 7, s := cmd (.vf 0) 4 [0x10001] dev, p := fun s => (s.newCtx 0).isSome },
   { i := .debugCommand 7, s := cmd (.vf 0) 0x0B [0, 1, 0] dev },
   { i := .debugCommand 7, s := cmd (.vf 0) 0x0B [0, 0x10001, 0] dev, p := fun s => s.ownCtx 0 1 }, 
   { i := .tenantBlockWrite 0 0x0C 0xFF, s := dev }]) = true := by decide +kernel

/-! ### Clauses on corner cases -/

theorem test_witness_CsampDraw_corners : allOk
    ([{ i := .csamp none 1 6 4, s := none0 (et 2 base), p := fun q => q.lanes.isEmpty },
      { i := .csamp none 1 6 4, s := et 2 base, p := fun q => q.lanes.getLast? == some 0
        && (q.redElem true (redOp 0 2 false q.ftz 0) (fun j => (csampWeight q.ftz (q.a j)).1) 0).1 == 0 },
      { i := .csamp none 1 6 4, s := setV 4 0x7FA00000 (et 2 base), p := fun q => mrExcen q.g.mr == 0 && (csampWeight q.ftz (q.a 0)).2 != 0 },
      { i := .csamp none 1 6 4, s := setV 4 0x7F7FFFFF (onT (fun t => t.modLane 1 (fun l => l.setReg (.v 4) 0x7F7FFFFF)) (pair0 (et 2 base))), p := fun q =>
          q.lanes.getLast? == some 1 && mrExcen q.g.mr == 0
            && (q.redElem true (redOp 0 2 false q.ftz 0) (fun j => (csampWeight q.ftz (q.a j)).1) 1).1 == fp32.infPat }] : List Wit) = true := by decide +kernel

theorem test_witness_HandlerWords_corners : allOk
    ([{ i := .emret 1, s := ueV 4 (inJr [0, 0, 0, 0, 4] base), p := fun q => q.emretBad.isSome },
      { i := .emret 1, s := inJr [0, 0, 0, 0, 4] base, p := fun q => q.emretBad.isNone },
      { i := .wwr none 6 0 0, s := onL (fun l => { l with x1 := false }) (inJr [0, 0, 0, 0, 0x147] base), ts := some [.s 7 1], p := fun q => q.lanes.isEmpty && slotReg 0x147 0 256 == .s 7 }] : List Wit) = true := by
  decide +kernel

/-- The team after an entry at depth 1, and then with other registers in lane 0, as a handler may leave them. -/
def entered (t : Team) : Team := t.enterHandler 0 0 1 (fun _ => [0, 0, 0, 0, 0x7]) 0x10200 0x10204 false
def scribbled (t : Team) : Team := t.modLane 0 (fun l => { l with v := (l.v.set 6 1).set 245 2, q := l.q.set 1 3, l := l.l.set 0 4 })

-- R355: the return restores Q, L and the reserve V registers (240 to 255), and leaves the other V registers as the handler left them
theorem test_witness_HandlerEntryAndReturn_changed : (((setV 245 7 (setV 6 8 base)).team? 0).map (fun t =>
    let u := scribbled (entered t)
    let z := (u.leaveHandler 0 0 false false).lane 0
    decide ((u.lane 0).frame1 = ((entered t).lane 0).frame1 ∧ (u.lane 0).x1 = true ∧ (u.lane 0).q ≠ (t.lane 0).q)
      && z.q == (t.lane 0).q && z.l == (t.lane 0).l && z.v.get 245 == 7 && z.v.get 6 == 1)) = some true := by decide +kernel

/-- EWAIT of chain 0 for a number is ILLEGAL at levels 1 and 2: the number lies 1 to 2^31 - 1 past the tail (R297). -/
def pastTail (n : Nat) (q : Iss) : Bool :=
  match q.counted.ccb 0 with
  | .ok (s, a) => decide (1 ≤ (n + 2 ^ 32 - s.ccbTail a % 2 ^ 32) % 2 ^ 32) && decide ((n + 2 ^ 32 - s.ccbTail a % 2 ^ 32) % 2 ^ 32 < 2 ^ 31)
  | .error _ => false

theorem test_witness_CardInstructions_levels : allOk
    ([(1, 1), (2, 0x7FFFFFFF)].map (fun x => { i := .ewait (some (BitVec.ofNat 32 x.2)) 0x76 0, s := atLevel x.1 (withChain base), p := fun q => q.t.levelNow != 0 && pastTail x.2 q }) ++
     [0, 0x80000000].map (fun n => { i := .ewait (some (BitVec.ofNat 32 n)) 0x76 0, s := atLevel 1 (withChain base), p := fun q => chainOk q && q.t.levelNow != 0 && !pastTail n q })) = true := by
  decide +kernel

/-- The trailing side of a checked pair, whose leading side brought a chain's control block or nothing, and a trap or none (R388). -/
def led (ccb : Bool) (fault : Option Trap) (s : State) : State :=
  let p : Part := { lid := 0, ix := 0, scratch := false, va := 0x40000, pa := ccb0.pa, mt := ccb0.mt, cut := ccb0.cut, pa2 := ccb0.pa2, mt2 := ccb0.mt2, size := 64, data := 0, data2 := 0 }
  onT (fun t => { t with lead := some { parts := if ccb then [p] else [], fault := fault } }) s

/-- The chain reads as its one argument says: a control block, none of its own, a trap. -/
def chainIs (k : Nat) (q : Iss) : Bool :=
  (match q.counted.ccb 0 with
   | .ok (_, a) => if a = ccb0 then 0 else 3
   | .error none => 1
   | .error (some _) => 2) == k

theorem test_witness_CardInstructions_pair : allOk
    ([Instr.ecard (some 3) 1 1 0 8 0x76, .etail (some 1) 0 0x76, .eseq 6 0 0, .ewait (some 1) 0x76 0].flatMap (fun i =>
       [{ i := i, s := atLevel 2 (led false none (withChain base)), p := fun q => chainIs 1 q && q.lanes.head? == some 0 && q.g.drained },
        { i := i, s := base, p := fun q => chainIs 2 q && q.ex != 0 && q.g.drained }]) ++
     [none, some (trapAt 3)].map (fun x => { i := .etail (some 1) 0 0x76, s := atLevel 2 (led true x (withChain base)), p := fun q => chainIs 0 q && q.g.drained && (q.t.lead.bind (·.fault)) == x }) ++
     [none, some (trapAt clsIllegal)].map (fun x => { i := .graph (some 9) 0x76 0x74, s := atLevel 2 (led false x (withGraph 0 base)), p := fun q => q.t.lead.any (fun l => l.trapped clsIllegal == x) })) = true := by
  decide +kernel

/-- A level-2 team on pair slot 0 with n counted mismatches; the tenant holds slot 1 too, as a spare or not. -/
def onPair (n : Nat) (spare : Bool) : State :=
  let s := (dev.modTenant 0 (fun t => { t with ilpol := if spare then 0x201 else 1 })).modPart 0 (fun p => { p with clu := [0xFF, 0] })
  onT (fun t => { t with pairSlot := some 0, mcount := n }) (atLevel 2 s)

theorem test_witness_TaskEvents_move :
    ((onPair 1 true).team? 0).any (fun t => let h := ((onPair 1 true).mates 0 0).foldl (fun s x => s.drainTeam x.id) ((onPair 1 true).drainTeam 0)
      (h.spareCore t).isSome && (h.mates 0 0).all (fun x => !x.keepsSlot)
        && (let back := (h.rollBack 0).modTeam 0 (fun t => { t with mcount := 2 })
            (back.team? 0).any (fun t2 => (back.spareCore t2).isSome))) = true
    ∧ ((onPair 1 false).team? 0).any (fun t => ((((onPair 1 false).mates 0 0).foldl (fun s x => s.drainTeam x.id) ((onPair 1 false).drainTeam 0)).spareCore t).isNone) = true
    ∧ evOk [{ i := .telltaleMismatch 0 aMismatch, s := onPair 1 true }, { i := .telltaleMismatch 0 aMismatch, s := onPair 1 false },
            { i := .telltaleMismatch 0 aMismatch, s := onPair 2 true }] = true := by decide +kernel

/-- Queue 0 holds berth 0 with eight accepted records, and more to come; queue 1 waits beside it. -/
def heldBerth : State :=
  let s := withQueue 1 dev
  let s := s.modFn (.vf 0) (fun r => { r with qcb := (r.qcb.set 0 0x3000).set 1 0x3040, pending := [0, 1] })
  let s := ((s.physWrite 0x3040 8 0x4000).physWrite 0x304A 2 1).physWrite 0x3050 4 1
  { s with berths := listModify s.berths 0 (fun _ => { queue := some (0, 0), tail := 1, accepted := 8 }) }

theorem test_witness_QueueAndReportEvents_corners : evOk
    ([{ i := .berthDecision 0, s := heldBerth, p := fun s => (s.parts[0]?).any (fun p => ((s.unmapped 0 p).filter (fun x => x.2.tail != x.2.head)).map (·.1) == [1])
        && (s.qcb (.vf 0) 0).any (fun c => c.tail != c.head) }] ++
     [0x5000, 0x5FF4, 2 ^ 40].map (fun a => { i := .commandCompletion 7, s := let s := cmd (.vf 0) 0x0C [0, 0, 0, a, 9] dev
                                               { s with cmds := s.cmds.map (fun c => { c with code := some 0 }) } })) = true
    ∧ (dev.fnPa (.vf 0) 0x5FFC true).isSome = true ∧ (dev.fnPa (.vf 0) (0x5FFC + 7) true).isSome = true ∧ 4088 < 0x5FFC % 4096
    ∧ dev.fnPa (.vf 0) (2 ^ 40) true = none := by decide +kernel

theorem test_witness_PowerEvents_halt :
    (let s : State := { dev with fuses := { dev.fuses with lcs := 2, owner := some 5 } }
     s.boot.slots.all (fun x => !s.fuses.verifies x)) = true
    ∧ evOk [{ i := .powerUp, s := { dev with fuses := { dev.fuses with lcs := 2, owner := some 5 } } }] = true
    ∧ dev.boot.slots = State.reset.boot.slots ∧ dev.fuses.rollback = 0 ∧ (dev.fuses.lcs ≠ 2 ∨ dev.fuses.owner = factoryOwner) ∧ dev.mem.readNat 0 4 ≠ 0x42554E44 := by decide +kernel

/-- Partition 0 with berths 0 to 31, berth 0 held by a queue. -/
def held0 : State := { dev with berths := listModify dev.berths 0 (fun _ => { queue := some (0, 0), tail := 1 }) }

theorem test_witness_HostWrites_words : evOk
    ((([(0, 4, 0x7FF), (0, 0xC, 3), (0, 0x10, 0), (0, 0x10, 0x100000), (1, 0x14, 5), (0, 0x18, 0), (0, 0x18, 0x200000), (1, 0x1C, 1), (0, 0x20, 0x200000), (1, 0x24, 1), (0, 0x28, 1)] :
        List (Nat × Nat × Word)).map (fun x => { i := .tenantBlockWrite x.1 x.2.1 x.2.2, s := dev, p := fun s => s.up })) ++
     (([8, 0xC, 0x10, 0x18, 0x1C].flatMap (fun o => [{ i := .partitionBlockWrite 0 o 1, s := held0, p := fun s => s.up && (s.parts[0]?).any (·.en) },
        { i := .partitionBlockWrite 1 o 1, s := dev, p := fun s => (s.parts[1]?).any (fun y => !y.en) },
        { i := .partitionBlockWrite 1 o 1, s := dev.modPart 1 (fun y => { y with en := true, clu := [0xF0, 0], chan := 2, berth := [0, 1] }),
          p := fun s => (s.parts[1]?).any (·.en) }]) : List Ev)) ++
     [{ i := .partitionBlockWrite 0 0x18 2, s := held0, p := fun s => ((s.berths[0]?).bind (·.queue)).isSome && ((s.berths[2]?).bind (·.queue)).isNone },
      { i := .partitionBlockWrite 0 0x18 0, s := held0 }, { i := .partitionBlockWrite 0 0x14 1, s := dev }, { i := .partitionBlockWrite 1 0 0x10, s := dev },
      { i := .partitionBlockWrite 0 0 1, s := dev },
      { i := .registerWrite .pf 0x200 0x1F, s := dev }, { i := .registerWrite .pf 0x214 5, s := dev },
      { i := .registerWrite .pf 0x214 5, s := { dev with hm := { dev.hm with injCtl := 1 } } }] ++
     [(Fn.vf 0, 0), (.vf 15, 0), (.pf, 0x40000)].flatMap (fun z => [0x10, 0x1000, 0x17FC].map (fun o => { i := .registerWrite z.1 (z.2 + o) 9, s := dev }))) = true := by
  decide +kernel

-- R449: an IDIV under XEN whose a is coded 0x76 reads V118, and as a word of the JURYRIG fate it counts a literal all the same
theorem test_witness_StepRunsDecoded_fate :
    (let s := State.reset.withFetchWord 64 0x0C027B08FE000002
     match s.frag? 0 0 0 with
     | some (t, g, f) => decide (g.records.length ≤ t.hdr.fragShare) && (match s.fetchWords t f.pc.toNat with
         | (s1, .ok x) => x.fateLiteral s1 && (match s.fetchGroup t 0 g f.pc.toNat with
             | (_, .ok y) => y.len == 12
             | _ => false)
         | _ => false)
     | none => false) = true := by decide +kernel

/-! ### Single steps, with results worked out from the rules -/

-- R128: 2^31 - 1 plus 1 wraps, saturates under SAT (MR bit 10), and s8x4 elements (type 7) stay apart
theorem test_iadd : getV 6 (after (.iadd e0 6 4 5) (setV 4 0x7FFFFFFF (setV 5 1 base))) = some 0x80000000
    ∧ getV 6 (after (.iadd e0 6 4 5) (setV 4 0x7FFFFFFF (setV 5 1 (mr 0x400 base)))) = some 0x7FFFFFFF
    ∧ getV 6 (after (.iadd e0 6 4 5) (setV 4 0x01FF7F80 (setV 5 0x01010101 (et 7 base)))) = some 0x02008081 := by decide +kernel

-- R128: the source is the destination, and the operands are not swapped; a lane outside EXEC keeps its value
theorem test_isub : getV 4 (after (.isub e0 4 4 5) (setV 4 7 (setV 5 9 base))) = some 0xFFFFFFFE
    ∧ getV 6 (after (.isub e0 6 4 5) (setV 6 3 (none0 base))) = some 3 := by decide +kernel

-- R130: the 64-bit product of -1 and 2 under s32; R132: LEA scales a signed index by 4; R133: shifts of 32 and more
theorem test_wide : getV 7 (after (.imadw e0 6 4 5) (setV 4 0xFFFFFFFF (setV 5 2 base))) = some 0xFFFFFFFF
    ∧ getV 10 (after (.lea e0 10 2 7) (setV 2 0x1000 (setV 7 0xFFFFFFFF base))) = some 0xFFC
    ∧ getV 6 (after (.shl e0 6 4 5) (setV 4 1 (setV 5 32 base))) = some 0
    ∧ getV 6 (after (.sar e0 6 4 5) (setV 4 0x80000000 (setV 5 99 base))) = some 0xFFFFFFFF
    ∧ getV 6 (after (.rol e0 6 4 5) (setV 4 0x80000001 (setV 5 33 base))) = some 3 := by decide +kernel

-- R131 and R58: lt is signed (code 2), ltu is not (code 6)
theorem test_icmp : getV 6 (after (.icmp e0 2 6 4 5) (setV 4 0xFFFFFFFF (setV 5 1 base))) = some 0xFFFFFFFF
    ∧ getV 6 (after (.icmp e0 6 6 4 5) (setV 4 0xFFFFFFFF (setV 5 1 base))) = some 0 := by decide +kernel

-- R139: MOV of a literal; V2S; R145: SSUB of S registers, and a destination ZERO
theorem test_moves : getV 3 (after (.mov ⟨none, some 0x12345678⟩ 3 0x76) base) = some 0x12345678
    ∧ getS 40 (after (.v2s none 40 3) (setV 3 9 base)) = some 9
    ∧ getS 3 (after (.ssub none 3 40 41) (setS 40 5 (setS 41 7 base))) = some 0xFFFFFFFE
    ∧ getS 0 (after (.sadd none 0x74 40 41) (setS 40 5 base)) = some 0 := by decide +kernel

-- R167: 1.5 + 2.5 = 4; 1 * -0 = -0; R170: a NaN is not less; R168: max of -0 and +0 is +0
theorem test_float : getV 6 (after (.fadd e0 6 4 5) (setV 4 0x3FC00000 (setV 5 0x40200000 (et 2 base)))) = some 0x40800000
    ∧ getV 6 (after (.fmul e0 6 4 5) (setV 4 0x3F800000 (setV 5 0x80000000 (et 2 base)))) = some 0x80000000
    ∧ getV 6 (after (.fcmp e0 2 6 4 5) (setV 4 0x7FC00000 (et 2 base))) = some 0
    ∧ getV 6 (after (.fmax e0 6 4 5) (setV 4 0x80000000 (et 2 base))) = some 0 := by decide +kernel

-- R166: a float instruction under an integer type takes ILLEGAL (class 0); R162: an enabled flag takes FP_TRAP (class 2)
theorem test_float_traps : trapOf (after (.fadd e0 6 4 5) base) = some 0
    ∧ trapOf (after (.fadd e0 6 4 5) (setV 4 0x7FA00000 (mr 0x1F010 base))) = some 2 := by decide +kernel

-- R236: a register with an uncorrectable error is read with MEM_UE (class 5); a write makes it whole
theorem test_register_error : trapOf (after (.mov e0 6 4) (base.strike 0 false (Spot.lane 0 (.v 4)).spoil)) = some 5
    ∧ trapOf (after (.sadd none 40 41 42) (base.strike 0 false (Spot.scalar 0 42).spoil)) = some 5
    ∧ ((after (.mov e0 4 5) (base.strike 0 false (Spot.lane 0 (.v 4)).spoil)).bind (fun s => s.team? 0)).map (fun t => (t.lane 0).ue) = some [] := by decide +kernel

-- R175: 2.5 to s32, to nearest even, is 2; R105: position 1 before lane 0 reads its own value; R99: the lid of lane 0
theorem test_conversions_and_lanes : getV 6 (after (.cvtF2i e0 6 4 0) (setV 4 0x40200000 (et 2 base))) = some 2
    ∧ getV 6 (after (.lreadBack e0 6 4 5) (setV 4 8 (setV 5 1 base))) = some 8
    ∧ getV 6 (after (.voteBal e0 6 4 0x74) (setV 4 8 base)) = some 1 ∧ getV 6 (after (.lane 6) base) = some 0 := by decide +kernel

/-- The pc of the group's first fragment. -/
def pcOf (o : Option State) : Option DWord := ((o.bind (fun s => s.group? 0 0)).bind (fun g => g.frags.head?)).map (·.pc)

-- R190: BRA goes to its own address plus four times the offset, and falls through with no lane in EXEC
theorem test_branches : pcOf (after (.bra 0 0x1FFFFF) base) = some 0x100FC ∧ pcOf (after (.bra 0 4) (none0 base)) = some 0x10104
    ∧ pcOf (after (.brz 0 4) (none0 base)) = some 0x10110 := by decide +kernel

-- R191, R194: BRK_DEPTH (class 11) at depth 31 and without a call entry; R355: ERET outside the handler; TRAP takes DEBUG (class 13)
theorem test_flow_traps : trapOf (after (.join 4) (chain 31 false base)) = some 11 ∧ trapOf (after .ret base) = some 11
    ∧ trapOf (after .eret base) = some 0 ∧ trapOf (after (.trap 5) base) = some 13 ∧ trapOf (after (.join 4) base) = none := by decide +kernel

-- R204: S11 to S13 from the guard triple; MPOP counts its one lane; R96: SETW of 48 takes ILLEGAL; R48: ETYPE f32
theorem test_masks_and_modes : getS 11 (after (.mand 11 8 8) base) = some 1 ∧ getS 40 (after (.mpop 40 8) base) = some 1
    ∧ trapOf (after (.setw (some 48) 0x76) base) = some 0
    ∧ getV 6 (after (.getmode 6) ((after (.setmode none 2 0x74 0x10) base).getD base |> fun s => { s with cur := base.cur })) = some 0x10 := by decide +kernel

-- R241: an offset past the limit takes SEG (class 4); a page that no table maps XLATE (class 3)
theorem test_access_traps : trapOf (after (.ldGW none 1 8 0x74 0) (noSeg0 base)) = some 4
    ∧ trapOf (after (.ldGW none 1 8 4 0) (setV 4 0x20000 base)) = some 3 := by decide +kernel

-- R248, R3: a store performed writes its bytes, the lowest first
theorem test_store : ((base.performPart 0 0 aStore false aPart).physRead 0x40004 4, (base.performPart 0 0 aStore false aPart).physByte 0x40004,
    (base.performPart 0 0 aStore false aPart).physByte 0x40008) = (0x04030201, 1, 0) := by decide +kernel

-- R226: BAR 0 waits; R363: DBGBRK without a debugger does nothing
theorem test_bar : (((after (.bar 0) { base with teams := base.teams }).bind (fun s => s.group? 0 0)).bind (fun g => g.frags.head?)).isSome = true
    ∧ trapOf (after (.dbgbrk 1) base) = none := by decide +kernel

/-- The state after a step. -/
def stepped (s : State) : Option State := match step s with
  | .next t => some t
  | _ => none

-- R30, R82: the step fetches, decodes and runs the word at the pc; a literal makes it 8 bytes
theorem test_step_nop : pcOf (stepped (State.reset.withFetchWord 32 0x4E800000)) = some 0x10104 := by decide +kernel

theorem test_step_literal : pcOf (stepped (State.reset.withFetchWord 64 0x12345678_0A00FB00)) = some 0x10108
    ∧ getV 3 (stepped (State.reset.withFetchWord 64 0x12345678_0A00FB00)) = some 0x12345678 := by decide +kernel

-- R430, R431: the first step of a part at reset powers it up, to PHASE 4
theorem test_power_up : (stepped State.reset).map (·.boot.phase) = some 4 := by decide +kernel

-- R413: CTXNEW answers the context it made, under the next number of its tenant (log 20)
theorem test_ctxnew : (after (.ctxnew 7) (cmd (.vf 0) 4 [0x10000] dev)).map (fun s => s.ctxs.map (·.num)) = some [1, 17] := by decide +kernel

/-- NOP stands where core 0 fetches next, and core 0 is to issue. -/
def stepState : State := { State.reset.withFetchWord 32 0x4E800000 with agenda := [.issue 0] }

/-- The premises of the clause on a core's issue. -/
def issueReady (s : State) : Bool :=
  let s0 := { s with agenda := [] }
  match s0.frag? 0 0 0, s0.cores[0]? with
  | some (t, g, f), some k =>
    s.up && (s.agenda == [.issue 0]) && (k.age == [(0, 0)]) && (k.pipeBusy.getD 0 0 == 0) && (g.offered == some 0) && (g.pipe == 0)
      && (t.core? == some 0) && t.runs g && !s0.pairHalted t && !f.publishing && !f.atExit && f.wins.isEmpty
      && decide (g.records.length ≤ t.hdr.fragShare) && decide (f.count < 64) && decide (g.hang < 2 ^ 27) && (t.splitPartner 0).isNone
      && (match s0.fetchGroup t 0 g f.pc.toNat with
          | (s1, .ok x) =>
            (x.instr == .nop) && t.gateOpen g 0 x.instr && (Instr.portOf x.instr).isNone
              && (match exec x.instr { s1 with cur := some (x.cur 0 0 0 f.pc) } with
                  | .next s' => (s'.trace (x.cur 0 0 0 f.pc)).map (·.2.2.2.1) != (s0.trace (x.cur 0 0 0 f.pc)).map (·.2.2.2.1)
                  | _ => false)
          | (_, .error _) => false)
  | _, _ => false

theorem test_witness_StepRunsDecoded : issueReady stepState = true := by decide +kernel

theorem test_witness_RoundTrip : (Instr.iadd ⟨some { p0 with xen := true, xd := true }, some 7⟩ 6 4 5).form.isSome = true
    ∧ (Instr.ffma ⟨some { p0 with rndo := 2, op4 := 0x62, xd := true, xen := true, o4en := true }, none⟩ 0x48 3 5).wf = true
    ∧ (Instr.mloop 0xFFFF 0x3FF).wf = true ∧ (encodeStream (.mloop 0xFFFF 0x3FF)).isSome = true := by decide +kernel

end Sys2Proof.Tests
end

section
namespace Sys2Proof.Laws.RoundTrip

/-- Every instruction's encoding decodes to it again: the constructors one by one. -/
theorem statement (i : Instr) : Statement i := by
  cases i
  case iadd => exact iadd _ _ _ _
  case isub => exact isub _ _ _ _
  case imul => exact imul _ _ _ _
  case imulh => exact imulh _ _ _ _
  case imad => exact imad _ _ _ _
  case imadw => exact imadw _ _ _ _
  case ineg => exact ineg _ _ _
  case iabs => exact iabs _ _ _
  case imin => exact imin _ _ _ _
  case imax => exact imax _ _ _ _
  case isel => exact isel _ _ _ _
  case sad => exact sad _ _ _ _
  case dot4 => exact dot4 _ _ _ _
  case lea => exact lea _ _ _ _
  case aadd => exact aadd _ _ _ _
  case icmp => exact icmp _ _ _ _ _
  case and => exact and _ _ _ _
  case or => exact or _ _ _ _
  case xor => exact xor _ _ _ _
  case not => exact not _ _ _
  case andn => exact andn _ _ _ _
  case shl => exact shl _ _ _ _
  case shr => exact shr _ _ _ _
  case sar => exact sar _ _ _ _
  case rol => exact rol _ _ _ _
  case shf => exact shf _ _ _ _
  case popc => exact popc _ _ _
  case clz => exact clz _ _ _
  case ctz => exact ctz _ _ _
  case brev => exact brev _ _ _
  case bfe => exact bfe _ _ _ _
  case bfi => exact bfi _ _ _ _
  case bytesel => exact bytesel _ _ _ _
  case mov => exact mov _ _ _
  case s2v => exact s2v _ _
  case v2s => exact v2s _ _ _
  case idiv => exact idiv _ _ _ _
  case irem => exact irem _ _ _ _
  case movi => exact movi _ _ _ _
  case ldi => exact ldi _ _ _
  case sadd => exact sadd _ _ _ _
  case ssub => exact ssub _ _ _ _
  case smul => exact smul _ _ _ _
  case sshl => exact sshl _ _ _ _
  case sshr => exact sshr _ _ _ _
  case sand => exact sand _ _ _ _
  case sor => exact sor _ _ _ _
  case sxor => exact sxor _ _ _ _
  case ssel => exact ssel _ _ _ _
  case smov => exact smov _ _ _
  case scmp => exact scmp _ _ _ _ _
  case fadd => exact fadd _ _ _ _
  case fsub => exact fsub _ _ _ _
  case fmul => exact fmul _ _ _ _
  case ffma => exact ffma _ _ _ _
  case fmin => exact fmin _ _ _ _
  case fmax => exact fmax _ _ _ _
  case fminNum => exact fminNum _ _ _ _
  case fmaxNum => exact fmaxNum _ _ _ _
  case fabs => exact fabs _ _ _
  case fneg => exact fneg _ _ _
  case frnd => exact frnd _ _ _
  case fclass => exact fclass _ _ _
  case fscale => exact fscale _ _ _ _
  case fcmp => exact fcmp _ _ _ _ _
  case cvtF2i => exact cvtF2i _ _ _ _
  case cvtI2f => exact cvtI2f _ _ _ _
  case cvtF2f => exact cvtF2f _ _ _ _ _
  case qnt => exact qnt _ _ _ _
  case dqnt => exact dqnt _ _ _ _
  case mxsc => exact mxsc _ _ _ _
  case pack => exact pack _ _ _ _
  case unpk => exact unpk _ _ _
  case rng => exact rng _ _ _
  case flags => exact flags _ _ _
  case rcp => exact rcp _ _ _ _
  case rsq => exact rsq _ _ _ _
  case sqrt => exact sqrt _ _ _ _
  case ex2 => exact ex2 _ _ _ _
  case lg2 => exact lg2 _ _ _ _
  case sinpi => exact sinpi _ _ _ _
  case cospi => exact cospi _ _ _ _
  case tanh => exact tanh _ _ _ _
  case sigm => exact sigm _ _ _ _
  case lreadAt => exact lreadAt _ _ _ _
  case lreadBack => exact lreadBack _ _ _ _
  case lreadFwd => exact lreadFwd _ _ _ _
  case lreadFlip => exact lreadFlip _ _ _ _
  case bcast => exact bcast _ _ _ _
  case voteAny => exact voteAny _ _ _
  case voteAll => exact voteAll _ _ _
  case voteBal => exact voteBal _ _ _ _
  case lane => exact lane _
  case grpid => exact grpid _
  case getw => exact getw _
  case setw => exact setw _ _
  case matchLanes => exact matchLanes _ _ _ _
  case redAdd => exact redAdd _ _ _ _
  case redMin => exact redMin _ _ _ _
  case redMax => exact redMax _ _ _ _
  case redBitAnd => exact redBitAnd _ _ _ _
  case redBitOr => exact redBitOr _ _ _ _
  case redBitXor => exact redBitXor _ _ _ _
  case scanAdd => exact scanAdd _ _ _ _
  case scanMax => exact scanMax _ _ _ _
  case csamp => exact csamp _ _ _ _
  case bra => exact bra _ _
  case brx => exact brx _ _
  case brz => exact brz _ _
  case join => exact join _
  case leave => exact leave _
  case cont => exact cont _
  case call => exact call _
  case calli => exact calli _
  case ret => exact ret
  case yield => exact yield
  case exit => exact exit _ _ _
  case nop => exact nop
  case mand => exact mand _ _ _
  case mor => exact mor _ _ _
  case mxor => exact mxor _ _ _
  case mnot => exact mnot _ _
  case mandn => exact mandn _ _ _
  case mpop => exact mpop _ _
  case mffs => exact mffs _ _
  case mcur => exact mcur _
  case mspill => exact mspill _ _
  case mfill => exact mfill _ _ _
  case setmode => exact setmode _ _ _ _
  case getmode => exact getmode _
  case bar => exact bar _
  case barTask => exact barTask _
  case bara => exact bara _ _
  case barw => exact barw _ _ _
  case barc => exact barc _ _ _
  case role => exact role _
  case teamid => exact teamid _
  case nteam => exact nteam _
  case gridid => exact gridid _
  case lclk => exact lclk _ _
  case taskend => exact taskend
  case safept => exact safept
  case ecard => exact ecard _ _ _ _ _ _
  case etail => exact etail _ _ _
  case eseq => exact eseq _ _ _
  case ewait => exact ewait _ _ _
  case graph => exact graph _ _ _
  case gcond => exact gcond _ _ _
  case ldmb => exact ldmb _ _ _ _ _
  case mstart => exact mstart _ _ _ _ _
  case maccRd => exact maccRd _ _ _
  case maccWr => exact maccWr _ _ _
  case trap => exact trap _
  case eret => exact eret
  case emret => exact emret _
  case wrd => exact wrd _ _ _
  case wwr => exact wwr _ _ _ _
  case winfo => exact winfo _ _
  case csrr => exact csrr _ _
  case csrw => exact csrw _ _ _
  case segld => exact segld _ _
  case tlbinv => exact tlbinv
  case tlbinvVa => exact tlbinvVa _
  case dbgbrk => exact dbgbrk _
  case halt => exact halt
  case ldGB => exact ldGB _ _ _ _ _
  case ldGH => exact ldGH _ _ _ _ _
  case ldGW => exact ldGW _ _ _ _ _
  case ldGD => exact ldGD _ _ _ _ _
  case ldGQ => exact ldGQ _ _ _ _ _
  case ldSB => exact ldSB _ _ _ _ _
  case ldSH => exact ldSH _ _ _ _ _
  case ldSW => exact ldSW _ _ _ _ _
  case ldSD => exact ldSD _ _ _ _ _
  case ldSQ => exact ldSQ _ _ _ _ _
  case ldCB => exact ldCB _ _ _ _ _
  case ldCH => exact ldCH _ _ _ _ _
  case ldCW => exact ldCW _ _ _ _ _
  case ldCD => exact ldCD _ _ _ _ _
  case ldCQ => exact ldCQ _ _ _ _ _
  case ldLB => exact ldLB _ _ _ _ _
  case ldLH => exact ldLH _ _ _ _ _
  case ldLW => exact ldLW _ _ _ _ _
  case ldLD => exact ldLD _ _ _ _ _
  case ldLQ => exact ldLQ _ _ _ _ _
  case stGB => exact stGB _ _ _ _ _
  case stGH => exact stGH _ _ _ _ _
  case stGW => exact stGW _ _ _ _ _
  case stGD => exact stGD _ _ _ _ _
  case stGQ => exact stGQ _ _ _ _ _
  case stSB => exact stSB _ _ _ _ _
  case stSH => exact stSH _ _ _ _ _
  case stSW => exact stSW _ _ _ _ _
  case stSD => exact stSD _ _ _ _ _
  case stSQ => exact stSQ _ _ _ _ _
  case stLB => exact stLB _ _ _ _ _
  case stLH => exact stLH _ _ _ _ _
  case stLW => exact stLW _ _ _ _ _
  case stLD => exact stLD _ _ _ _ _
  case stLQ => exact stLQ _ _ _ _ _
  case ldGAcqW => exact ldGAcqW _ _ _ _ _ _
  case ldGAcqD => exact ldGAcqD _ _ _ _ _ _
  case ldSAcqW => exact ldSAcqW _ _ _ _ _ _
  case ldSAcqD => exact ldSAcqD _ _ _ _ _ _
  case stGRelW => exact stGRelW _ _ _ _ _ _
  case stGRelD => exact stGRelD _ _ _ _ _ _
  case stSRelW => exact stSRelW _ _ _ _ _ _
  case stSRelD => exact stSRelD _ _ _ _ _ _
  case atomGW => exact atomGW _ _ _ _ _ _
  case atomGD => exact atomGD _ _ _ _ _ _
  case atomSW => exact atomSW _ _ _ _ _ _
  case atomSD => exact atomSD _ _ _ _ _ _
  case redmGW => exact redmGW _ _ _ _ _ _
  case redmGD => exact redmGD _ _ _ _ _ _
  case ldv => exact ldv _ _ _ _ _ _ _
  case stv => exact stv _ _ _ _ _ _ _
  case prf => exact prf _ _ _
  case cwb => exact cwb _ _ _
  case cinv => exact cinv _ _ _
  case waitc => exact waitc _ _ _
  case segrd => exact segrd _ _ _
  case fence => exact fence _
  case juryrig => exact juryrig _
  case illegal => exact illegal _
  case vendorTest => exact vendorTest _
  case mlda => exact mlda _ _ _ _ _
  case mma => exact mma _ _ _ _ _ _ _
  case mzero => exact mzero _ _
  case mdrain => exact mdrain _
  case marrb => exact marrb _
  case mwaitb => exact mwaitb _
  case mloop => exact mloop _ _
  case mscale => exact mscale _ _ _
  case mend => exact mend
  case maccRdStream => exact maccRdStream _ _
  case maccWrStream => exact maccWrStream _ _
  case exitArrival => exact exitArrival _ _ _
  case fragmentAgeing => exact fragmentAgeing _ _ _
  case hang => exact hang _ _
  case inFlightFinish => exact inFlightFinish _ _ _ _ _
  case reslice => exact reslice _
  case taskBoundary => exact taskBoundary _
  case teamEnd => exact teamEnd _
  case teamPlacement => exact teamPlacement _
  case trapReport => exact trapReport _ _
  case reportRingWrite => exact reportRingWrite _
  case pageWalk => exact pageWalk _ _ _ _
  case taskRollback => exact taskRollback _
  case telltaleMismatch => exact telltaleMismatch _ _
  case cardAcceptance => exact cardAcceptance
  case cardDispatch => exact cardDispatch
  case cardCompletion => exact cardCompletion _
  case quaySendArrival => exact quaySendArrival _ _ _
  case quayLinkDown => exact quayLinkDown _
  case graphStart => exact graphStart _
  case graphNode => exact graphNode _
  case berthDecision => exact berthDecision _
  case commandAcceptance => exact commandAcceptance _
  case commandCompletion => exact commandCompletion _
  case launch => exact launch _
  case syslaunch => exact syslaunch _
  case copy => exact copy _
  case ctxnew => exact ctxnew _
  case ctxdel => exact ctxdel _
  case mapcode => exact mapcode _
  case tlbinvCommand => exact tlbinvCommand _
  case resumeRetry => exact resumeRetry _
  case resumeSkip => exact resumeSkip _
  case resumeKill => exact resumeKill _
  case grload => exact grload _
  case grstart => exact grstart _
  case debugCommand => exact debugCommand _
  case signal => exact signal _
  case preemptVacate => exact preemptVacate _
  case preemptResize => exact preemptResize _
  case preemptReleaseHold => exact preemptReleaseHold _
  case s2resumeRetry => exact s2resumeRetry _
  case s2resumeSkip => exact s2resumeSkip _
  case s2resumeKill => exact s2resumeKill _
  case s2inv => exact s2inv _
  case preemptGraceExpiry => exact preemptGraceExpiry _ _
  case contextSave => exact contextSave _
  case teamResume => exact teamResume _
  case l2Window => exact l2Window _
  case railRaiseSettled => exact railRaiseSettled _
  case railLowerHoldExpiry => exact railLowerHoldExpiry _
  case thermalStep => exact thermalStep _ _
  case thermalShutdown => exact thermalShutdown _
  case brownout => exact brownout
  case powerUp => exact powerUp
  case pfFlr => exact pfFlr
  case vfFlr => exact vfFlr _
  case partitionStart => exact partitionStart _
  case kick => exact kick _ _
  case hmWallHi => exact hmWallHi _
  case val => exact val _
  case hmInjCtl => exact hmInjCtl _
  case tenantBlockWrite => exact tenantBlockWrite _ _ _
  case partitionBlockWrite => exact partitionBlockWrite _ _ _
  case quayPortWrite => exact quayPortWrite _ _
  case repbase => exact repbase _ _ _
  case rephead => exact rephead _ _
  case registerWrite => exact registerWrite _ _ _
  case quayLinkUp => exact quayLinkUp _
  case chargeRecordUpdate => exact chargeRecordUpdate _
  case debuggerAttach => exact debuggerAttach _ _


/-- The bytes of a well-formed group instruction, and any that follow them, decode to it and those. -/
theorem decode_encode {i : Instr} {f : Form} (hwf : i.wf = true) (hf : i.form = some f) :
    ∃ ws, encode i = some ws ∧ ∀ rest, decode (wordBytes ws ++ rest) = .ok (i, rest) :=
  (statement i hwf).1 f hf

/-- The word of a well-formed stream instruction decodes to it. -/
theorem decodeStream_encodeStream {i : Instr} {w : DWord} (hwf : i.wf = true) (hw : encodeStream i = some w) : decodeStream w = i :=
  (statement i hwf).2 w hw

/-- No two well-formed group instructions have the same words. -/
theorem encode_injective {i j : Instr} {f g : Form} (hi : i.wf = true) (hj : j.wf = true) (hf : i.form = some f) (hg : j.form = some g)
    (h : encode i = encode j) : i = j := by
  obtain ⟨ws, hws, di⟩ := decode_encode hi hf
  obtain ⟨vs, hvs, dj⟩ := decode_encode hj hg
  obtain rfl : ws = vs := Option.some.inj (hws.symm.trans (h.trans hvs))
  have hd := (di []).symm.trans (dj [])
  exact congrArg Prod.fst (Except.ok.inj hd)

/-- No two well-formed stream instructions have the same word. -/
theorem encodeStream_injective {i j : Instr} {w : DWord} (hi : i.wf = true) (hj : j.wf = true) (hiw : encodeStream i = some w)
    (hjw : encodeStream j = some w) : i = j :=
  (decodeStream_encodeStream hi hiw).symm.trans (decodeStream_encodeStream hj hjw)

/-- Settles O59: each constructor's encoding decodes to it again, and a decoder that gives the instruction back makes the encoder injective. -/
theorem roundTrip : Obligations.RoundTrip := by
  refine ⟨fun i f rest hwf hf => ?_, fun i w => decodeStream_encodeStream, fun i j f g => encode_injective, fun i j w => encodeStream_injective⟩
  obtain ⟨ws, hws, hd⟩ := decode_encode hwf hf
  exact ⟨ws, hws, hd rest⟩

end Sys2Proof.Laws.RoundTrip
end

section
namespace Sys2Proof.Machine

/-! ### What the rails and clusters come to (R424-R427) -/

@[simp] theorem State.revote_up (s : State) : s.revote.up = s.up := by
  unfold State.revote
  split <;> rfl

@[simp] theorem State.revote_votes (s : State) : s.revote.votes = s.votes := by
  unfold State.revote
  split <;> rfl

/-- A cluster follows the votes within its rail's voltage, and is gated where no voting partition holds it. -/
theorem State.revote_cluster {s : State} (h : s.up = true) (k : Nat) :
    s.revote.clusters[k]? = (s.clusters[k]?).map (fun c =>
      { c with level := c.follow (s.wantLevel s.votes k) ((s.revote.rails[k / 4]?).getD {}), gated := !(s.votes.any (fun v => v.1.hasCluster k)) }) := by
  obtain ⟨hp, ht⟩ : s.boot.phase = 4 ∧ s.hm.thermalDown = false := by simpa [State.up] using h
  have hn : ¬(decide (s.boot.phase ≠ 4) || s.hm.thermalDown) = true := by simp [hp, ht]
  simp only [State.revote, if_neg hn, List.getElem?_map, List.getElem?_zipIdx, Option.map_map]
  cases s.clusters[k]? <;> simp

/-- A cluster's thermal step stands while its clock follows. -/
theorem State.revote_thermal {s : State} (h : s.up = true) (k : Nat) :
    (s.revote.clusters[k]?).map Cluster.thermal = (s.clusters[k]?).map Cluster.thermal := by
  rw [State.revote_cluster h, Option.map_map]
  rfl

/-- What a cluster is to run at stands while the rails and clusters follow. -/
theorem State.revote_wantLevel {s : State} (h : s.up = true) (votes : List (Partition × Nat)) (k : Nat) :
    s.revote.wantLevel votes k = s.wantLevel votes k := by
  have hf : s.revote.fuses = s.fuses ∧ s.revote.hm = s.hm := by
    unfold State.revote
    split <;> exact ⟨rfl, rfl⟩
  simp only [State.wantLevel, State.thermalOf, State.revote_thermal h, hf.1, hf.2]

/-- A clock is no faster than its rail's voltage allows nor than it is to be, and exactly that fast where the rail does not rise. -/
theorem Cluster.follow_bounds (c : Cluster) (want : Nat) (r : Rail) :
    want ≤ c.follow want r ∧ r.volt ≤ c.follow want r ∧ (r.raising = false → c.follow want r = max want r.volt) := by
  unfold Cluster.follow
  refine ⟨by omega, by omega, fun hr => ?_⟩
  simp [hr]

/-- After a step of a running part each cluster stands as the votes and its rail's voltage ask. -/
theorem State.revote_settles {s : State} (h : s.up = true) {k : Nat} {c : Cluster} (hc : s.revote.clusters[k]? = some c) :
    s.wantLevel s.votes k ≤ c.level ∧ ((s.revote.rails[k / 4]?).getD {}).volt ≤ c.level
      ∧ (((s.revote.rails[k / 4]?).getD {}).raising = false → c.level = max (s.wantLevel s.votes k) ((s.revote.rails[k / 4]?).getD {}).volt)
      ∧ c.gated = !(s.votes.any (fun v => v.1.hasCluster k)) := by
  rw [State.revote_cluster h] at hc
  obtain ⟨c0, -, rfl⟩ := Option.map_eq_some_iff.1 hc
  obtain ⟨hw, hv, he⟩ := c0.follow_bounds (s.wantLevel s.votes k) ((s.revote.rails[k / 4]?).getD {})
  exact ⟨hw, hv, he, rfl⟩

theorem State.votes_issuer (s : State) (c : Option Cur) : ({ s with cur := c } : State).votes = s.votes := rfl

theorem State.wantLevel_issuer (s : State) (c : Option Cur) (votes : List (Partition × Nat)) (k : Nat) :
    ({ s with cur := c } : State).wantLevel votes k = s.wantLevel votes k := rfl

/-- What a step leaves is the state in which rails and clusters have followed the votes. -/
theorem State.settled_eq_revote (s : State) : ∃ u : State, s.settled = { u.revote with cur := none } := ⟨_, rfl⟩

/-- Settles O60: a step ends with the rails and clusters following the votes and nobody issuing, and every turn keeps both memories. -/
theorem everyStep : Obligations.EveryStep := by
  intro s
  have hmem : s.memWf = true → s.advance.settled.memWf = true := fun h => State.settled_memWf _ (State.advance_memWf s h)
  obtain ⟨u, hu⟩ := s.advance.settled_eq_revote
  refine ⟨s.advance.settled, rfl, rfl, ?_, hmem, ?_⟩
  · rw [hu]
    intro hup k c r hc hr
    have hrail : (u.revote.rails[k / 4]?).getD {} = r := by rw [show u.revote.rails[k / 4]? = some r from hr, Option.getD_some]
    have hup : u.up = true := u.revote_up.symm.trans hup
    exact hrail ▸ (State.revote_settles hup hc).2.1
  · rw [hu]
    intro hup k c hc
    have hup : u.up = true := u.revote_up.symm.trans hup
    simp only [State.votes_issuer, State.wantLevel_issuer, State.revote_votes, State.revote_wantLevel hup]
    exact State.revote_settles hup hc

end Sys2Proof.Machine
end

section
namespace Sys2Proof.Machine

/-! ### A store part of a trailing core (R388) -/

/-- A part for which the leading core made no request stores nothing (R388). -/
theorem State.performPart_blind_store {s : State} {tid gi : Nat} {o : Op} {keepL1 : Bool} {p : Part} {rel : Bool} {sc : Nat}
    (ho : o.kind = .store rel sc) (hp : p.blind = true) : s.performPart tid gi o keepL1 p = s := by
  have hw : s.writePart tid gi p p.data o.hint = s := if_pos hp
  simp only [State.performPart, ho, OpKind.reads, Bool.false_eq_true, if_false, hw]
  cases s.team? tid <;> rfl

/-- A part of one team of level 0 at reset. -/
def strayState : State := { State.reset with teams := [newTeam wordGrid 0 32 0] }

/-- A store of a trailing core, whose leading one made no such request. -/
def strayStore : Op :=
  { id := 0, path := 0, addr := 0, kind := .store false 0, parts := [], got := [], hint := 0, mr := 0, poisoned := none }

/-- Refutes O30: the parts of a store that a trailing core makes alone reach no memory (R388), and the statement does not leave them out: the
blind part of the byte 1 at address 0 leaves the zero that stood there. -/
theorem not_storePerformed : ¬ Obligations.StorePerformed := by
  intro h
  have hs : strayState.team? 0 = some (newTeam wordGrid 0 32 0) := rfl
  obtain ⟨-, hw, -⟩ := h strayState 0 0 strayStore false (blindPart 0 0 0 1 1 0) (newTeam wordGrid 0 32 0) false 0
  have hb := hw hs rfl rfl rfl rfl (by decide) (by decide) rfl 0
  rw [State.performPart_blind_store (rel := false) (sc := 0) rfl rfl] at hb
  have h0 : strayState.physByte 0 = 0 := rfl
  rw [h0] at hb
  exact absurd hb (by decide)

end Sys2Proof.Machine
end

section
namespace Sys2Proof.Machine

/-! ### Lane results and their frames (R9, R36, R41, R122, R161) -/

/-- An instruction whose unhindered issue always writes `n` result words in each lane of EXEC, and does nothing else. -/
structure WritesLanes (n : Nat) (i : Instr) : Prop where
  noBranch : ∀ fm, i.form = some fm → fm.branch = false
  effect : ∃ val : Iss → Nat → List Word, ∀ s, exec i s = issueOk i (fun q => q.modTeam (fun _ => q.laneResult n (val q))) s

/-- What one of these leaves unchanged. -/
theorem WritesLanes.laneFrame {n : Nat} {i : Instr} (hi : WritesLanes n i) {s t : State} {q : Iss} (h : Issues i s q) (ht : exec i s = .next t) :
    LaneFrame q (q.opD.dstRegs n) 0 t := by
  obtain ⟨hb, val, he⟩ := hi
  rw [he, issueOk_eq h] at ht
  cases ht
  exact Iss.laneFrame h.reads (hb _ h.form) n _

/-- What an effect can come to that writes `n` words in each lane of EXEC and raises flags: its trap, or the lane result (R161, R162). -/
def Iss.FloatEff (q : Iss) (n : Nat) (e : Eff) : Prop :=
  (∃ tr, e = .trap tr) ∨ ∃ val fl, e = .ok (q.modTeam (fun _ => (q.laneResult n val).raise q.c.g fl))

@[simp] theorem Iss.FloatEff.trap {q : Iss} {n : Nat} (tr : Trap) : q.FloatEff n (.trap tr) := .inl ⟨tr, rfl⟩

@[simp] theorem Iss.floatEff_ite {q : Iss} {n : Nat} {c : Prop} [Decidable c] {e e' : Eff} :
    q.FloatEff n (if c then e else e') ↔ (c → q.FloatEff n e) ∧ (¬c → q.FloatEff n e') := by
  split <;> simp [*]

@[simp] theorem Iss.FloatEff.floatRes {q : Iss} (n cnt : Nat) (words : Nat → List Nat → List Word) (f : Nat → Nat → ElemRes) :
    q.FloatEff n (q.floatRes n cnt words f) := by
  cases h : q.fpTrap (q.lanes.map (fun i => (i, (List.range cnt).map (f i)))) with
  | none => exact .inr ⟨_, _, Iss.floatRes_ok n words h⟩
  | some tr => exact .inl ⟨tr, Iss.floatRes_trap n words h⟩

@[simp] theorem Iss.FloatEff.floatOp {q : Iss} (f : Nat → Nat → ElemRes) : q.FloatEff 1 (q.floatOp f) :=
  Iss.floatEff_ite.2 ⟨fun _ => .floatRes .., fun _ => .trap _⟩

/-- An instruction whose unhindered issue traps, or writes `n` result words in each lane of EXEC and raises flags. -/
structure WritesFloat (n : Nat) (i : Instr) : Prop where
  noBranch : ∀ fm, i.form = some fm → fm.branch = false
  effect : ∃ eff : Iss → Eff, (∀ s, exec i s = issue i eff s) ∧ ∀ q : Iss, q.FloatEff n (eff q)

/-- What one of these leaves unchanged. -/
theorem WritesFloat.laneFrame {n : Nat} {i : Instr} (hi : WritesFloat n i) {s t : State} {q : Iss} (h : Issues i s q) (ht : exec i s = .next t) :
    (∃ fl, LaneFrame q (q.opD.dstRegs n) fl t) ∨ ∃ tr, t = q.trapped tr := by
  obtain ⟨hb, eff, he, hf⟩ := hi
  rw [he, issue_eq h] at ht
  rcases hf q.counted with ⟨tr, hr⟩ | ⟨val, fl, hr⟩
  · rw [hr] at ht
    cases ht
    exact .inr ⟨tr, rfl⟩
  · rw [hr, Iss.counted_c h.reads] at ht
    cases ht
    exact .inl ⟨fl, Iss.laneFrame_raise h.reads (hb _ h.form) n val fl⟩

/-- The frame of an instruction that is ILLEGAL under a type, and else writes its lane result. -/
theorem laneResult_frame_or_trap {i : Instr} {s t : State} {q : Iss} {n : Nat} {bad : Iss → Prop} [∀ q, Decidable (bad q)] {tr : Iss → Trap}
    {val : Iss → Nat → List Word} (h : Issues i s q) (hb : q.fm.branch = false)
    (ht : issue i (fun q => if bad q then .trap (tr q) else .ok (q.modTeam (fun _ => q.laneResult n (val q)))) s = .next t) :
    LaneFrame q (q.opD.dstRegs n) 0 t ∨ ∃ tr, t = q.trapped tr := by
  rw [issue_eq h] at ht
  by_cases hq : bad q.counted
  · simp only [if_pos hq] at ht
    cases ht
    exact .inr ⟨_, rfl⟩
  · simp only [if_neg hq] at ht
    cases ht
    exact .inl (Iss.laneFrame h.reads hb n _)

theorem exec_voteAny (x : Ext) (d a : Code) (s : State) : exec (.voteAny x d a) s = execVoteAny x d a s := rfl

theorem exec_voteAll (x : Ext) (d a : Code) (s : State) : exec (.voteAll x d a) s = execVoteAll x d a s := rfl

/-- VOTE.ANY and VOTE.ALL without MDST write one word in each lane of EXEC. -/
theorem vote_laneFrame {i : Instr} {s t : State} {q : Iss} {d : Code} {m : Iss → Mask} {val : Iss → Nat → Word} (h : Issues i s q)
    (hb : q.fm.branch = false) (hm : q.fm.p.mdst = false)
    (ht : issueOk i (fun q => if q.fm.p.mdst then q.tripleResult d (m q) else q.result (val q)) s = .next t) :
    LaneFrame q (q.opD.dstRegs 1) 0 t := by
  rw [issueOk_eq h, Iss.counted_fm h.reads, hm] at ht
  cases ht
  exact Iss.result_frame h.reads hb _

/-- Settles O51: each instruction named writes its lane result on the counted state, or traps; the frames of those two say what stands. -/
theorem laneFrames : Obligations.LaneFrames := by
  intro s t q x p c e d a b sh n imm h lim g fmt
  have writes : ∀ (k : Nat) (l : List Instr), (∀ i ∈ l, WritesLanes k i) → ∀ i ∈ l, Issues i s q → exec i s = .next t →
      LaneFrame q (q.opD.dstRegs k) 0 t := fun _ _ hl i hi => (hl i hi).laneFrame
  have float : ∀ (k : Nat) (l : List Instr), (∀ i ∈ l, WritesFloat k i) → ∀ i ∈ l, Issues i s q → exec i s = .next t →
      (∃ fl, LaneFrame q (q.opD.dstRegs k) fl t) ∨ ∃ tr, t = q.trapped tr := fun _ _ hl i hi => (hl i hi).laneFrame
  refine ⟨writes 1 _ ?_, writes 2 _ ?_, ?_, ?_, ?_, float 1 _ ?_, ?_⟩
  · simp only [List.forall_mem_cons, List.not_mem_nil, false_imp_iff, implies_true, and_true]
    and_intros
    all_goals exact ⟨fun _ hf => Option.some.inj hf ▸ rfl, _, fun _ => by unfold exec; rfl⟩
  · simp only [List.forall_mem_cons, List.not_mem_nil, false_imp_iff, implies_true, and_true]
    and_intros
    all_goals exact ⟨fun _ hf => Option.some.inj hf ▸ rfl, _, fun _ => by unfold exec; rfl⟩
  · simp only [List.forall_mem_cons, List.not_mem_nil, false_imp_iff, implies_true, and_true]
    exact ⟨fun h hm ht => vote_laneFrame h (Option.some.inj h.form ▸ rfl) hm ((exec_voteAny x d a s).symm.trans ht),
      fun h hm ht => vote_laneFrame h (Option.some.inj h.form ▸ rfl) hm ((exec_voteAll x d a s).symm.trans ht)⟩
  · exact fun h ht => laneResult_frame_or_trap h (Option.some.inj h.form ▸ rfl) (by unfold exec at ht; exact ht)
  · exact fun h ht => laneResult_frame_or_trap h (Option.some.inj h.form ▸ rfl) (by unfold exec at ht; exact ht)
  · simp only [List.forall_mem_cons, List.not_mem_nil, false_imp_iff, implies_true, and_true]
    and_intros
    all_goals
      refine ⟨fun _ hf => Option.some.inj hf ▸ rfl, _, fun _ => by unfold exec; rfl, fun q => ?_⟩
      simp [Iss.farith, Iss.fminmaxOp]
  · have hu : WritesFloat 2 (.unpk x d a) :=
      ⟨fun _ hf => Option.some.inj hf ▸ rfl, _, fun _ => by unfold exec; rfl, fun q => Iss.floatEff_ite.2 ⟨fun _ => .floatRes .., fun _ => .trap _⟩⟩
    exact hu.laneFrame

end Sys2Proof.Machine
end

section
namespace Sys2Proof.Machine

/-! ### What Telltale hears of a branch (R389) -/

/-- BRA changes at most the pc on the counted state. -/
theorem exec_bra_eq {s : State} {q : Iss} {c : BitVec 4} {off : BitVec 21} (h : Issues (.bra c off) s q) :
    ∃ f : Team → Team, (∀ t, (f t).id = t.id ∧ (f t).tel = t.tel) ∧ exec (.bra c off) s = .next (q.counted.s.modTeam q.c.team f) := by
  have he : exec (.bra c off) s = .next (if q.counted.taken c = 0 then q.counted.s else q.counted.goto (q.counted.target off)) :=
    issueOk_eq h (fun q => if q.taken c = 0 then q.s else q.goto (q.target off))
  rw [he]
  split
  · exact ⟨id, fun _ => ⟨rfl, rfl⟩, by simp [State.modTeam]⟩
  · exact ⟨fun t => t.modGroup q.c.g (fun g => g.modFrag q.c.f (fun f => { f with pc := q.counted.target off })), fun _ => ⟨rfl, rfl⟩, by
      rw [Iss.goto, Iss.modFrag, Iss.modGroup, Iss.modTeam, Iss.counted_c h.reads]⟩

/-- A branch of a checked team adds an event to its team: no frame leaves that team as it was. -/
theorem not_groupFrame_bra {s t : State} {q : Iss} {c : BitVec 4} {off : BitVec 21} (h : Issues (.bra c off) s q)
    (hp : q.t.pairSlot.isSome = true) (ht : exec (.bra c off) s = .next t) : ¬ GroupFrame q (fun g => g) t := by
  rintro ⟨t', ho, -, hc⟩
  obtain ⟨f, hf, he⟩ := exec_bra_eq h
  obtain rfl : q.counted.s.modTeam q.c.team f = t := Host.Outcome.next.inj (he.symm.trans ht)
  have hteam := (Iss.onlyTeam_of_issuer h.reads f (fun x hx => (hf x).1.trans hx)).team
  have ht' : t' = f (q.countTeam q.t) := Option.some.inj (ho.team.symm.trans hteam)
  have htel := congrArg Team.tel hc
  change t'.tel = q.t.tel at htel
  have hbranch : q.fm.branch = true := Option.some.inj h.form ▸ rfl
  rw [ht', (hf _).2] at htel
  have hlen := congrArg List.length htel
  simp [Iss.countTeam, Iss.told, hbranch, hp] at hlen

/-- The first fragment of team 0 issues the word at its image's entry. -/
def branchCur : Cur := { team := 0, g := 0, f := 0, addr := 0x10100 }

/-- A checked team of level 2 whose first fragment issues a word. -/
def checkedTeam : Team := { newTeam wordGrid 0 32 0 with pairSlot := some 0 }

/-- A part at reset but for one checked team, which issues. -/
def checkedState : State := { State.reset with teams := [checkedTeam], cur := some branchCur }

/-- The form of BRA with the condition ALWAYS. -/
def branchForm : Form :=
  { major := 0x20, flds := [], pfx := none, dagger := none, ddagger := false, noXb := false, lk := none, lk15 := false, valOk := true, lit := none,
    branch := true }

/-- BRA as the first fragment of the checked team issues it. -/
def branchIss : Iss :=
  let s := checkedState.atIssue (.bra 0 0) branchCur
  let t := (s.team? 0).getD checkedTeam
  let g := (t.body.groups[0]?).getD { role := 0, first := 0, count := 0, pipe := 0 }
  let f := (g.frags[0]?).getD { mask := 0, pc := 0 }
  { c := branchCur, s := s, t := t, g := g, f := f, fm := branchForm, ex := execMask t g f none }

theorem branchIss_issues : Issues (.bra 0 0) checkedState branchIss where
  form := rfl
  issuer := by decide +kernel
  reads := State.issuer_eq_some.2 ⟨rfl, rfl, by decide +kernel, by decide +kernel, by decide +kernel, rfl, rfl, rfl⟩
  noBreakpoint := by decide +kernel
  legal := by decide +kernel
  apart := rfl
  sound := by decide +kernel
  closed := by decide +kernel

/-- Refutes O52: a branch of a checked team is an event of Telltale's (R389), which stands in its team beside what an issue counts; BRA of the team
of level 2 on pair slot 0 leaves one. -/
theorem not_groupFrames : ¬ Obligations.GroupFrames := by
  intro h
  obtain ⟨f, -, he⟩ := exec_bra_eq branchIss_issues
  obtain ⟨-, -, -, -, -, -, -, -, hbra⟩ := h checkedState _ branchIss ⟨none, none⟩ none 0 0 0 0 0 0 0
  exact not_groupFrame_bra branchIss_issues rfl he (hbra (.bra 0 0) (by simp) branchIss_issues he)

end Sys2Proof.Machine
end

section
namespace Sys2Proof.Machine

/-! ### Writes that reach the device (R432) -/

theorem State.hostWrite_up {s : State} (h : s.up = true) (f : State → State) : s.hostWrite f = .next (f s) := by
  rw [State.hostWrite, if_pos h]

theorem State.hostWrite_down {s : State} (h : s.up = false) (f : State → State) : s.hostWrite f = .next s := by
  rw [State.hostWrite, if_neg (by simp [h])]

/-- A write of a register that is no event of its own, at an aligned offset, is a host write like the others. -/
theorem execRegisterWrite_eq {fn : Fn} {off : Nat} (h : ownEvent fn off = false) (ha : off % 4 = 0) (v : Word) :
    ∃ f : State → State, ∀ s, execRegisterWrite fn off v s = s.hostWrite f :=
  ⟨_, fun s => by rw [execRegisterWrite, if_neg (by simp [h, ha])]⟩

/-! ### The Harbourmaster's registers (R399, R406, R445) -/

/-- VAL names in SPARE a slot outside its tenant's partitions. -/
theorem valBad_iff (s : State) (ten : Nat) (v : Word) :
    (List.range 24).any (fun j => v.getLsbD (8 + j) && !s.tenantSlot ten j) = true
      ↔ ∃ j < 24, v.getLsbD (8 + j) = true ∧ s.tenantSlot ten j = false := by
  simp [List.any_eq_true]

theorem execVal_refused {s : State} {v : Word} (h : s.up = true)
    (hb : ∃ j < 24, v.getLsbD (8 + j) = true ∧ s.tenantSlot (bitsOf s.hm.mbTen 3 0) j = false) :
    execVal v s = .next { s with hm := { s.hm with mbDone := true, mbRefused := true } } := by
  rw [execVal, State.hostWrite_up h]
  simp only [(valBad_iff s _ v).2 hb, if_true]

theorem execVal_set {s : State} {v : Word} (h : s.up = true)
    (hb : ¬∃ j < 24, v.getLsbD (8 + j) = true ∧ s.tenantSlot (bitsOf s.hm.mbTen 3 0) j = false) :
    execVal v s = .next { s with
      hm := { s.hm with mbDone := true, mbRefused := false },
      tenants := listModify s.tenants (bitsOf s.hm.mbTen 3 0) (fun (t : Tenant) => { t with ilpol := v &&& 0xFFFFFF07 }) } := by
  rw [execVal, State.hostWrite_up h]
  simp only [Bool.eq_false_iff.2 (mt (valBad_iff s _ v).1 hb), Bool.false_eq_true, if_false]

theorem execHmInjCtl_armed {s : State} {v : Word} (h : s.up = true) (ha : s.hm.injCtl.getLsbD 0 = true) :
    execHmInjCtl v s = .next { s with hm := { s.hm with injCtl := (s.hm.injCtl &&& ~~~1) ||| (v &&& 1) } } := by
  rw [execHmInjCtl, State.hostWrite_up h]
  simp only [ha, Bool.not_true, Bool.false_and, Bool.false_eq_true, if_false, if_true]

theorem execHmInjCtl_free {s : State} {v : Word} (h : s.up = true) (ha : ¬s.hm.injCtl.getLsbD 0 = true) :
    execHmInjCtl v s = .next { s with hm := { s.hm with injCtl := v &&& 0x1F3F7F01, injCount := if v.getLsbD 0 then 0 else s.hm.injCount } } := by
  have hbit : (v &&& (0x1F3F7F01 : Word)).getLsbD 0 = v.getLsbD 0 := by simp
  rw [execHmInjCtl, State.hostWrite_up h]
  simp only [Bool.eq_false_iff.2 ha, Bool.false_eq_true, if_false, Bool.not_false, Bool.true_and, hbit]

/-! ### Tenant blocks (R404, R405) -/

section Tenant
variable {s : State} {t : Nat} {x : Tenant} {v : Word} (h : s.up = true) (hx : s.tenants[t]? = some x)
include h hx

theorem execTenantBlockWrite_ctl : execTenantBlockWrite t 0 v s = .next (s.writeTenCtl t x v) := by
  rw [execTenantBlockWrite, State.hostWrite_up h, hx]
  rfl

theorem execTenantBlockWrite_cardq : execTenantBlockWrite t 4 v s = .next (s.tenantSet t (fun x => { x with cardq := bitsOf v 10 0 })) := by
  rw [execTenantBlockWrite, State.hostWrite_up h, hx]
  rfl

theorem execTenantBlockWrite_verq : execTenantBlockWrite t 8 v s = .next (s.tenantSet t (fun x => { x with verq := v.toNat })) := by
  rw [execTenantBlockWrite, State.hostWrite_up h, hx]
  rfl

theorem execTenantBlockWrite_hvScope : execTenantBlockWrite t 0x0C v s = .next (s.tenantSet t (fun x => { x with hvScope := bitsOf v 1 0 })) := by
  rw [execTenantBlockWrite, State.hostWrite_up h, hx]
  rfl

theorem execTenantBlockWrite_s2root (hi : Bool) : execTenantBlockWrite t (0x10 + if hi then 4 else 0) v s =
    .next (s.writeFixed t x x.s2root (setHalf x.s2root hi v &&& fieldMask 45 10) (fun x d => { x with s2root := d })) := by
  rw [execTenantBlockWrite, State.hostWrite_up h, hx]
  cases hi <;> rfl

theorem execTenantBlockWrite_save (hi : Bool) : execTenantBlockWrite t (0x18 + if hi then 4 else 0) v s =
    .next (s.writeFixed t x x.save (setHalf x.save hi v &&& fieldMask 45 21) (fun x d => { x with save := d })) := by
  rw [execTenantBlockWrite, State.hostWrite_up h, hx]
  cases hi <;> rfl

theorem execTenantBlockWrite_ialim (hi : Bool) : execTenantBlockWrite t (0x20 + if hi then 4 else 0) v s =
    .next (s.writeFixed t x x.ialim (setHalf x.ialim hi v &&& fieldMask 45 21) (fun x d => { x with ialim := d })) := by
  rw [execTenantBlockWrite, State.hostWrite_up h, hx]
  cases hi <;> rfl

theorem execTenantBlockWrite_other {off : Nat} (ho : off ∉ [0, 4, 8, 0xC, 0x10, 0x14, 0x18, 0x1C, 0x20, 0x24]) :
    execTenantBlockWrite t off v s = .next s := by
  simp only [List.mem_cons, List.not_mem_nil, or_false, not_or] at ho
  rw [execTenantBlockWrite, State.hostWrite_up h, hx]
  simp [ho]

end Tenant

/-- A field that stands while EN is 1: a write of another value is refused, and any other write stands. -/
theorem State.writeFixed_cases (s : State) (t : Nat) (x : Tenant) (old new : DWord) (put : Tenant → DWord → Tenant) :
    (x.en = true → old ≠ new → s.writeFixed t x old new put = s.tenantError t)
    ∧ (x.en = false ∨ old = new → s.writeFixed t x old new put = s.tenantSet t (fun x => put x new)) := by
  unfold State.writeFixed
  refine ⟨fun he hn => if_pos (by simp [he, hn]), ?_⟩
  rintro (he | he)
  · exact if_neg (by simp [he])
  · exact if_neg (by simp [he])

/-- The test of a write of EN and WCEIL. -/
theorem writeTenCtl_test (s : State) (t : Nat) (x : Tenant) (v : Word) :
    ((x.en && decide (bitsOf v 15 8 ≠ x.wceil)) || (v.getLsbD 0 && !([32, 64, 96].contains (bitsOf v 15 8)))
        || (x.en && !v.getLsbD 0 && s.parts.any (fun p => p.owner == t))) = true
      ↔ (x.en = true ∧ bitsOf v 15 8 ≠ x.wceil) ∨ (v.getLsbD 0 = true ∧ bitsOf v 15 8 ∉ [32, 64, 96])
        ∨ (x.en = true ∧ v.getLsbD 0 = false ∧ ∃ z ∈ s.parts, z.owner = t) := by
  simp [and_assoc, or_assoc]

/-! ### Partition blocks (R407, R408) -/

section Partition
variable {s : State} {p : Nat} {y : Partition} {v : Word} (h : s.up = true) (hy : s.parts[p]? = some y)
include h hy

theorem execPartitionBlockWrite_ctl : execPartitionBlockWrite p 0 v s = .next (s.writePCtl p y v) := by
  rw [execPartitionBlockWrite, State.hostWrite_up h, hy]
  rfl

theorem execPartitionBlockWrite_clu0 : execPartitionBlockWrite p 8 v s =
    .next (s.writeMask p y (y.clu.getD 0 0) v (fun x w => { x with clu := listModify x.clu 0 (fun _ => w) })) := by
  rw [execPartitionBlockWrite, State.hostWrite_up h, hy]
  rfl

theorem execPartitionBlockWrite_clu1 : execPartitionBlockWrite p 0xC v s =
    .next (s.writeMask p y (y.clu.getD 1 0) (v &&& 0xFFFF) (fun x w => { x with clu := listModify x.clu 1 (fun _ => w) })) := by
  rw [execPartitionBlockWrite, State.hostWrite_up h, hy]
  rfl

theorem execPartitionBlockWrite_chan : execPartitionBlockWrite p 0x10 v s =
    .next (s.writeMask p y y.chan v (fun x w => { x with chan := w })) := by
  rw [execPartitionBlockWrite, State.hostWrite_up h, hy]
  rfl

theorem execPartitionBlockWrite_berth0 : execPartitionBlockWrite p 0x18 v s =
    .next ((s.writeMask p y (y.berth.getD 0 0) v (fun x w => { x with berth := listModify x.berth 0 (fun _ => w) })).clearBerths p 0 v) := by
  rw [execPartitionBlockWrite, State.hostWrite_up h, hy]
  rfl

theorem execPartitionBlockWrite_berth1 : execPartitionBlockWrite p 0x1C v s =
    .next ((s.writeMask p y (y.berth.getD 1 0) v (fun x w => { x with berth := listModify x.berth 1 (fun _ => w) })).clearBerths p 1 v) := by
  rw [execPartitionBlockWrite, State.hostWrite_up h, hy]
  rfl

theorem execPartitionBlockWrite_other {off : Nat} (ho : off ∉ [0, 8, 0xC, 0x10, 0x18, 0x1C]) : execPartitionBlockWrite p off v s = .next s := by
  simp only [List.mem_cons, List.not_mem_nil, or_false, not_or] at ho
  rw [execPartitionBlockWrite, State.hostWrite_up h, hy]
  simp [ho]

end Partition

/-- A mask takes its word while EN is 0; while it is 1 it gains the word's blocks, or the write is refused where another holds one. -/
theorem State.writeMask_cases (s : State) (p : Nat) (y : Partition) (old v : Word) (put : Partition → Word → Partition) :
    (y.en = false → s.writeMask p y old v put = s.modPart p (fun z => { put z v with cfgerr := false }))
    ∧ (y.en = true → s.blocksTaken p (put y (old ||| v)).clu (put y (old ||| v)).chan (put y (old ||| v)).berth = false →
        s.writeMask p y old v put = s.modPart p (fun z => { put z (old ||| v) with cfgerr := false }))
    ∧ (y.en = true → s.blocksTaken p (put y (old ||| v)).clu (put y (old ||| v)).chan (put y (old ||| v)).berth = true →
        s.writeMask p y old v put = s.modPart p (fun z => { z with cfgerr := true })) := by
  unfold State.writeMask gainWord
  refine ⟨fun he => ?_, fun he ht => ?_, fun he ht => ?_⟩
  · rw [if_pos (by simp [he])]
  · rw [if_neg (by simp [he])]
    exact if_neg (by simp [ht])
  · rw [if_neg (by simp [he])]
    exact if_pos ht

/-- What keeps EN from being set. -/
theorem State.enableBad_iff (s : State) (p : Nat) (y : Partition) (owner : Nat) :
    s.enableBad p y owner = true ↔ (∀ m ∈ y.clu, m = 0) ∨ y.chan = 0 ∨ (∀ m ∈ y.berth, m = 0)
      ∨ s.blocksTaken p y.clu y.chan y.berth = true ∨ ((s.tenants[owner]?).map (fun (t : Tenant) => t.en)).getD false = false := by
  simp only [State.enableBad, Bool.or_eq_true, List.all_eq_true, beq_iff_eq, Bool.not_eq_true', or_assoc]

/-- What a berth word does once its mask is written: the berths it clears leave, unless none would stay. -/
def State.leaveBerths (s : State) (y : Partition) (p : Nat) (v : Word) (k : Nat) (u : State) : State :=
  let old := (y.berth.getD k 0)
  let gone := (List.range 32).filter (fun i => old.getLsbD i && !v.getLsbD i)
  let stays := (List.range 64).any (fun b => !y.leaving.contains b && (if b / 32 = k then v.getLsbD (b % 32) && ((u.parts[p]?).getD {}).hasBerth b else y.hasBerth b))
  if !stays then u else gone.foldl (fun u i => u.modPart p (fun z =>
    if ((s.berths[32 * k + i]?).bind (·.queue)).isSome then { z with leaving := z.leaving.filter (· != 32 * k + i) ++ [32 * k + i] }
    else z.dropBerth (32 * k + i))) u

/-- Whether a berth holds a queue stands while others leave. -/
theorem foldl_leave_eq {s : State} {p k : Nat} (l : List Nat) (u : State) (hu : u.berths = s.berths) :
    l.foldl (fun u i =>
      let b := 32 * k + i
      match (u.berths[b]?).bind (·.queue) with
      | none => u.modPart p (fun x => x.dropBerth b)
      | some _ => u.modPart p (fun x => { x with leaving := x.leaving.filter (· != b) ++ [b] })) u
    = l.foldl (fun u i => u.modPart p (fun z =>
        if ((s.berths[32 * k + i]?).bind (·.queue)).isSome then { z with leaving := z.leaving.filter (· != 32 * k + i) ++ [32 * k + i] }
        else z.dropBerth (32 * k + i))) u := by
  induction l generalizing u with
  | nil => rfl
  | cons i l ih =>
    simp only [List.foldl_cons, hu]
    cases hq : (s.berths[32 * k + i]?).bind (·.queue) with
    | none => exact ih _ hu
    | some q => exact ih _ hu

/-- The clearing of berths in terms of what stood before the mask was written, where `z` is the partition since. -/
theorem State.clearBerths_eq {s u : State} {p k : Nat} {v : Word} {y z : Partition} (hz : u.parts[p]? = some z) (hu : u.berths = s.berths)
    (hen : z.en = true) (hl : z.leaving = y.leaving) (hk : z.berth.getD k 0 = y.berth.getD k 0 ∨ z.berth.getD k 0 = y.berth.getD k 0 ||| v)
    (ho : ∀ b, b / 32 ≠ k → z.hasBerth b = y.hasBerth b) : u.clearBerths p k v = s.leaveBerths y p v k u := by
  have hbit : ∀ i, ((z.berth.getD k 0).getLsbD i && !v.getLsbD i) = ((y.berth.getD k 0).getLsbD i && !v.getLsbD i) := by
    intro i
    rcases hk with hk | hk <;> rw [hk]
    rw [BitVec.getLsbD_or]
    cases v.getLsbD i <;> simp
  have hstay : ∀ b, (z.hasBerth b && !z.leaving.contains b
      && !(b / 32 == k && ((List.range 32).filter (fun i => (z.berth.getD k 0).getLsbD i && !v.getLsbD i)).contains (b % 32)))
      = (!y.leaving.contains b && (if b / 32 = k then v.getLsbD (b % 32) && z.hasBerth b else y.hasBerth b)) := by
    intro b
    have hb : b % 32 < 32 := Nat.mod_lt _ (by omega)
    by_cases hbk : b / 32 = k
    · have hz : z.hasBerth b = (z.berth.getD k 0).getLsbD (b % 32) := by rw [Partition.hasBerth, hbk]
      have hc : ((List.range 32).filter (fun i => (z.berth.getD k 0).getLsbD i && !v.getLsbD i)).contains (b % 32)
          = ((z.berth.getD k 0).getLsbD (b % 32) && !v.getLsbD (b % 32)) := by
        rw [Bool.eq_iff_iff]
        simp [hb]
      rw [hc, hl, if_pos hbk, hz, hbk]
      cases (z.berth.getD k 0).getLsbD (b % 32) <;> cases v.getLsbD (b % 32) <;> simp
    · rw [if_neg hbk, hl, ho b hbk, beq_eq_false_iff_ne.2 hbk]
      simp [Bool.and_comm]
  unfold State.clearBerths State.leaveBerths
  simp only [hz, Option.getD_some, hen, Bool.not_true, Bool.false_or, hstay]
  simp only [hbit]
  split
  · rfl
  · exact foldl_leave_eq _ u hu

/-- A berth word, mask and leaving together, in the three cases of its mask. -/
theorem State.writeBerths_cases {s : State} {p : Nat} {y : Partition} (hy : s.parts[p]? = some y) (k : Nat) (v : Word) :
    let put := fun (x : Partition) (w : Word) => { x with berth := listModify x.berth k (fun _ => w) }
    let old := y.berth.getD k 0
    let wrote := (s.writeMask p y old v put).clearBerths p k v
    (y.en = false → wrote = s.modPart p (fun z => { put z v with cfgerr := false }))
    ∧ (y.en = true → s.blocksTaken p (put y (old ||| v)).clu (put y (old ||| v)).chan (put y (old ||| v)).berth = false →
        wrote = s.leaveBerths y p v k (s.modPart p (fun z => { put z (old ||| v) with cfgerr := false })))
    ∧ (y.en = true → s.blocksTaken p (put y (old ||| v)).clu (put y (old ||| v)).chan (put y (old ||| v)).berth = true →
        wrote = s.leaveBerths y p v k (s.modPart p (fun z => { z with cfgerr := true }))) := by
  intro put old wrote
  have hat : ∀ f : Partition → Partition, (s.modPart p f).parts[p]? = some (f y) := fun f => by
    rw [State.modPart, listModify_getElem?_self, hy, Option.map_some]
  obtain ⟨hoff, hgain, hbad⟩ := s.writeMask_cases p y old v put
  refine ⟨fun he => ?_, fun he ht => ?_, fun he ht => ?_⟩
  · change (s.writeMask p y old v put).clearBerths p k v = _
    rw [hoff he, State.clearBerths, if_pos]
    simp [hat, put, he]
  · change (s.writeMask p y old v put).clearBerths p k v = _
    rw [hgain he ht]
    refine State.clearBerths_eq (hat _) rfl he rfl ?_ fun b hb => ?_
    · simp only [put, List.getD_eq_getElem?_getD, listModify_getElem?_self]
      cases hk : y.berth[k]? with
      | none => exact .inl rfl
      | some w => exact .inr (by simp [old, List.getD_eq_getElem?_getD, hk])
    · simp only [put, Partition.hasBerth, List.getD_eq_getElem?_getD, listModify_getElem?_ne _ _ hb]
  · change (s.writeMask p y old v put).clearBerths p k v = _
    rw [hbad he ht]
    exact State.clearBerths_eq (hat _) rfl he rfl (.inl rfl) fun _ _ => rfl

/-- A write of EN and OWNER while EN is 0. -/
theorem State.writePCtl_off (s : State) (p : Nat) (y : Partition) (v : Word) (he : y.en = false) :
    s.writePCtl p y v =
      if v.getLsbD 0 then
        if s.enableBad p y (bitsOf v 7 4) then s.partError p
        else s.modPart p (fun x => { x.fresh with en := true, owner := bitsOf v 7 4, cfgerr := false, busy := true })
      else s.modPart p (fun x => { x with owner := bitsOf v 7 4, cfgerr := false }) := by
  unfold State.writePCtl
  cases v.getLsbD 0 <;> simp [he]

/-- A write of EN and OWNER while EN is 1. -/
theorem State.writePCtl_on (s : State) (p : Nat) (y : Partition) (v : Word) (he : y.en = true) :
    s.writePCtl p y v =
      if bitsOf v 7 4 ≠ y.owner then s.partError p
      else if v.getLsbD 0 then s.modPart p (fun x => { x with cfgerr := false })
      else if s.partBusy p then s.partError p
      else (((s.wipeChannels y.chan).wipeClusters y).wipeBerths y).modPart p (fun x => { x.fresh with en := false, busy := false, cfgerr := false }) := by
  unfold State.writePCtl
  cases v.getLsbD 0 <;> by_cases ho : bitsOf v 7 4 = y.owner <;> simp [he, ho]

/-! ### Queue and report registers (R410, R436) -/

theorem State.attest_done {s : State} (h : s.boot.attested = true) : s.attest = s := by rw [State.attest, if_pos h]

/-- The first write of the PF's REPBASE after a bring-up makes the 104 reports of the attestation. -/
theorem State.attest_first {s : State} (h : s.boot.attested = false) :
    s.attest.boot.attested = true ∧ s.attest.pfRegs.reports.length = s.pfRegs.reports.length + 104 := by
  rw [State.attest, if_neg (by simp [h])]
  refine ⟨rfl, ?_⟩
  simp only [List.length_append, List.length_map, List.length_range]

theorem State.writeQueueReg_repLog2 (s : State) (fn : Fn) (v : Word) :
    s.writeQueueReg fn 0x10 v = s.modFn fn (fun r => { r with repLog2 := bitsOf v 3 0 }) := rfl

theorem State.writeQueueReg_qcb (s : State) (fn : Fn) (v : Word) (hi : Bool) {n : Nat} (hn : n < 256) :
    s.writeQueueReg fn (0x1000 + 8 * n + if hi then 4 else 0) v
      = s.modFn fn (fun r => { r with qcb := r.qcb.set n (setHalf (r.qcb.get n) hi v &&& fieldMask 45 6) }) := by
  have hq : (0x1000 + 8 * n + (if hi then 4 else 0) - 0x1000) / 8 = n := by cases hi <;> simp; omega
  have hh : ((0x1000 + 8 * n + if hi then 4 else 0) % 8 == 4) = hi := by cases hi <;> simp; omega
  have hr : (decide (0x1000 ≤ 0x1000 + 8 * n + if hi then 4 else 0) && decide ((0x1000 + 8 * n + if hi then 4 else 0) < 0x1800)) = true := by
    cases hi <;> simp <;> omega
  rw [State.writeQueueReg, if_neg (by omega), if_pos hr]
  simp only [hq, hh]

/-- The registers of a function stand at its own base: of a VF at 0, of the PF at 0x40000. -/
theorem execRegisterWrite_queue {s : State} (h : s.up = true) (v : Word) {q off : Nat} {z : Fn × Nat} (hz : z ∈ [(Fn.vf q, 0), (Fn.pf, 0x40000)])
    (ho : off ∉ [0x0, 0x8, 0xC, 0x18]) (ha : off % 4 = 0) : execRegisterWrite z.1 (z.2 + off) v s = .next (s.writeQueueReg z.1 off v) := by
  simp only [List.mem_cons, List.not_mem_nil, or_false] at hz ho
  have hown : ownEvent z.1 (z.2 + off) = false := by
    rcases hz with rfl | rfl
    · simp [ownEvent, ho]
    · simp [ownEvent, ho]
      omega
  rw [execRegisterWrite, if_neg (by rw [hown]; rcases hz with rfl | rfl <;> simp <;> omega), State.hostWrite_up h]
  rcases hz with rfl | rfl
  · simp
  · dsimp only
    rw [if_neg (by omega), if_neg (by omega), if_neg (by omega), if_pos (by omega), Nat.add_sub_cancel_left]

theorem execPartitionStart_eq {s : State} {p : Nat} {y : Partition} (hy : s.parts[p]? = some y) (he : y.en = true) (hb : y.busy = true) :
    exec (.partitionStart p) s = .next (s.modPart p (fun y => { y with busy := false })) := by
  change execPartitionStart p s = _
  simp only [execPartitionStart, hy, he, hb, Bool.and_self, if_true]

/-- What a write of a register of the PF that only holds its word comes to. -/
theorem exec_registerWrite_pf {s : State} {off : Nat} {v : Word} (ho : ownEvent .pf off = false) (ha : off % 4 = 0) (h : s.up = true) :
    exec (.registerWrite .pf off v) s = .next (
      if off = 0x100 then { s with hm := { s.hm with wallLo := v } }
      else if off = 0x200 then { s with hm := { s.hm with mbTen := v &&& 0xF } }
      else if off = 0x214 then (if s.hm.injCtl.getLsbD 0 then s else { s with hm := { s.hm with injSel := v } })
      else if 0x40000 ≤ off then s.writeQueueReg .pf (off - 0x40000) v
      else s) := by
  change execRegisterWrite .pf off v s = _
  rw [execRegisterWrite, if_neg (by simp [ho, ha]), State.hostWrite_up h]

/-- REPBASE takes its bits 45 to 6; the PF's first after a bring-up attests besides. -/
theorem execRepbase_cases {s : State} (h : s.up = true) (fn : Fn) (hi : Bool) (v : Word) :
    ∃ u, exec (.repbase fn hi v) s = .next u
      ∧ (fn ≠ .pf ∨ s.boot.attested = true → u = s.modFn fn (fun r => { r with repBase := setHalf r.repBase hi v &&& fieldMask 45 6 }))
      ∧ (fn = .pf → s.boot.attested = false → u.boot.attested = true ∧ u.pfRegs.reports.length = s.pfRegs.reports.length + 104) := by
  refine ⟨_, by unfold exec; exact State.hostWrite_up h _, ?_, ?_⟩
  · rintro (hn | ha)
    · exact if_neg hn
    · cases fn with
      | vf t => rfl
      | pf => exact State.attest_done ha
  · rintro rfl ha
    exact State.attest_first ha

/-- Settles O50: the equation of each register's write, in the cases of the rules on EN. -/
theorem hostWrites : Obligations.HostWrites := by
  intro s fn v hi t p q off x y hx hy writes ten ilpols count badSpare armed en w owner h tenBad tset fixed root save ialim enBad pset refused
    clu berth mask leave runs wiped
  have fix : ∀ (o : Nat) (old new : DWord) (put : Tenant → DWord → Tenant),
      exec (.tenantBlockWrite t o v) s = .next (s.writeFixed t x old new put) → fixed o old new (fun x => put x new) := by
    intro o old new put he
    obtain ⟨hbad, hset⟩ := s.writeFixed_cases t x old new put
    exact ⟨fun hen hn => by rw [he, hbad hen hn]; rfl, fun hen => by rw [he, hset hen]; rfl⟩
  have gain : ∀ (o : Nat) (old m : Word) (put : Word → Partition → Partition),
      exec (.partitionBlockWrite p o v) s = .next (s.writeMask p y old m (fun z w => put w z)) → mask o old m put id := by
    intro o old m put he
    obtain ⟨hoff, hgain, hbad⟩ := s.writeMask_cases p y old m (fun z w => put w z)
    exact ⟨fun hen => by rw [he, hoff hen], fun hen ht => by rw [he, hgain hen ht]; rfl, fun hen ht => by rw [he, hbad hen ht]; rfl⟩
  have berths : ∀ (o k : Nat), exec (.partitionBlockWrite p o v) s = .next ((s.writeMask p y (y.berth.getD k 0) v
      (fun z w => { z with berth := listModify z.berth k (fun _ => w) })).clearBerths p k v) → mask o (y.berth.getD k 0) v (berth k) (leave k) := by
    intro o k he
    obtain ⟨hoff, hgain, hbad⟩ := State.writeBerths_cases hy k v
    exact ⟨fun hen => by rw [he, hoff hen], fun hen ht => by rw [he, hgain hen ht]; rfl, fun hen ht => by rw [he, hbad hen ht]; rfl⟩
  have enBad_iff := s.enableBad_iff p y owner
  have pctl : s.up = true → exec (.partitionBlockWrite p 0 v) s = .next (s.writePCtl p y v) := fun hup => execPartitionBlockWrite_ctl hup hy
  refine ⟨?down, ?kick, ?wall, ?valSet, ?valBad, ?armed, ?free, ?tenBad, ?tenSet, ?cardq, ?verq, ?hvScope, ?fixed, ?tenOther, ?enBad, ?enSet,
    ?ownerOff, ?ownerOn, ?enOn, ?busy, ?wiped, ?masks, ?partOther, ?start, ?quay, ?repbase, ?rephead, ?wallLo, ?mbTen, ?injSel, ?queue⟩
  case down =>
    intro hup
    refine ⟨?_, fun ho ha => ?_⟩
    · simp only [writes, List.forall_mem_cons, List.not_mem_nil, false_imp_iff, implies_true, and_true]
      and_intros
      all_goals
        unfold exec
        exact State.hostWrite_down hup _
    · obtain ⟨f, hf⟩ := execRegisterWrite_eq ho ha v
      exact (hf s).trans (State.hostWrite_down hup f)
  case kick =>
    intro hup
    unfold exec
    exact State.hostWrite_up hup _
  case wall =>
    intro hup
    unfold exec
    exact State.hostWrite_up hup _
  case valSet => exact execVal_set
  case valBad => exact execVal_refused
  case armed => exact execHmInjCtl_armed
  case free => exact execHmInjCtl_free
  case tenBad =>
    intro hup hb
    exact (execTenantBlockWrite_ctl hup hx).trans (congrArg _ (if_pos ((writeTenCtl_test s t x v).2 hb)))
  case tenSet =>
    intro hup hb
    exact (execTenantBlockWrite_ctl hup hx).trans (congrArg _ (if_neg (mt (writeTenCtl_test s t x v).1 hb)))
  case cardq => exact fun hup => execTenantBlockWrite_cardq hup hx
  case verq => exact fun hup => execTenantBlockWrite_verq hup hx
  case hvScope => exact fun hup => execTenantBlockWrite_hvScope hup hx
  case fixed =>
    exact fun hup => ⟨fix _ _ _ (fun z d => { z with s2root := d }) (execTenantBlockWrite_s2root hup hx hi),
      fix _ _ _ (fun z d => { z with save := d }) (execTenantBlockWrite_save hup hx hi),
      fix _ _ _ (fun z d => { z with ialim := d }) (execTenantBlockWrite_ialim hup hx hi)⟩
  case tenOther => exact fun hup => execTenantBlockWrite_other hup hx
  case enBad =>
    intro hup hoff hen hb
    rw [pctl hup, s.writePCtl_off p y v hoff, if_pos hen, if_pos (enBad_iff.2 hb)]
    rfl
  case enSet =>
    intro hup hoff hen hb
    rw [pctl hup, s.writePCtl_off p y v hoff, if_pos hen, if_neg (mt enBad_iff.1 hb)]
  case ownerOff =>
    intro hup hoff hen
    rw [pctl hup, s.writePCtl_off p y v hoff, if_neg (Bool.eq_false_iff.1 hen)]
  case ownerOn =>
    intro hup hon ho
    rw [pctl hup, s.writePCtl_on p y v hon, if_pos ho]
    rfl
  case enOn =>
    intro hup hon hen ho
    rw [pctl hup, s.writePCtl_on p y v hon, if_neg (not_not_intro ho), if_pos hen]
    rfl
  case busy =>
    intro hup hon hen ho hb
    rw [pctl hup, s.writePCtl_on p y v hon, if_neg (not_not_intro ho), if_neg (Bool.eq_false_iff.1 hen), if_pos hb]
    rfl
  case wiped =>
    intro hup hon hen ho hb
    rw [pctl hup, s.writePCtl_on p y v hon, if_neg (not_not_intro ho), if_neg (Bool.eq_false_iff.1 hen), if_neg (Bool.eq_false_iff.1 hb)]
  case masks =>
    exact fun hup => ⟨gain _ _ _ (clu 0) (execPartitionBlockWrite_clu0 hup hy), gain _ _ _ (clu 1) (execPartitionBlockWrite_clu1 hup hy),
      gain _ _ _ (fun m z => { z with chan := m }) (execPartitionBlockWrite_chan hup hy), berths _ _ (execPartitionBlockWrite_berth0 hup hy),
      berths _ _ (execPartitionBlockWrite_berth1 hup hy)⟩
  case partOther => exact fun hup => execPartitionBlockWrite_other hup hy
  case start => exact execPartitionStart_eq hy
  case quay =>
    intro hup
    unfold exec
    exact State.hostWrite_up hup _
  case repbase => exact fun hup => execRepbase_cases hup fn hi v
  case rephead =>
    intro hup
    unfold exec
    exact State.hostWrite_up hup _
  case wallLo => exact fun hup => (exec_registerWrite_pf (by decide) (by decide) hup).trans rfl
  case mbTen => exact fun hup => (exec_registerWrite_pf (by decide) (by decide) hup).trans rfl
  case injSel => exact fun hup => (exec_registerWrite_pf (by decide) (by decide) hup).trans rfl
  case queue =>
    intro hup z hz
    refine ⟨(execRegisterWrite_queue hup v hz (by decide) rfl).trans (congrArg _ (s.writeQueueReg_repLog2 z.1 v)), fun n hn => ?_⟩
    rw [← s.writeQueueReg_qcb z.1 v hi hn, ← execRegisterWrite_queue hup v hz (by cases hi <;> simp <;> omega) (by cases hi <;> simp <;> omega)]
    rw [Nat.add_assoc, Nat.add_assoc, Nat.add_assoc]
    rfl

end Sys2Proof.Machine
end

section
namespace Sys2Proof.Machine

/-! ### What a core fetches (R3, R30, R82, R197, R449) -/

/-- The word that the byte instruction cache of a team's core holds for an address under the whole tag (R82). -/
def State.keptWord (s : State) (t : Team) (va : Nat) : Option Word :=
  t.core?.bind (fun c => (s.cores[c]?).bind (fun k => (k.code.find? (fun e => e.1 == s.codeTag t va)).map (·.2)))

theorem State.cachedWord_of_kept {s : State} {t : Team} {va pa : Nat} {w : Word} (h : s.keptWord t va = some w) :
    s.cachedWord t va pa = (s, some w) := by
  unfold State.keptWord at h
  simp only [State.cachedWord, h]

/-- A word that the cache does not hold comes from memory, and its reading changes the cache and the aperture's request at most. -/
theorem State.cachedWord_of_memory {s : State} {t : Team} {va pa : Nat} (h : s.keptWord t va = none)
    (hp : (inAperture pa || !s.poisoned pa 4) = true) :
    ∃ v, s.cachedWord t va pa = (v, some (BitVec.ofNat 32 (s.physRead pa 4)))
      ∧ ({ v with cores := s.cores, hostReq := s.hostReq } : State) = s := by
  have hn : ¬(!inAperture pa && s.poisoned pa 4) = true := by
    intro h
    rw [Bool.and_eq_true_iff, Bool.not_eq_true'] at h
    rw [h.1, h.2] at hp
    exact absurd hp (by decide)
  unfold State.keptWord at h
  simp only [State.cachedWord, h, if_neg hn]
  refine ⟨_, rfl, ?_⟩
  unfold State.hostRequest
  cases t.core? <;> dsimp only <;> split <;> rfl

/-- Where a code unit's address translates and its word is had, the word is the unit. -/
theorem State.codeUnit_of_word {s s1 v : State} {t : Team} {va pa : Nat} {mt : MemType} {w : Word} (hva : va % 4 = 0)
    (htr : s.translate t.core? t.tenant t.ctx va { kind := .fetch, write := false, size := 4 } = (s1, .ok (pa, mt)))
    (hw : s1.cachedWord t va pa = (v, some w)) : s.codeUnit t va 4 = (v, .ok w.toNat) := by
  simp [State.codeUnit, hva, htr, hw]

theorem Cells.readNat_four (c : Cells 8) (k : Nat) :
    c.readNat k 4 = (c.get k).toNat + 2 ^ 8 * (c.get (k + 1)).toNat + 2 ^ 16 * (c.get (k + 2)).toNat
      + 2 ^ 24 * (c.get (k + 3)).toNat := by
  change (c.get k).toNat + 256 * ((c.get (k + 1)).toNat + 256 * ((c.get (k + 2)).toNat + 256 * ((c.get (k + 3)).toNat + 256 * 0))) = _
  omega

/-- Four bytes on one side of the aperture's bounds read as their little-endian value (R3). -/
theorem State.physRead_four (s : State) {pa : Nat} (h : inAperture pa = inAperture (pa + 3)) :
    s.physRead pa 4 = (s.physByte pa).toNat + 2 ^ 8 * (s.physByte (pa + 1)).toNat + 2 ^ 16 * (s.physByte (pa + 2)).toNat
      + 2 ^ 24 * (s.physByte (pa + 3)).toNat := by
  have hmid : inAperture (pa + 1) = inAperture pa ∧ inAperture (pa + 2) = inAperture pa := by
    simp only [inAperture, ← Bool.decide_and, decide_eq_decide] at h ⊢
    omega
  simp only [State.physRead, State.physByte, hmid.1, hmid.2, ← h]
  cases hin : inAperture pa
  · exact Cells.readNat_four s.mem pa
  · have hlow : 2 ^ 45 ≤ pa := by
      simp only [inAperture, Bool.and_eq_true, decide_eq_true_eq] at hin
      exact hin.1
    simp only [if_true, Cells.readNat_four, Nat.sub_add_comm hlow]

/-- The decoded-operation cache holds what the words of an entry decode to. -/
theorem State.decodedOp_decodes {s : State} {t : Team} {va : Nat} {x : Fetched} (h : s.decodedOp t va = some x) :
    ∃ ws : List Word, decodeWords (ws.getD 0 0) ws[1]? ws[2]? = .ok (x.instr, x.len) := by
  simp only [State.decodedOp, Option.bind_eq_some_iff] at h
  obtain ⟨c, -, k, -, e, -, hx⟩ := h
  refine ⟨e.2, ?_⟩
  unfold fetchedOf at hx
  split at hx
  next i n hd =>
    cases hx
    exact hd
  next => cases hx

/-- An instruction read from its words is the one fetched, and only the core's caches change. -/
theorem State.fetchWords_of_decodeAt {s s1 : State} {t : Team} {va : Nat} {x : Fetched} (hop : s.decodedOp t va = none)
    (h : s.decodeAt t va = (s1, .ok x)) :
    ∃ v, s.fetchWords t va = (v, .ok x) ∧ ({ v with cores := s1.cores } : State) = s1 := by
  simp only [State.fetchWords, hop, h]
  refine ⟨_, rfl, ?_⟩
  cases t.core? <;> rfl

/-- A group whose records fit its share of the FRAG region fetches nothing but its instruction (R197). -/
theorem State.fetchGroup_within_share {s s1 : State} {t : Team} {gi va : Nat} {g : Group} {x : Fetched}
    (hshare : g.records.length ≤ t.hdr.fragShare) (h : s.fetchWords t va = (s1, .ok x)) :
    s.fetchGroup t gi g va = s1.fateWords t va x := by
  have hnone : t.overflowWords g = [] := by
    simp [Team.overflowWords, List.drop_eq_nil_of_le hshare]
  simp only [State.fetchGroup, hnone, State.spill, h]

/-- A word whose bits count no literal that its operands leave out comes as it was read. -/
theorem State.fateWords_of_no_literal {s : State} {t : Team} {va : Nat} {x : Fetched} (h : x.fateLiteral s = false) :
    s.fateWords t va x = (s, .ok x) := by
  simp [State.fateWords, h]

/-- An IDIV or IREM that the part disables comes with the literal that its bits count (R449). -/
theorem State.fateWords_of_literal {s s1 : State} {t : Team} {va l : Nat} {x : Fetched} (h : x.fateLiteral s = true)
    (hl : s.codeUnit t (va + 8) 4 = (s1, .ok l)) :
    s.fateWords t va x = (s1, .ok { x with w2 := BitVec.ofNat 32 l, len := 12 }) := by
  simp [State.fateWords, h, hl]

/-! ### What a core's one resident group offers (R199, R211, R212) -/

theorem State.frag?_eq_some {s : State} {tid gi fi : Nat} {t : Team} {g : Group} {f : Frag} :
    s.frag? tid gi fi = some (t, g, f) ↔ s.team? tid = some t ∧ t.body.groups[gi]? = some g ∧ g.frags[fi]? = some f := by
  simp only [State.frag?, Option.bind_eq_some_iff, Option.map_eq_some_iff, Prod.mk.injEq]
  constructor
  · rintro ⟨_, ht, _, hg, _, hf, rfl, rfl, rfl⟩
    exact ⟨ht, hg, hf⟩
  · rintro ⟨ht, hg, hf⟩
    exact ⟨t, ht, g, hg, f, hf, rfl, rfl, rfl⟩

/-- A group's fragment that may issue in its core: the one the group offers, held by no trap, wait, arrival or event that comes first
(R199, R200, R202). -/
structure State.MayIssue (s : State) (core team gi fi : Nat) (t : Team) (g : Group) (f : Frag) : Prop where
  frag : s.frag? team gi fi = some (t, g, f)
  offered : g.offered = some fi
  core : t.core? = some core
  runs : t.runs g = true
  pair : s.pairHalted t = false
  publishing : f.publishing = false
  atExit : f.atExit = false
  count : f.count < 64
  hang : g.hang < 2 ^ 27

/-- Nothing holds an instruction of a fragment: the gate is open, the windows due at it are done, its port is free (R210, R231). -/
structure Team.Unheld (t : Team) (gi : Nat) (g : Group) (f : Frag) (k : Core) (i : Instr) : Prop where
  gate : t.gateOpen g gi i = true
  windows : ∀ w ∈ f.wins, w.due (Instr.closesWindows i) = true → w.done = true
  port : ∀ p, Instr.portOf i = some p → k.portBusy.getD (portIx p) 0 = 0

theorem State.MayIssue.group {s : State} {core team gi fi : Nat} {t : Team} {g : Group} {f : Frag}
    (h : s.MayIssue core team gi fi t g f) : s.group? team gi = some g := by
  obtain ⟨ht, hg, -⟩ := State.frag?_eq_some.1 h.frag
  simp [State.group?, ht, hg]

/-- None of the conditions that keep a group from offering anything holds. -/
theorem State.MayIssue.not_held {s : State} {core team gi fi : Nat} {t : Team} {g : Group} {f : Frag}
    (h : s.MayIssue core team gi fi t g f) :
    ¬(g.offered.isNone || t.core? != some core || !t.runs g || s.pairHalted t || f.publishing || f.atExit || f.overdue g) = true := by
  have hage : ¬ageLimit ≤ f.count := Nat.not_le.2 h.count
  have hhang : ¬hangLimit ≤ g.hang := Nat.not_le.2 h.hang
  simp [h.offered, h.core, h.runs, h.pair, h.publishing, h.atExit, Frag.overdue, hage, hhang]

/-- None of the conditions that hold an instruction back holds. -/
theorem Team.Unheld.not_held {t : Team} {gi : Nat} {g : Group} {f : Frag} {k : Core} {i : Instr} (h : t.Unheld gi g f k i) :
    ¬(!(t.gateOpen g gi i) || !f.wins.all (fun w => !w.due (Instr.closesWindows i) || w.done)
        || (Instr.portOf i).any (fun p => k.portBusy.getD (portIx p) 0 != 0)) = true := by
  have hw : f.wins.all (fun w => !w.due (Instr.closesWindows i) || w.done) = true := by
    rw [List.all_eq_true]
    intro w hw
    cases hd : w.due (Instr.closesWindows i)
    · rfl
    · simpa using h.windows w hw hd
  have hp : (Instr.portOf i).any (fun p => k.portBusy.getD (portIx p) 0 != 0) = false := by
    cases hi : Instr.portOf i with
    | none => rfl
    | some p =>
      rw [Option.any_some, h.port p hi]
      rfl
  rw [h.gate, hw, hp]
  decide

/-- Where nothing holds a fragment nor the instruction fetched for it, and its issue leaves a trace, the group offers that issue. -/
theorem State.offer_of_mayIssue {s s1 s' : State} {core team gi fi : Nat} {k : Core} {t : Team} {g : Group} {f : Frag} {x : Fetched}
    (h : s.MayIssue core team gi fi t g f) (hx : s.fetchGroup t gi g f.pc.toNat = (s1, .ok x)) (hi : t.Unheld gi g f k x.instr)
    (hn : exec x.instr { s1 with cur := some (x.cur team gi fi f.pc) } = .next s')
    (htr : s'.trace (x.cur team gi fi f.pc) ≠ s.trace (x.cur team gi fi f.pc)) :
    ∃ charge, s.offer core k team gi
      = some { cur := x.cur team gi fi f.pc, code := .ok x, port := Instr.portOf x.instr, charge := charge, after := s' } := by
  have hfi : (((s.group? team gi).bind Group.offered).getD 0) = fi := by
    rw [h.group, Option.bind_some, h.offered, Option.getD_some]
  have hid : t.id = team := State.team?_id (State.frag?_eq_some.1 h.frag).1
  have hcode : s.codeFor t gi g f.pc.toNat = (s1, .ok x) := by
    simp only [State.codeFor, hx]
  have htr' : ¬(s'.trace (x.cur team gi fi f.pc) == s.trace (x.cur team gi fi f.pc)) = true := by
    simpa using htr
  refine ⟨s'.chargeOf (core / 2) - s.chargeOf (core / 2), ?_⟩
  simp only [State.offer, hfi, h.frag, if_neg h.not_held, hcode]
  simp only [State.issueCode, hid, h.offered, Option.getD_some, Option.all_some, Option.map_some, Option.bind_some,
    if_neg hi.not_held, hn, nextOf, if_neg htr']

/-- A pipe that is free has the one resident group where that is the group's pipe, and else none. -/
theorem State.pipeGroups_single {s : State} {k : Core} {team gi pipe : Nat} {g : Group} (hage : k.age = [(team, gi)])
    (hg : s.group? team gi = some g) (hfree : g.pipe = pipe → k.pipeBusy.getD pipe 0 = 0) :
    s.pipeGroups k pipe = if g.pipe = pipe then [(team, gi)] else [] := by
  unfold State.pipeGroups
  by_cases hp : g.pipe = pipe
  · rw [if_neg (by rw [hfree hp]; decide)]
    simp [hage, hg, hp]
  · simp [hage, hg, hp]

/-- Where a core's one resident group stands in pipe 0 and offers, the core picks its offer. -/
theorem State.pick_single {s : State} {core team gi : Nat} {k : Core} {g : Group} {o : Offer} (hage : k.age = [(team, gi)])
    (hg : s.group? team gi = some g) (hpipe : g.pipe = 0) (hfree : k.pipeBusy.getD 0 0 = 0) (ho : s.offer core k team gi = some o) :
    s.pick core k = some (0, o, []) := by
  have h0 : s.oldest core k 0 none = some o := by
    rw [State.oldest, State.pipeGroups_single hage hg (fun _ => hfree), if_pos hpipe]
    cases hp : o.port <;> simp [ho, hp]
  have h1 : s.oldest core k 1 none = none := by
    rw [State.oldest, State.pipeGroups_single hage hg (by simp [hpipe]), if_neg (by simp [hpipe])]
    rfl
  simp only [State.pick, h0, h1]

/-- The turn of a core that picks an offer without a partner issues it, the trailing core following (R212, R387). -/
theorem State.issueOn_single {s : State} {core pipe : Nat} {k : Core} {o : Offer} {t : Team} (hk : s.cores[core]? = some k)
    (hpick : s.pick core k = some (pipe, o, [])) (ht : s.team? o.cur.team = some t) (hmate : t.splitPartner o.cur.g = none) :
    s.issueOn core = some ((o.followed s o.after).modCore core (fun k => k.issuedBy pipe [o] [])) := by
  have hm : s.mateOffer core k o = none := by
    simp [State.mateOffer, ht, hmate]
  simp [State.issueOn, State.chosen, hk, hpick, hm, State.followed]

/-- A step of a running part with a turn that can be taken takes it and settles (R425). -/
theorem step_of_turn {s s' : State} {a : Turn} {rest : List Turn} (hup : s.up = true) (hag : s.agenda = a :: rest)
    (ht : ({ s with agenda := rest } : State).turn a = some s') : step s = .next s'.settled := by
  have hphase : s.boot.phase = 4 := by
    simp only [State.up, Bool.and_eq_true, beq_iff_eq] at hup
    exact hup.1
  have hup' : (({ s with agenda := rest } : State).up || isPowerEvent a) = true := by
    rw [show ({ s with agenda := rest } : State).up = true from hup, Bool.true_or]
  have hadv : s.advance = s' := by
    simp only [State.advance, hphase, Nat.lt_irrefl, if_false, hag, if_pos hup', ht, Option.getD_some]
  rw [step, hadv]

/-- Settles O57: the fetch by the lemmas on each of its stages, the issue turn by what the core's one resident group offers. -/
theorem stepRunsDecoded : Obligations.StepRunsDecoded := by
  intro s s1 s2 s3 t va n x0 x1 x2 pa mt i
  refine ⟨fun hva htr => ⟨fun w hw => ?_, fun hnone hp => ⟨?_, fun h => s1.physRead_four h⟩⟩, fun h0 => ⟨fun hd => ?_, fun e he h1 => ⟨fun hd => ?_, fun e' he' h2 hd => ?_⟩⟩,
    fun x hop hd => State.fetchWords_of_decodeAt hop hd, fun x hop h0 => ⟨?_, State.decodedOp_decodes hop⟩,
    fun gi g x l hshare hx => ⟨fun hl => ?_, fun hl h2 => ?_⟩, ?_⟩
  · exact State.codeUnit_of_word hva htr (State.cachedWord_of_kept hw)
  · obtain ⟨v, hv, hframe⟩ := State.cachedWord_of_memory hnone hp
    exact ⟨v, State.codeUnit_of_word hva htr hv, hframe⟩
  · simp only [State.decodeAt, h0, hd]
  · simp only [State.decodeAt, h0, he, h1, hd]
  · simp only [State.decodeAt, h0, he, h1, he', h2, hd]
  · simp only [State.fetchWords, hop, h0]
  · rw [State.fetchGroup_within_share hshare hx, State.fateWords_of_no_literal hl]
  · rw [State.fetchGroup_within_share hshare hx, State.fateWords_of_literal hl h2]
  · intro core team gi fi rest s0 s' k g f x hup hag hs0 hk hage hfree hfrag hoff hpipe hcore hruns hpair hpub hexit hcount hhang hmate hx
      hgate hwins hport hn htr
    have hmay : s0.MayIssue core team gi fi t g f := ⟨hfrag, hoff, hcore, hruns, hpair, hpub, hexit, hcount, hhang⟩
    obtain ⟨charge, ho⟩ := State.offer_of_mayIssue (k := k) hmay hx ⟨hgate, hwins, hport⟩ hn htr
    have hpick := State.pick_single hage hmay.group hpipe hfree ho
    have hissue := State.issueOn_single hk hpick (State.frag?_eq_some.1 hfrag).1 hmate
    subst hs0
    exact ⟨_, rfl, rfl, rfl, step_of_turn hup hag hissue⟩

end Sys2Proof.Machine
end

section
namespace Sys2Proof.Machine

/-! ### What an unhindered issue comes to, by what its effect is -/

/-- An issue that nothing hinders, where the effect stands. -/
theorem issue_of_ok {i : Instr} {s t : State} {q : Iss} {eff : Iss → Eff} (h : Issues i s q) (he : eff q.counted = .ok t) :
    issue i eff s = .next t := by
  rw [issue_eq h, he]

/-- An issue that nothing hinders, where the effect is a trap. -/
theorem issue_of_trap {i : Instr} {s : State} {q : Iss} {eff : Iss → Eff} {tr : Trap} (h : Issues i s q) (he : eff q.counted = .trap tr) :
    issue i eff s = .next (q.trapped tr) := by
  rw [issue_eq h, he]

/-! ### Width requests and the mode register (R47, R48, R91, R96, R219) -/

/-- The value of a SETW is refused in a COMPAT16 kernel, and unless it is one of the three widths. -/
theorem widthRefused_iff (compat : Bool) (w : Nat) :
    (compat || !(w = 32 || w = 64 || w = 96)) = true ↔ compat = true ∨ ¬(w = 32 ∨ w = 64 ∨ w = 96) := by
  simp [not_or, and_assoc]

theorem exec_setw (l : Option Word) (a : Code) (s : State) : exec (.setw l a) s = execSetw l a s := rfl

theorem exec_setmode (l : Option Word) (m a : Code) (imm : BitVec 11) (s : State) :
    exec (.setmode l m a imm) s = execSetmode l m a imm s := rfl

section
variable {s : State} {q : Iss} {l : Option Word} {m a : Code} {imm : BitVec 11}

/-- SETW of a width records it. -/
theorem exec_setw_recorded (h : Issues (.setw l a) s q) (hc : q.t.hdr.compat16 = false)
    (hw : (q.uni .a).toNat = 32 ∨ (q.uni .a).toNat = 64 ∨ (q.uni .a).toNat = 96) :
    exec (.setw l a) s = .next (q.counted.modGroup (fun g => { g with widthReq := some (q.uni .a).toNat })) := by
  have hcc : q.counted.t.hdr = q.t.hdr := by rw [Iss.counted_t h.reads]; rfl
  rw [exec_setw]
  refine issue_of_ok h ?_
  simp only [hcc, Iss.counted_uni h.reads]
  exact if_neg (fun hr => ((widthRefused_iff _ _).1 hr).elim (by simp [hc]) (· hw))

/-- SETW of anything else, or in a COMPAT16 kernel, is ILLEGAL. -/
theorem exec_setw_refused (h : Issues (.setw l a) s q)
    (hw : q.t.hdr.compat16 = true ∨ ¬((q.uni .a).toNat = 32 ∨ (q.uni .a).toNat = 64 ∨ (q.uni .a).toNat = 96)) :
    exec (.setw l a) s = .next (q.trapped (q.trap clsIllegal)) := by
  have hcc : q.counted.t.hdr = q.t.hdr := by rw [Iss.counted_t h.reads]; rfl
  rw [exec_setw]
  refine issue_of_trap h ?_
  simp only [hcc, Iss.counted_uni h.reads, Iss.counted_trap h.reads]
  exact if_pos ((widthRefused_iff _ _).2 hw)

theorem Iss.counted_modeImage {fm : Form} (h : s.issuer fm = some q) : q.counted.modeImage a imm = q.modeImage a imm := by
  simp only [Iss.modeImage, Iss.counted_rd h]

/-- SETMODE with a legal image writes the selected fields. -/
theorem exec_setmode_written (h : Issues (.setmode l m a imm) s q) (hok : setmodeImageOk m (q.modeImage a imm) = true) :
    exec (.setmode l m a imm) s = .next (q.counted.modGroup (fun g =>
      { g with mr := (g.mr &&& ~~~BitVec.ofNat 32 (setmodeSel m)) ||| (BitVec.ofNat 32 (q.modeImage a imm) &&& BitVec.ofNat 32 (setmodeSel m)) })) := by
  rw [exec_setmode]
  refine issue_of_ok h ?_
  simp only [Iss.counted_modeImage h.reads, hok, Bool.not_true, Bool.false_eq_true, if_false]

/-- SETMODE with a reserved value in a selected field is ILLEGAL. -/
theorem exec_setmode_refused (h : Issues (.setmode l m a imm) s q) (hok : setmodeImageOk m (q.modeImage a imm) = false) :
    exec (.setmode l m a imm) s = .next (q.trapped (q.trap clsIllegal)) := by
  rw [exec_setmode]
  refine issue_of_trap h ?_
  simp only [Iss.counted_modeImage h.reads, hok, Bool.not_false, if_true, Iss.counted_trap h.reads]

end

/-- Settles O13: each of the two effects in its legal and its ILLEGAL case. -/
theorem widthAndMode : Obligations.WidthAndMode := by
  intro s q l m a imm w img sel
  exact ⟨exec_setw_recorded, exec_setw_refused, exec_setmode_written, exec_setmode_refused⟩

/-! ### Branches (R59, R189, R190) -/

theorem exec_bra (c : BitVec 4) (off : BitVec 21) (s : State) : exec (.bra c off) s = execBra c off s := rfl
theorem exec_brz (c : BitVec 4) (off : BitVec 21) (s : State) : exec (.brz c off) s = execBrz c off s := rfl
theorem exec_brx (c : BitVec 4) (off : BitVec 21) (s : State) : exec (.brx c off) s = execBrx c off s := rfl

section
variable {s : State} {q : Iss} {c : BitVec 4} {off : BitVec 21}

/-- A branch reads its lanes, its target and its fragment's mask as they stood before it was counted. -/
theorem Iss.counted_taken {fm : Form} (h : s.issuer fm = some q) : q.counted.taken c = q.taken c := by
  simp only [Iss.taken, Iss.counted_ex h, Iss.counted_triple h]

theorem Iss.counted_target {fm : Form} (h : s.issuer fm = some q) : q.counted.target off = q.target off := by
  simp only [Iss.target, Iss.counted_c h]

theorem exec_bra_of_issues (h : Issues (.bra c off) s q) :
    exec (.bra c off) s = if q.taken c = 0 then .next q.counted.s else .next (q.counted.goto (q.target off)) := by
  rw [exec_bra, execBra, issueOk_eq h, Iss.counted_taken h.reads, Iss.counted_target h.reads, apply_ite Host.Outcome.next]

theorem exec_brz_of_issues (h : Issues (.brz c off) s q) :
    exec (.brz c off) s = if q.taken c = 0 then .next (q.counted.goto (q.target off)) else .next q.counted.s := by
  rw [exec_brz, execBrz, issueOk_eq h, Iss.counted_taken h.reads, Iss.counted_target h.reads, apply_ite Host.Outcome.next]

theorem exec_brx_of_issues (h : Issues (.brx c off) s q) :
    exec (.brx c off) s = .next (if q.taken c = 0 then q.counted.s
      else if q.taken c = q.f.mask then q.counted.goto (q.target off)
      else q.counted.splitInto [{ q.counted.f with mask := q.taken c, pc := q.target off }, { q.counted.f with mask := q.f.mask &&& ~~~q.taken c }]) := by
  rw [exec_brx, execBrx, issueOk_eq h]
  simp only [Iss.counted_taken h.reads, Iss.counted_target h.reads, Iss.counted_mask h.reads]

end

/-- Settles O20: BRX by its three cases of T, BRA and BRZ by whether T is empty. -/
theorem branches : Obligations.Branches := by
  intro s q c off T target goes
  refine ⟨exec_bra_of_issues, exec_brz_of_issues, fun h hT => ?_, fun h hT h0 => ?_, fun h h0 hT => ?_⟩
  · exact (exec_brx_of_issues h).trans (congrArg _ (if_pos hT))
  · exact (exec_brx_of_issues h).trans (congrArg _ ((if_neg h0).trans (if_pos hT)))
  · exact (exec_brx_of_issues h).trans (congrArg _ ((if_neg h0).trans (if_neg hT)))

end Sys2Proof.Machine
end

section
namespace Sys2Proof.Machine

/-! ### Windows that hold their result (R49, R108-R111, R163, R171, R172) -/

/-- The element results in the lanes of EXEC, each with the operand that a report names (R162). -/
def Iss.elemRes (q : Iss) (f : Nat → Nat → Node) : List (Nat × List ElemRes) :=
  q.lanes.map (fun i => (i, (List.range (etCount q.etype)).map (fun e => (⟨(f i e).1, (f i e).2, [q.ea i e]⟩ : ElemRes))))

/-- The pending words that hold element results, with the zeros of MZ. -/
def Iss.elemPend (q : Iss) (f : Nat → Nat → Node) : List PWrite :=
  q.pending 1 (fun i => [packElems q.etype ((List.range (etCount q.etype)).map (fun e => (f i e).1))]) ++ q.pendingZeros 1

/-- An SFU word under a float type opens the window of its element results, where no raised flag is enabled. -/
theorem Iss.sfu_ok {q : Iss} {fn : Nat} (k : BitVec 4) (hf : etFloat q.etype = true)
    (hn : q.fpTrap (q.elemRes (fun i e => sfuElem fn q.fmt q.ftz (q.ea i e))) = none) :
    q.sfu fn k = .ok (q.openDone (q.lookahead k) (q.elemPend (fun i e => sfuElem fn q.fmt q.ftz (q.ea i e))) none
      (allFlags (q.elemRes (fun i e => sfuElem fn q.fmt q.ftz (q.ea i e))))) := by
  unfold Iss.sfu
  rw [if_pos hf]
  unfold Iss.elemRes at hn
  simp only [hn]
  rfl

/-- The element results of a reduction or scan that is not bitwise. -/
def Iss.redRes (q : Iss) (fn : Nat) (scan : Bool) (i e : Nat) : Node :=
  q.redElem scan (redOp fn q.etype (mrSat q.g.mr) q.ftz q.redMode) (fun j => q.ea j e) i

/-- A reduction or scan that is not bitwise opens the window of its element results, where no raised flag is enabled. -/
theorem Iss.reduce_elements_ok {q : Iss} {fn : Nat} {scan : Bool} (k : BitVec 4) (hfn : fn < 3)
    (hn : q.fpTrap (q.elemRes (q.redRes fn scan)) = none) :
    q.reduce fn scan k =
      .ok (q.openDone (q.lookahead k) (q.elemPend (q.redRes fn scan)) none (allFlags (q.elemRes (q.redRes fn scan)))) := by
  have h3 : (decide (3 ≤ fn) && decide (fn ≤ 5)) = false := by simp [Nat.not_le.2 hfn]
  unfold Iss.elemRes Iss.redRes Iss.ea etCount at hn
  unfold Iss.reduce
  simp only [h3, Bool.false_eq_true, if_false, hn]
  rfl

/-! ### Reductions without flags (R109, R110) -/

/-- What holds of the leaves and is kept by the operation holds of every node of a level. -/
theorem treeLevel_forall {α : Type} {P : α → Prop} {op : α → α → α} (hop : ∀ x y, P x → P y → P (op x y)) (l : List (Nat × α)) :
    (∀ p ∈ l, P p.2) → ∀ p ∈ treeLevel op l, P p.2 := by
  induction l using treeLevel.induct with
  | case1 p x r y rest hpr ih =>
    simp only [treeLevel, hpr, if_true, List.forall_mem_cons]
    rintro ⟨hx, hy, hrest⟩
    exact ⟨hop x y hx hy, ih hrest⟩
  | case2 p x r y rest hpr ih =>
    rw [List.forall_mem_cons]
    rintro ⟨hx, hrest⟩
    simp only [treeLevel, hpr, if_false, List.forall_mem_cons]
    exact ⟨hx, ih hrest⟩
  | case3 p x => simp [treeLevel]
  | case4 => simp [treeLevel]

theorem treeLevels_forall {α : Type} {P : α → Prop} {op : α → α → α} (hop : ∀ x y, P x → P y → P (op x y)) (n : Nat) :
    ∀ l : List (Nat × α), (∀ p ∈ l, P p.2) → ∀ p ∈ treeLevels op n l, P p.2 := by
  induction n with
  | zero => exact fun _ hl => hl
  | succ n ih => exact fun l hl => ih _ (treeLevel_forall hop l hl)

/-- What holds of the leaves and is kept by the operation holds of the reduction. -/
theorem treeReduce_forall {α : Type} {P : α → Prop} {op : α → α → α} (hop : ∀ x y, P x → P y → P (op x y)) {l : List (Nat × α)}
    (hl : ∀ p ∈ l, P p.2) : ∀ x ∈ treeReduce op l, P x := by
  intro x hx
  obtain ⟨p, hp, rfl⟩ := Option.map_eq_some_iff.1 hx
  exact treeLevels_forall hop 11 l hl p (List.mem_of_mem_head? hp)

/-- A bitwise reduction raises no flag. -/
theorem Iss.redElem_redBit_flags (q : Iss) (scan : Bool) (fn : Nat) (val : Nat → Nat) (i : Nat) : (q.redElem scan (redBit fn) val i).2 = 0 := by
  have key : ∀ l : List (Nat × Node), (∀ p ∈ l, p.2.2 = 0) → ((treeReduce (redBit fn) l).getD (0, 0)).2 = 0 := by
    intro l hl
    have := treeReduce_forall (P := fun x : Node => x.2 = 0) (op := redBit fn) (fun _ _ _ _ => rfl) hl
    cases h : treeReduce (redBit fn) l with
    | none => rfl
    | some x => exact this x h
  exact key _ (List.forall_mem_map.2 fun _ _ => rfl)

/-- Results without a flag do not trap. -/
theorem Iss.fpTrap_of_no_flags (q : Iss) {r : List (Nat × List ElemRes)} (hr : ∀ p ∈ r, ∀ e ∈ p.2, e.fl = 0) : q.fpTrap r = none := by
  have : firstEnabled (mrExcen q.g.mr) r = none := by
    rw [firstEnabled, List.findSome?_eq_none_iff]
    intro p hp
    rw [Option.map_eq_none_iff, List.find?_eq_none]
    intro e he
    simp [hr p hp e.1 (List.fst_mem_of_mem_zipIdx he)]
  simp [Iss.fpTrap, this]

/-- A fold whose every step leaves the start as it is gives the start. -/
theorem foldl_eq_self {α β : Type} {f : α → β → α} {a : α} {l : List β} (hf : ∀ b ∈ l, f a b = a) : l.foldl f a = a := by
  induction l with
  | nil => rfl
  | cons b l ih =>
    obtain ⟨hb, hl⟩ := List.forall_mem_cons.1 hf
    rw [List.foldl_cons, hb, ih hl]

theorem allFlags_of_no_flags {r : List (Nat × List ElemRes)} (hr : ∀ p ∈ r, ∀ e ∈ p.2, e.fl = 0) : allFlags r = 0 :=
  foldl_eq_self fun p hp => foldl_eq_self fun e he => by rw [hr p hp e he, Nat.or_zero]

/-- A bitwise reduction opens the window of its words. -/
theorem Iss.reduce_bits_ok (q : Iss) {fn : Nat} (k : BitVec 4) (h3 : 3 ≤ fn) (h5 : fn ≤ 5) :
    q.reduce fn false k = .ok (q.openDone (q.lookahead k)
      (q.pending 1 (fun i => [BitVec.ofNat 32 (ofElems 32 [(q.redElem false (redBit fn) (fun j => elemNat 32 (q.a j) 0) i).1])]) ++ q.pendingZeros 1)
      none 0) := by
  have hb : (decide (3 ≤ fn) && decide (fn ≤ 5)) = true := by simp [h3, h5]
  have hr : ∀ p ∈ q.lanes.map (fun i => (i, (List.range (32 / 32)).map (fun e =>
      (⟨(q.redElem false (redBit fn) (fun j => elemNat 32 (q.a j) e) i).1, (q.redElem false (redBit fn) (fun j => elemNat 32 (q.a j) e) i).2,
        [elemNat 32 (q.a i) e]⟩ : ElemRes)))), ∀ e ∈ p.2, e.fl = 0 := by
    simp only [List.forall_mem_map]
    exact fun i _ e _ => q.redElem_redBit_flags ..
  unfold Iss.reduce
  simp only [hb, if_true, q.fpTrap_of_no_flags hr, allFlags_of_no_flags hr]
  rfl

/-! ### The windows on the counted state -/

section
variable {s : State} {fm : Form} {q : Iss} (h : s.issuer fm = some q)
include h

theorem Iss.counted_lookahead (k : BitVec 4) : q.counted.lookahead k = q.lookahead k := by rw [(Iss.counted_eq h).1]; rfl
theorem Iss.counted_pending : q.counted.pending = q.pending := by rw [(Iss.counted_eq h).1]; rfl
theorem Iss.counted_pendingZeros : q.counted.pendingZeros = q.pendingZeros := by rw [(Iss.counted_eq h).1]; rfl
theorem Iss.counted_elemRes : q.counted.elemRes = q.elemRes := by rw [(Iss.counted_eq h).1]; rfl
theorem Iss.counted_elemPend : q.counted.elemPend = q.elemPend := by rw [(Iss.counted_eq h).1]; rfl
theorem Iss.counted_redElem : q.counted.redElem = q.redElem := by rw [(Iss.counted_eq h).1]; rfl
theorem Iss.counted_redRes : q.counted.redRes = q.redRes := by rw [(Iss.counted_eq h).1]; rfl
theorem Iss.counted_existing : q.counted.g.lids q.counted.g.exist = q.g.lids q.g.exist := by rw [(Iss.counted_eq h).1]; rfl

end

section
variable {i : Instr} {s : State} {q : Iss} (h : Issues i s q) {fn : Nat} {scan : Bool} {k : BitVec 4}
include h

/-- The issue of an SFU word that no enabled flag stops. -/
theorem issue_sfu (hf : etFloat q.etype = true) (hn : q.fpTrap (q.elemRes (fun i e => sfuElem fn q.fmt q.ftz (q.ea i e))) = none) :
    issue i (fun q => q.sfu fn k) s =
      .next (q.counted.openDone (q.lookahead k) (q.elemPend (fun i e => sfuElem fn q.fmt q.ftz (q.ea i e))) none
        (allFlags (q.elemRes (fun i e => sfuElem fn q.fmt q.ftz (q.ea i e))))) := by
  have hr := h.reads
  rw [← Iss.counted_etype hr] at hf
  rw [← Iss.counted_fpTrap hr, ← Iss.counted_elemRes hr, ← Iss.counted_fmt hr, ← Iss.counted_ftz hr, ← Iss.counted_ea hr] at hn
  rw [issue_of_ok h (Iss.sfu_ok k hf hn), Iss.counted_lookahead hr, Iss.counted_elemPend hr, Iss.counted_elemRes hr, Iss.counted_fmt hr,
    Iss.counted_ftz hr, Iss.counted_ea hr]

/-- The issue of a reduction or scan that is not bitwise and that no enabled flag stops. -/
theorem issue_reduce (hfn : fn < 3) (hn : q.fpTrap (q.elemRes (q.redRes fn scan)) = none) :
    issue i (fun q => q.reduce fn scan k) s =
      .next (q.counted.openDone (q.lookahead k) (q.elemPend (q.redRes fn scan)) none (allFlags (q.elemRes (q.redRes fn scan)))) := by
  have hr := h.reads
  rw [← Iss.counted_fpTrap hr, ← Iss.counted_elemRes hr, ← Iss.counted_redRes hr] at hn
  rw [issue_of_ok h (Iss.reduce_elements_ok k hfn hn), Iss.counted_lookahead hr, Iss.counted_elemPend hr, Iss.counted_elemRes hr,
    Iss.counted_redRes hr]

/-- The issue of a bitwise reduction. -/
theorem issue_reduce_bits (h3 : 3 ≤ fn) (h5 : fn ≤ 5) :
    issue i (fun q => q.reduce fn false k) s =
      .next (q.counted.openDone (q.lookahead k)
        (q.pending 1 (fun i => [BitVec.ofNat 32 (ofElems 32 [(q.redElem false (redBit fn) (fun j => elemNat 32 (q.a j) 0) i).1])]) ++ q.pendingZeros 1)
        none 0) := by
  have hr := h.reads
  rw [issue_of_ok h (Iss.reduce_bits_ok q.counted k h3 h5), Iss.counted_lookahead hr, Iss.counted_pending hr, Iss.counted_pendingZeros hr,
    Iss.counted_redElem hr, Iss.counted_a hr]

end

theorem exec_matchLanes (p : Option Pfx) (k : BitVec 4) (d a : Code) (s : State) :
    exec (.matchLanes p k d a) s = execMatchLanes p k d a s := rfl

section
variable {s : State} {q : Iss} {p : Option Pfx} {k : BitVec 4} {d a : Code} (h : Issues (.matchLanes p k d a) s q)
include h

/-- MATCH gives each lane of EXEC the lowest one of an equal value. -/
theorem exec_matchLanes_lanes (hm : q.fm.p.mdst = false) : exec (.matchLanes p k d a) s =
    .next (q.counted.openDone (q.lookahead k)
      (q.pending 1 (fun i => [BitVec.ofNat 32 ((q.lanes.find? (fun m => q.a m = q.a i)).getD i)]) ++ q.pendingZeros 1) none 0) := by
  have hr := h.reads
  rw [exec_matchLanes, execMatchLanes, issueOk_eq h]
  simp only [Iss.counted_fm hr, hm, Bool.false_eq_true, if_false, Iss.counted_lookahead hr, Iss.counted_pending hr, Iss.counted_pendingZeros hr,
    Iss.counted_lanes hr, Iss.counted_a hr]

/-- MATCH under MDST gives the triple of the lanes that agree with the lowest one. -/
theorem exec_matchLanes_triple (hm : q.fm.p.mdst = true) : exec (.matchLanes p k d a) s =
    .next (q.counted.openDone (q.lookahead k) [] (some (d.toNat, (match q.lanes.head? with
      | some f => (q.lanes.filter (fun i => q.a i = q.a f)).map q.lid
      | none => []), q.g.lids q.g.exist)) 0) := by
  have hr := h.reads
  rw [exec_matchLanes, execMatchLanes, issueOk_eq h]
  simp only [Iss.counted_fm hr, hm, if_true, Iss.counted_lookahead hr, Iss.counted_lanes hr, Iss.counted_a hr, Iss.counted_lid hr,
    Iss.counted_existing hr] <;> rfl

end

/-- Settles O17: SFU words, reductions and scans by what their one effect comes to, MATCH by whether MDST is set. -/
theorem longLatencyResults : Obligations.LongLatencyResults := by
  intro s q p k d a cnt opens
  have sfu : ∀ l : List ((Option Pfx → BitVec 4 → Code → Code → Instr) × Nat),
      (∀ z ∈ l, exec (z.1 p k d a) s = issue (z.1 p k d a) (fun q => q.sfu z.2 k) s) → ∀ z ∈ l,
      Issues (z.1 p k d a) s q → etFloat q.etype = true →
      q.fpTrap (q.elemRes (fun i e => sfuElem z.2 q.fmt q.ftz (q.ea i e))) = none → exec (z.1 p k d a) s =
        opens (q.elemPend (fun i e => sfuElem z.2 q.fmt q.ftz (q.ea i e))) none
          (allFlags (q.elemRes (fun i e => sfuElem z.2 q.fmt q.ftz (q.ea i e)))) :=
    fun _ hl z hz h hf hn => (hl z hz).trans (issue_sfu h hf hn)
  have elements : ∀ l : List ((Option Pfx → BitVec 4 → Code → Code → Instr) × Nat × Bool), (∀ z ∈ l, z.2.1 < 3) →
      (∀ z ∈ l, exec (z.1 p k d a) s = issue (z.1 p k d a) (fun q => q.reduce z.2.1 z.2.2 k) s) → ∀ z ∈ l,
      Issues (z.1 p k d a) s q → q.fpTrap (q.elemRes (q.redRes z.2.1 z.2.2)) = none → exec (z.1 p k d a) s =
        opens (q.elemPend (q.redRes z.2.1 z.2.2)) none (allFlags (q.elemRes (q.redRes z.2.1 z.2.2))) :=
    fun _ hfn hl z hz h hn => (hl z hz).trans (issue_reduce h (hfn z hz) hn)
  have bits : ∀ l : List ((Option Pfx → BitVec 4 → Code → Code → Instr) × Nat), (∀ z ∈ l, 3 ≤ z.2 ∧ z.2 ≤ 5) →
      (∀ z ∈ l, exec (z.1 p k d a) s = issue (z.1 p k d a) (fun q => q.reduce z.2 false k) s) → ∀ z ∈ l,
      Issues (z.1 p k d a) s q → exec (z.1 p k d a) s =
        opens (q.pending 1 (fun i => [BitVec.ofNat 32 (ofElems 32 [(q.redElem false (redBit z.2) (fun j => elemNat 32 (q.a j) 0) i).1])])
          ++ q.pendingZeros 1) none 0 :=
    fun _ hfn hl z hz h => (hl z hz).trans (issue_reduce_bits h (hfn z hz).1 (hfn z hz).2)
  refine ⟨sfu _ ?_, exec_matchLanes_lanes, exec_matchLanes_triple, elements _ (by simp) ?_, bits _ (by simp) ?_⟩
  all_goals
    simp only [List.forall_mem_cons, List.not_mem_nil, false_imp_iff, implies_true, and_true]
    and_intros
    all_goals rfl

end Sys2Proof.Machine
end

section
namespace Sys2Proof.Machine

/-! ### The issue of a word that names no instruction (R60, R62, R63, R236, R337, R351) -/

/-- `q` issues the raw word in `s`, the windows that are due delivered, and no comparator matches the pc. -/
def RawIssues (p : Option Word) (m : Word) (s : State) (q : Iss) : Prop :=
  (s.issuer (rawForm p m)).map Iss.c = some q.c
  ∧ (({ (s.modTeam q.c.team (fun t => t.deliverWhere q.c.g q.c.f (Window.due false))) with cur := s.cur } : State).issuer (rawForm p m)) = some q
  ∧ q.pcMatch = none

/-- What the effect of a raw word comes to: the trap of least rank among its own and that of a register error, else its effect. -/
def Iss.rawOutcome (q : Iss) (r : Eff) : Host.Outcome State Fault Refusal :=
  match firstTrap ((match r with
      | .trap t => [t]
      | _ => []) ++ q.regError.toList) with
  | some t => .next (q.trapped t)
  | none =>
    match r with
    | .ok s => .next s
    | .hold w => .next (q.heldBack w)
    | .trap t => .next (q.trapped t)

theorem rawForm_overlaps (p : Option Word) (m : Word) : (rawForm p m).overlaps = false := rfl

theorem lkhdHit_nil (g : Group) (f : Frag) (fi lo hi : Nat) : lkhdHit g f fi lo hi [] = false := by simp [lkhdHit]

section
variable {p : Option Word} {m : Word} {s : State} {q : Iss} (h : RawIssues p m s q)
include h

theorem RawIssues.fm_eq : q.fm = rawForm p m := by
  obtain ⟨-, hr, -⟩ := h
  obtain ⟨-, -, -, -, -, -, hfm, -⟩ := State.issuer_eq_some.1 hr
  exact hfm

theorem RawIssues.reads :
    ({ (s.modTeam q.c.team (fun t => t.deliverWhere q.c.g q.c.f (Window.due false))) with cur := s.cur } : State).issuer q.fm = some q := by
  rw [h.fm_eq]; exact h.2.1

/-- A raw word that its check refuses is ILLEGAL, with the length that counts a literal (R60, R449). -/
theorem issueForm_raw_illegal {ok : Nat → Bool} (hok : ok (q.t.hdr.budget q.g.role) = false) (acct : Iss → State) (eff : Iss → Eff) :
    issueForm (rawForm p m) false ok (fun _ => []) acct eff s = .next (q.trapped { q.trap clsIllegal with len := q.c.trapLen }) := by
  obtain ⟨hnamed, hr, hpc⟩ := h
  obtain ⟨q0, hq0, hc⟩ := Option.map_eq_some_iff.1 hnamed
  obtain ⟨-, -, -, -, -, hs, -, -⟩ := State.issuer_eq_some.1 hr
  dsimp only at hr hs
  simp only [issueForm, hq0, hr, hpc, hok, Bool.not_false, if_true, Iss.trapped, hs, hc]

/-- The issue of a raw word that its check accepts. -/
theorem issueForm_raw {ok : Nat → Bool} (hok : ok (q.t.hdr.budget q.g.role) = true) (acct : Iss → State) (eff : Iss → Eff) {q1 : Iss}
    (hq1 : (acct q).issuer q.fm = some q1) :
    issueForm (rawForm p m) false ok (fun _ => []) acct eff s = q.rawOutcome (eff { q1 with s := { acct q with cur := none }, ex := q.ex }) := by
  rw [h.fm_eq] at hq1
  obtain ⟨hnamed, hr, hpc⟩ := h
  obtain ⟨q0, hq0, hc⟩ := Option.map_eq_some_iff.1 hnamed
  obtain ⟨-, -, -, -, -, hs, -, -⟩ := State.issuer_eq_some.1 hr
  dsimp only at hr hs
  simp only [issueForm, hq0, hr, hpc, hok, hq1, Bool.not_true, Bool.false_eq_true, if_false, rawForm_overlaps, lkhdHit_nil, List.append_nil,
    Iss.rawOutcome, Iss.trapped, Iss.heldBack, hs, hc] <;> rfl

/-- The issue of a raw word that counts as an instruction does. -/
theorem issueForm_raw_counted {ok : Nat → Bool} (hok : ok (q.t.hdr.budget q.g.role) = true) (eff : Iss → Eff) :
    issueForm (rawForm p m) false ok (fun _ => []) Iss.account eff s = q.rawOutcome (eff q.counted) := by
  obtain ⟨q1, hq1⟩ := Option.isSome_iff_exists.1 (Iss.counted_eq h.reads).2
  rw [issueForm_raw h hok Iss.account eff hq1, Iss.counted, hq1]

/-- The issue of a raw word that counts as the JURYRIG fate does. -/
theorem issueForm_raw_countedFate {ok : Nat → Bool} (hok : ok (q.t.hdr.budget q.g.role) = true) (eff : Iss → Eff) :
    issueForm (rawForm p m) false ok (fun _ => []) Iss.accountFate eff s = q.rawOutcome (eff q.countedFate) := by
  obtain ⟨q1, hq1⟩ := Option.isSome_iff_exists.1 (Iss.countedFate_eq h.reads).2
  rw [issueForm_raw h hok Iss.accountFate eff hq1, Iss.countedFate, hq1]

end

/-! ### Which of two traps is taken (R236, R337) -/

/-- The value of a choice is that of one of its branches. -/
theorem eq_or_eq_of_ite_eq {α : Type} {c : Prop} [Decidable c] {a b x : α} (h : (if c then a else b) = x) : a = x ∨ b = x := by
  by_cases hc : c
  · exact .inl ((if_pos hc).symm.trans h)
  · exact .inr ((if_neg hc).symm.trans h)

/-- A register error is MEM_UE. -/
theorem Iss.regError_cls {q : Iss} {e : Trap} (he : q.regError = some e) : e.cls = clsMemUe := by
  rcases eq_or_eq_of_ite_eq he with hg | hl
  · exact Option.some.inj hg ▸ rfl
  · rcases eq_or_eq_of_ite_eq hl with hn | hl
    · cases hn
    · obtain ⟨i, -, rfl⟩ := Option.map_eq_some_iff.1 hl
      rfl

theorem Iss.rank_trap_emul (q : Iss) : (q.trap clsEmul).rank = 4 := rfl

theorem Iss.rank_trap_juryrig (q : Iss) : (q.trap clsJuryrig).rank = 4 := rfl

/-- A register error comes after the traps of the fate. -/
theorem Iss.regError_rank {q : Iss} {e : Trap} (he : q.regError = some e) : e.rank = 14 := by
  simp [Trap.rank, q.regError_cls he, clsMemUe, clsDebug, clsIllegal, clsOverlap, clsJuryrig, clsEmul, clsLkhd, clsBrk, clsDet, clsScope, clsSeg,
    clsXlate, clsVersion, clsFp]

theorem Iss.rawOutcome_ok {q : Iss} (hs : q.regError = none) (t : State) : q.rawOutcome (.ok t) = .next t := by
  simp [Iss.rawOutcome, hs, firstTrap, minBy]

theorem Iss.rawOutcome_error {q : Iss} {e : Trap} (he : q.regError = some e) (t : State) : q.rawOutcome (.ok t) = .next (q.trapped e) := by
  simp [Iss.rawOutcome, he, firstTrap, minBy]

/-- The trap of the fate stands before a register error. -/
theorem Iss.rawOutcome_trap {q : Iss} {tr : Trap} (hr : tr.rank ≤ 14) : q.rawOutcome (.trap tr) = .next (q.trapped tr) := by
  cases he : q.regError with
  | none => simp [Iss.rawOutcome, he, firstTrap, minBy]
  | some e => simp [Iss.rawOutcome, he, firstTrap, minBy, Iss.regError_rank he, Nat.not_lt.2 hr]

/-! ### The JURYRIG fate of a group word (R351, R352) -/

/-- The state in which the handler of the issuing fragment has been entered for a group word (R352). -/
def Iss.entered (q : Iss) : State :=
  q.countedFate.modTeam (fun t => t.enterHandler q.c.g q.c.f q.ex (fun depth => windowWords q.c q.g.mr depth (q.ex == 0)) q.c.addr
    (q.c.addr + BitVec.ofNat 64 q.c.len) false)

section
variable {s : State} {fm : Form} {q : Iss} (h : s.issuer fm = some q)
include h

theorem Iss.countedFate_depth : q.countedFate.f.jr = q.f.jr := by rw [(Iss.countedFate_eq h).1]
theorem Iss.countedFate_ready : handlerReady q.countedFate.t q.countedFate.g = handlerReady q.t q.g := by rw [(Iss.countedFate_eq h).1]; rfl
theorem Iss.countedFate_trap (cls : Nat) : q.countedFate.trap cls = q.trap cls := by rw [(Iss.countedFate_eq h).1]; rfl

/-- At depth 2 the fate is EMUL_DEPTH. -/
theorem Iss.juryrig_deep (hd : 2 ≤ q.f.jr.length) : q.countedFate.juryrig = .trap (q.trap clsEmul) := by
  rw [Iss.juryrig, Iss.countedFate_depth h, if_pos hd, Iss.countedFate_trap h]

/-- Below depth 2 a ready handler is entered. -/
theorem Iss.juryrig_entered (hd : q.f.jr.length < 2) (hr : handlerReady q.t q.g = true) : q.countedFate.juryrig = .ok q.entered := by
  rw [Iss.juryrig, Iss.countedFate_depth h, if_neg (Nat.not_le.2 hd), Iss.countedFate_ready h, if_pos hr, Iss.entered, (Iss.countedFate_eq h).1]
  rfl

/-- Below depth 2 a handler that is not ready leaves the trap. -/
theorem Iss.juryrig_unserved (hd : q.f.jr.length < 2) (hr : ¬handlerReady q.t q.g = true) :
    q.countedFate.juryrig = .trap (q.trap clsJuryrig) := by
  rw [Iss.juryrig, Iss.countedFate_depth h, if_neg (Nat.not_le.2 hd), Iss.countedFate_ready h, if_neg hr, Iss.countedFate_trap h]

end

theorem exec_juryrig (w : RawWord) (s : State) : exec (.juryrig w) s = execJuryrig w s := rfl
theorem exec_illegal (w : RawWord) (s : State) : exec (.illegal w) s = execIllegal w s := rfl
theorem exec_vendorTest (w : RawWord) (s : State) : exec (.vendorTest w) s = execVendorTest w s := rfl

section
variable {p l : Option Word} {m : Word} {s : State} {q : Iss} (h : RawIssues p m s q)
include h

theorem exec_juryrig_group : exec (.juryrig (.group p m l)) s = q.rawOutcome q.countedFate.juryrig :=
  (exec_juryrig _ s).trans (issueForm_raw_countedFate h (ok := fun _ => true) rfl _)

theorem exec_juryrig_entered (hs : q.regError = none) (hd : q.f.jr.length < 2) (hr : handlerReady q.t q.g = true) :
    exec (.juryrig (.group p m l)) s = .next q.entered := by
  rw [exec_juryrig_group h, Iss.juryrig_entered h.reads hd hr, Iss.rawOutcome_ok hs]

theorem exec_juryrig_deep (hd : 2 ≤ q.f.jr.length) : exec (.juryrig (.group p m l)) s = .next (q.trapped (q.trap clsEmul)) := by
  rw [exec_juryrig_group h, Iss.juryrig_deep h.reads hd, Iss.rawOutcome_trap (by simp [Iss.rank_trap_emul])]

theorem exec_juryrig_unserved (hd : q.f.jr.length < 2) (hr : ¬handlerReady q.t q.g = true) :
    exec (.juryrig (.group p m l)) s = .next (q.trapped (q.trap clsJuryrig)) := by
  rw [exec_juryrig_group h, Iss.juryrig_unserved h.reads hd hr, Iss.rawOutcome_trap (by simp [Iss.rank_trap_juryrig])]

theorem exec_juryrig_error {e : Trap} (he : q.regError = some e) (hd : q.f.jr.length < 2) (hr : handlerReady q.t q.g = true) :
    exec (.juryrig (.group p m l)) s = .next (q.trapped e) := by
  rw [exec_juryrig_group h, Iss.juryrig_entered h.reads hd hr, Iss.rawOutcome_error he]

theorem exec_illegal_group : exec (.illegal (.group p m l)) s = .next (q.trapped { q.trap clsIllegal with len := q.c.trapLen }) := by
  rw [exec_illegal, execIllegal, issueForm_raw_illegal h rfl]

theorem exec_vendorTest_group_refused (hl : s.fuses.lcs ≠ 3) :
    exec (.vendorTest (.group p m l)) s = .next (q.trapped { q.trap clsIllegal with len := q.c.trapLen }) := by
  rw [exec_vendorTest, execVendorTest, issueForm_raw_illegal h (decide_eq_false hl)]

theorem exec_vendorTest_group_return (hs : q.regError = none) (hl : s.fuses.lcs = 3) :
    exec (.vendorTest (.group p m l)) s = .next (q.counted.s.vendor q.c.team) := by
  rw [exec_vendorTest, execVendorTest, issueForm_raw_counted h (decide_eq_true hl), Iss.rawOutcome_ok hs, Iss.counted_c h.reads]

end

/-! ### Stream words (R62, R66, R357) -/

section
variable {s : State} {qs : SIss} (h : s.streamIssuer = some qs)
include h

/-- The stream's issuer holds the state it was read from. -/
theorem State.streamIssuer_s : qs.s = s := by
  unfold State.streamIssuer at h
  split at h
  · cases h
  split at h
  · cases h
  split at h
  · cases h
  obtain ⟨st, -, hq⟩ := Option.map_eq_some_iff.1 h
  exact hq ▸ rfl

/-- A stream word's charge leaves the fuses. -/
theorem SIss.counted_fuses (charge : Nat) : (qs.counted charge).s.fuses = s.fuses := by
  rw [← State.streamIssuer_s h]
  unfold SIss.counted State.chargeStream
  dsimp only
  split
  · obtain ⟨cl, hcl⟩ := State.chargeClusters_eq { qs.s with cur := none } qs.t ‹Nat› charge
    rw [hcl]
    rfl
  · rfl

/-- A JURYRIG stream word without a live fragment is reported. -/
theorem exec_juryrig_stream (w : DWord) (hl : qs.t.lowestLive = none) :
    exec (.juryrig (.stream w)) s = .next (qs.trapped (qs.trap clsJuryrig)) := by
  have he : (qs.counted 0).juryrig = .trap (qs.trap clsJuryrig) := by
    have ht : (qs.counted 0).t.lowestLive = none := hl
    simp only [SIss.juryrig, ht, Option.bind_none]
    rfl
  rw [exec_juryrig, execJuryrig, streamWord_eq h, he]

theorem exec_illegal_stream (w : DWord) : exec (.illegal (.stream w)) s = .next (qs.trapped (qs.trap clsIllegal)) := by
  rw [exec_illegal, execIllegal, streamWord_eq h]
  rfl

theorem exec_vendorTest_stream_refused (w : DWord) (hl : s.fuses.lcs ≠ 3) :
    exec (.vendorTest (.stream w)) s = .next (qs.trapped (qs.trap clsIllegal)) := by
  rw [exec_vendorTest, execVendorTest, streamWord_eq h]
  simp only [SIss.counted_fuses h, if_neg hl]
  rfl

theorem exec_vendorTest_stream_return (w : DWord) (hl : s.fuses.lcs = 3) :
    exec (.vendorTest (.stream w)) s = .next (qs.done ((qs.counted 0).s.vendor qs.c.team)) := by
  rw [exec_vendorTest, execVendorTest, streamWord_eq h]
  simp only [SIss.counted_fuses h, if_pos hl]
  rfl

end

/-- Settles O34: the fate of a group word by its depth, its handler and an error of its guard; a stream word by what its one effect comes to. -/
theorem wordsThatNameNoInstruction : Obligations.WordsThatNameNoInstruction := by
  intro s q qs p l m w fm handler sound free
  exact ⟨exec_juryrig_entered, exec_juryrig_deep, exec_juryrig_unserved, fun h _ he => exec_juryrig_error h he, exec_illegal_group,
    exec_vendorTest_group_refused, exec_vendorTest_group_return, fun h => exec_illegal_stream h w, fun h => exec_vendorTest_stream_refused h w,
    fun h => exec_vendorTest_stream_return h w, fun h => exec_juryrig_stream h w⟩

end Sys2Proof.Machine
end

section
namespace Sys2Proof.Machine

/-! ### What a page walk may change (R257, R346, R348) -/

/-- `u` differs from `s` in TLBs, in the L2's standing lines and counts, and in the last host request alone. -/
structure State.WalkFrame (s u : State) : Prop where
  rest : { u with cores := s.cores, clusters := s.clusters, banks := s.banks, stamp := s.stamp, hostReq := s.hostReq } = s
  cores : u.cores.map (fun c => { c with tlb := [] }) = s.cores.map (fun c => { c with tlb := [] })
  clusters : u.clusters.map (fun c => { c with tlb := [] }) = s.clusters.map (fun c => { c with tlb := [] })

namespace State.WalkFrame
variable {s u : State}

theorem refl (s : State) : s.WalkFrame s := ⟨rfl, rfl, rfl⟩

theorem l2Touch (h : s.WalkFrame u) (pa : Nat) (w : Bool) (hint : Nat) : s.WalkFrame (u.l2Touch pa w hint) := by
  unfold State.l2Touch
  split
  · exact h
  · exact ⟨h.rest, h.cores, h.clusters⟩

theorem hostRequest (h : s.WalkFrame u) (fn : Fn) (w : Bool) (pa n : Nat) : s.WalkFrame (u.hostRequest fn w pa n) := by
  unfold State.hostRequest
  split
  · exact ⟨h.rest, h.cores, h.clusters⟩
  · exact h

/-- A walk's reads reach the L2 banks and the host. -/
theorem touchWalk (h : s.WalkFrame u) (ten root va : Nat) : s.WalkFrame (u.touchWalk ten root va) :=
  foldl_keeps s.WalkFrame _ _ (fun _ pa hu => (hu.l2Touch pa false 0).hostRequest _ _ _ _) u h

/-- A fill of a core's TLB. -/
theorem fillCore (h : s.WalkFrame u) (n : Nat) (e : TlbEntry) : s.WalkFrame (u.modCore n (fun c => { c with tlb := tlbAdd 64 c.tlb e })) :=
  ⟨h.rest, (map_listModify u.cores n (fun c => { c with tlb := tlbAdd 64 c.tlb e }) (fun c => { c with tlb := [] }) (fun _ => rfl)).trans h.cores,
    h.clusters⟩

/-- A fill of a cluster's TLB. -/
theorem fillCluster (h : s.WalkFrame u) (n : Nat) (e : TlbEntry) :
    s.WalkFrame (u.modCluster n (fun c => { c with tlb := tlbAdd 2048 c.tlb e })) :=
  ⟨h.rest, h.cores,
    (map_listModify u.clusters n (fun c => { c with tlb := tlbAdd 2048 c.tlb e }) (fun c => { c with tlb := [] }) (fun _ => rfl)).trans h.clusters⟩

end State.WalkFrame

/-- A lookup changes no more than a walk may. -/
theorem State.lookup_walkFrame (s : State) (core ten ctx va : Nat) : s.WalkFrame (s.lookup (some core) ten ctx va).1 := by
  have hs := State.WalkFrame.refl s
  unfold State.lookup
  dsimp only
  split
  · exact hs
  · split
    · exact hs.fillCore core _
    · split
      · exact hs
      · split
        · exact hs.touchWalk _ _ _
        · exact ((hs.touchWalk _ _ _).fillCore core _).fillCluster _ _

/-! ### The events of a team's fragments -/

theorem exec_exitArrival (tid gi fi : Nat) (s : State) : exec (.exitArrival tid gi fi) s = execExitArrival tid gi fi s := rfl
theorem exec_fragmentAgeing (tid gi fi : Nat) (s : State) : exec (.fragmentAgeing tid gi fi) s = execFragmentAgeing tid gi fi s := rfl
theorem exec_hang (tid gi : Nat) (s : State) : exec (.hang tid gi) s = execHang tid gi s := rfl
theorem exec_preemptGraceExpiry (tid gi : Nat) (s : State) : exec (.preemptGraceExpiry tid gi) s = execPreemptGraceExpiry tid gi s := rfl
theorem exec_inFlightFinish (tid gi op : Nat) (lanes : Mask) (keepL1 : Bool) (s : State) :
    exec (.inFlightFinish tid gi op lanes keepL1) s = execInFlightFinish tid gi op lanes keepL1 s := rfl
theorem exec_pageWalk (core ctx va : Nat) (acc : AccessKind) (s : State) : exec (.pageWalk core ctx va acc) s = execPageWalk core ctx va acc s := rfl

theorem State.group?_eq {s : State} {tid gi : Nat} {t : Team} (ht : s.team? tid = some t) : s.group? tid gi = t.body.groups[gi]? := by
  rw [State.group?, ht, Option.bind_some]

/-- The lids of the live lanes of a group. -/
def Group.liveLids (g : Group) : List Nat := g.lids ((g.frags.filter (·.isLive)).foldl (fun m f => m ||| f.mask) 0)

/-- A part finishes where its lane is named, and under DET where a higher one of the access is (R242). -/
def Group.finishes (g : Group) (lanes : Mask) (o : Op) (p : Part) : Bool :=
  lanes.getLsbD (g.ix p.lid) || (mrDet g.mr && o.parts.any (fun x => lanes.getLsbD (g.ix x.lid) && decide (p.lid < x.lid)))

section
variable {s : State} {tid gi fi : Nat} {t : Team} {g : Group} {f : Frag} (ht : s.team? tid = some t) (hg : t.body.groups[gi]? = some g)
include ht hg

/-- A fragment at its join address is parked there, its windows delivered (R51, R185, R186). -/
theorem exec_exitArrival_due (hf : g.frags[fi]? = some f) (hr : t.runs g = true) (he : f.atExit = true) (hw : ∀ w ∈ f.wins, w.done = true) :
    exec (.exitArrival tid gi fi) s = .next ((s.modTeam tid (fun t => (t.deliverWhere gi fi (fun _ => true)).modGroup gi (fun g =>
      g.modFrag fi (fun f => { f with park := .exitArrived })))).settle tid gi) := by
  have hall : f.wins.all (·.done) = true := List.all_eq_true.2 hw
  rw [exec_exitArrival, execExitArrival, State.frag?_eq_some.2 ⟨ht, hg, hf⟩]
  simp only [hr, he, hall, Bool.not_true, Bool.or_false, Bool.false_eq_true, if_false]

/-- A slot's fragment that has issued its share gives its slot up (R200). -/
theorem exec_fragmentAgeing_due (hf : g.frags[fi]? = some f) (hs : f.slot.isSome = true) (hc : 64 ≤ f.count) :
    exec (.fragmentAgeing tid gi fi) s = .next (s.modGroup tid gi (fun g => g.rotate f.mask)) := by
  rw [exec_fragmentAgeing, execFragmentAgeing, State.frag?_eq_some.2 ⟨ht, hg, hf⟩]
  exact if_pos (Bool.and_eq_true_iff.2 ⟨hs, decide_eq_true hc⟩)

/-- A group that hangs traps with every live lane (R202, R342). -/
theorem exec_hang_due (hh : 2 ^ 27 ≤ g.hang) (hr : t.runs g = true) (hl : (g.frags.filter (·.isLive)).head? = some f) :
    exec (.hang tid gi) s = .next (s.takeTrap tid
      { id := 0, cls := clsHang, depth := f.jr.length, g := gi, pc := f.pc, lid := g.liveLids.headD 0, task := t.body.task, lids := g.liveLids }) := by
  obtain ⟨rest, hlive⟩ := List.head?_eq_some_iff.1 hl
  have hlim : ¬ g.hang < hangLimit := Nat.not_lt.2 hh
  rw [exec_hang, execHang, Group.liveLids]
  simp only [ht, hg, Option.bind_some, Option.map_some, hr, hlim, decide_false, Bool.not_true, Bool.or_self, Bool.false_eq_true, if_false, hlive]

/-- A group without grace left stops (R371). -/
theorem exec_preemptGraceExpiry_due (hz : g.grace = some 0) (hs : g.stopped = false) :
    exec (.preemptGraceExpiry tid gi) s = .next (s.modGroup tid gi (fun g => { g with stopped := true })) := by
  rw [exec_preemptGraceExpiry, execPreemptGraceExpiry, State.group?_eq ht, hg]
  exact if_pos (by simp [hz, hs])

/-- The lanes of an access in flight that an event chooses finish, with what comes before them (R242, R245, R252). -/
theorem exec_inFlightFinish_due {op : Nat} {lanes : Mask} {keepL1 : Bool} {o : Op} (ho : g.flight.find? (fun o => o.id == op) = some o)
    (hfin : o.fin = false) (hsel : o.parts = [] ∨ ∃ p ∈ o.parts, g.finishes lanes o p = true) :
    exec (.inFlightFinish tid gi op lanes keepL1) s =
      .next (((s.flushBefore tid gi op).performOp tid gi op (g.finishes lanes o) keepL1).endWaits tid gi) := by
  have hdue : (o.parts.isEmpty || o.parts.any (g.finishes lanes o)) = true :=
    Bool.or_eq_true_iff.2 (hsel.imp List.isEmpty_iff.2 List.any_eq_true.2)
  unfold Group.finishes at hdue ⊢
  rw [exec_inFlightFinish, execInFlightFinish, State.group?_eq ht, hg]
  simp only [ho, hfin, hdue, Bool.not_true, Bool.or_self, Bool.false_eq_true, if_false]

end

/-- A miss of a core's TLB is walked. -/
theorem exec_pageWalk_due {s : State} {core ctx va : Nat} {acc : AccessKind} {c : Context} {k : Core}
    (hc : s.ctxs.find? (fun c => c.num == ctx) = some c) (hk : s.cores[core]? = some k) (hacc : acc ∉ [.engine, .walk]) (hva : va < 2 ^ 52)
    (hmiss : ∀ e ∈ k.tlb, e.maps ctx va = false) :
    exec (.pageWalk core ctx va acc) s = .next (s.lookup (some core) c.tenant ctx va).1 := by
  have hm : k.tlb.any (fun e => e.maps ctx va) = false := List.any_eq_false.2 (fun e he => by simp [hmiss e he])
  simp only [List.mem_cons, List.not_mem_nil, or_false, not_or] at hacc
  obtain ⟨h1, h2⟩ := hacc
  rw [exec_pageWalk, execPageWalk]
  simp only [hc, hk, hm, h1, h2, Nat.not_le.2 hva, decide_false, Bool.or_self, Bool.false_eq_true, if_false]

/-- Settles O41: each event where it is due; a walk by the frame that its reads and its fills keep. -/
theorem fragmentEvents : Obligations.FragmentEvents := by
  intro s tid gi fi op core ctx va lanes keepL1 acc t g f o c k ht hg live lids hangTrap named chosen
  refine ⟨exec_exitArrival_due ht hg, exec_fragmentAgeing_due ht hg, exec_hang_due ht hg, exec_preemptGraceExpiry_due ht hg,
    exec_inFlightFinish_due ht hg, fun hc hk hacc hva hmiss => ?_⟩
  obtain ⟨hrest, hcores, hclusters⟩ := s.lookup_walkFrame core c.tenant ctx va
  exact ⟨_, exec_pageWalk_due hc hk hacc hva hmiss, hrest, hcores, hclusters⟩

end Sys2Proof.Machine
end

section
namespace Sys2Proof

/-! ### Worked words (R30, R33, R60) -/

/-- Settles O58: the words are concrete, and the decoder computes each of them. -/
theorem decodedWords : Obligations.DecodedWords := by
  unfold Obligations.DecodedWords
  intro is x p0
  and_intros
  all_goals rfl

end Sys2Proof
end

section
namespace Sys2Proof.Machine

/-! ### What a table entry says (R344, R345) -/

theorem natBits_eq (x hi lo : Nat) : natBits x hi lo = x / 2 ^ lo % 2 ^ (hi + 1 - lo) := by rw [natBits, Nat.shiftRight_eq_div_pow]

theorem pteOf_absent {level x : Nat} (h : x % 2 = 0) : pteOf level x = .absent := by
  have hv : natBits x 0 0 = 0 := by rw [natBits_eq]; omega
  rw [pteOf, if_pos hv]

/-- A pointer to a table above level 3. -/
theorem pteOf_table {level b : Nat} (hl : level ≠ 3) (hb : b < 2 ^ 34) : pteOf level (b * 2 ^ 12 + 3) = .table (b * 2 ^ 12) := by
  generalize he : b * 2 ^ 12 + 3 = x
  obtain ⟨hv, ht, hps, hmt, hlow, hbase, hhigh⟩ : natBits x 0 0 = 1 ∧ natBits x 1 1 = 1 ∧ natBits x 4 4 = 0 ∧ natBits x 6 5 = 0
      ∧ natBits x 11 7 = 0 ∧ natBits x 45 12 = b ∧ natBits x 63 46 = 0 := by
    simp only [natBits_eq]
    omega
  simp [pteOf, hv, ht, hps, hmt, hlow, hbase, hhigh, hl]

/-- A leaf of level 3: a page of 4 KiB. -/
theorem pteOf_leaf {pg wb xb mt : Nat} (hpg : pg < 2 ^ 34) (hw : wb < 2) (hx : xb < 2) (hm : mt < 4) :
    pteOf 3 (pg * 2 ^ 12 + 1 + 4 * wb + 8 * xb + 32 * mt) =
      .leaf { base := pg * 2 ^ 12, size := 12, w := wb == 1, x := xb == 1, mt := mtOf mt } := by
  generalize he : pg * 2 ^ 12 + 1 + 4 * wb + 8 * xb + 32 * mt = x
  obtain ⟨hv, ht, hwb, hxb, hps, hmt, hlow, hbase, hhigh⟩ : natBits x 0 0 = 1 ∧ natBits x 1 1 = 0 ∧ natBits x 2 2 = wb ∧ natBits x 3 3 = xb
      ∧ natBits x 4 4 = 0 ∧ natBits x 6 5 = mt ∧ natBits x 11 7 = 0 ∧ natBits x 45 12 = pg ∧ natBits x 63 46 = 0 := by
    simp only [natBits_eq]
    omega
  simp [pteOf, hv, ht, hwb, hxb, hps, hmt, hlow, hbase, hhigh, ← Bool.beq_eq_decide_eq]

/-! ### Steps of a walk (R344, R346, R349) -/

section
variable {rd : Nat → Nat → Except XErr Nat} {level base a x : Nat} (hr : rd level (base + 8 * pteIndex level a) = .ok x)
include hr

theorem walkFrom_absent (hp : pteOf level x = .absent) (stage fuel : Nat) :
    walkFrom rd stage a (fuel + 1) level base = .error { stage := stage, level := level, reason := 0 } := by
  simp only [walkFrom, hr, hp]

theorem walkFrom_table {b : Nat} (hp : pteOf level x = .table b) (stage fuel : Nat) :
    walkFrom rd stage a (fuel + 1) level base = walkFrom rd stage a fuel (level + 1) b := by
  rw [walkFrom, hr]
  simp only [hp]

theorem walkFrom_leaf {l : Leaf} (hp : pteOf level x = .leaf l) (stage fuel : Nat) :
    walkFrom rd stage a (fuel + 1) level base = .ok l := by
  simp only [walkFrom, hr, hp]

end

theorem pteIndex_zero (a : Nat) : pteIndex 0 a = a / 2 ^ 39 := rfl
theorem pteIndex_one (a : Nat) : pteIndex 1 a = a / 2 ^ 30 % 512 := natBits_eq a 38 30
theorem pteIndex_two (a : Nat) : pteIndex 2 a = a / 2 ^ 21 % 512 := natBits_eq a 29 21
theorem pteIndex_three (a : Nat) : pteIndex 3 a = a / 2 ^ 12 % 512 := natBits_eq a 20 12

/-! ### Translation under a TLB entry of the core (R259, R347-R349) -/

theorem State.translate_beyond {s : State} {core : Option Nat} {ten ctx va : Nat} {a : Acc} (h : 2 ^ 52 ≤ va) :
    s.translate core ten ctx va a = (s, .error { stage := 1, level := 0, reason := 2 }) := if_pos h

section
variable {s : State} {core ctx va : Nat} {k : Core} {e : TlbEntry} (hk : s.cores[core]? = some k)
  (he : k.tlb.find? (fun r => r.maps ctx va) = some e)
include hk he

/-- A hit in the core's TLB changes nothing. -/
theorem State.lookup_hit (ten : Nat) : s.lookup (some core) ten ctx va = (s, .ok e) := by
  simp only [State.lookup, Option.bind_some, hk, he]

variable {a : Acc} (hva : va < 2 ^ 52)
include hva

theorem State.translate_refused (ten : Nat) {r : Nat} (hc : a.check e (e.pa va) = some r) :
    s.translate (some core) ten ctx va a = (s, .error (e.refusal a (e.pa va) r)) := by
  simp only [State.translate, if_neg (Nat.not_le.2 hva), State.lookup_hit hk he, hc]

theorem State.translate_granted (ten : Nat) (hc : a.check e (e.pa va) = none) :
    s.translate (some core) ten ctx va a = (s, .ok (e.pa va, e.mt)) := by
  simp only [State.translate, if_neg (Nat.not_le.2 hva), State.lookup_hit hk he, hc]

end

section
variable {a : Acc} {e : TlbEntry} {pa : Nat}

/-- A fetch asks for X alone. -/
theorem Acc.check_fetch (h : a.kind = .fetch) : a.check e pa = if e.x then none else some 1 := if_pos h

/-- A write asks for W without X. -/
theorem Acc.check_write_refused (h : a.kind ≠ .fetch) (hw : a.write = true) (hp : e.w = false ∨ e.x = true) : a.check e pa = some 1 := by
  rw [Acc.check, if_neg h]
  exact if_pos (by rcases hp with hp | hp <;> simp [hw, hp])

/-- An access of data that has its permission is checked against the memory type. -/
theorem Acc.check_type (h : a.kind ≠ .fetch) (hp : a.write = true → e.w = true ∧ e.x = false) :
    a.check e pa = if (a.kind = .atomic ∧ (e.mt = .writeCombine ∨ e.mt = .device ∨ inAperture pa = true)) ∨ (a.size = 16 ∧ e.mt = .device)
      then some 3 else none := by
  have hperm : ¬(a.write && (!e.w || e.x)) = true := by
    intro hc
    obtain ⟨hw, hx⟩ := Bool.and_eq_true_iff.1 hc
    obtain ⟨h1, h2⟩ := hp hw
    simp [h1, h2] at hx
  rw [Acc.check, if_neg h, if_neg hperm]
  by_cases hat : a.kind = .atomic ∧ (e.mt = .writeCombine ∨ e.mt = .device ∨ inAperture pa = true)
  · rw [if_pos (Or.inl hat), if_pos (by simpa [or_assoc] using hat)]
  · rw [if_neg (by simpa [or_assoc] using hat)]
    simp only [hat, false_or, Bool.and_eq_true, decide_eq_true_eq]

/-- Whether stage 1 itself refuses, for a reason: its own bits for a permission, its own type for a type (log 14). -/
def TlbEntry.firstRefuses (e : TlbEntry) (a : Acc) (pa r : Nat) : Prop :=
  if r = 3 then inAperture pa = false ∧ e.mt1 = e.mt else if a.kind = .fetch then e.x1 = false else e.x = true ∨ e.w1 = false

/-- A refusal for a permission or a type names the stage that refuses, and the level of its leaf. -/
theorem TlbEntry.refusal_names {r : Nat} (hr : r = 1 ∨ r = 3) : ∃ stage level, e.refusal a pa r = { stage := stage, level := level, reason := r }
    ∧ (e.firstRefuses a pa r → stage = 1 ∧ level = e.level1) ∧ (¬e.firstRefuses a pa r → stage = 2 ∧ level = e.level2) := by
  refine ⟨_, _, rfl, ?_⟩
  rcases hr with rfl | rfl
  · by_cases hf : a.kind = .fetch
    · cases h : e.x1 <;> simp [TlbEntry.firstRefuses, hf, h]
    · cases hx : e.x <;> cases hw : e.w1 <;> simp [TlbEntry.firstRefuses, hf, hx, hw]
  · by_cases hm : e.mt1 = e.mt <;> cases h : inAperture pa <;> simp [TlbEntry.firstRefuses, hm, h]

end

/-- Settles O54: the walk goes down entry by entry, and a TLB entry leaves the checks of R347 and R259 in their order. -/
theorem translationChecks : Obligations.TranslationChecks := by
  intro s core ten ctx va a k e rd b0 b1 b2 b3 pg wb xb mt table leaf pa
  refine ⟨?_, ?_, State.translate_beyond, ?_⟩
  · intro hva h1 h2 h3 hpg hw hx hm r0 r1 r2 r3
    rw [walkFrom_table (pteIndex_zero va ▸ r0) (pteOf_table (by decide) h1), walkFrom_table (pteIndex_one va ▸ r1) (pteOf_table (by decide) h2),
      walkFrom_table (pteIndex_two va ▸ r2) (pteOf_table (by decide) h3), walkFrom_leaf (pteIndex_three va ▸ r3) (pteOf_leaf hpg hw hx hm)]
  · intro x stage level fuel hx hr
    exact walkFrom_absent hr (pteOf_absent hx) stage fuel
  · intro hva hk he first fails
    have granted := State.translate_granted (a := a) hk he hva ten
    have refused : ∀ r, r = 1 ∨ r = 3 → a.check e (e.pa va) = some r → fails r := by
      intro r hr hc
      obtain ⟨stage, level, href, hfirst⟩ := e.refusal_names (a := a) (pa := e.pa va) hr
      exact ⟨stage, level, href ▸ State.translate_refused hk he hva ten hc, hfirst⟩
    refine ⟨fun hf hx => ?_, fun hf hx => ?_, fun hf hw hp => ?_, fun hf hp => ⟨fun hodd => ?_, fun hodd => ?_⟩⟩
    · exact refused 1 (.inl rfl) (by simp [Acc.check_fetch hf, hx])
    · exact granted (by simp [Acc.check_fetch hf, hx])
    · exact refused 1 (.inl rfl) (Acc.check_write_refused hf hw hp)
    · exact refused 3 (.inr rfl) ((Acc.check_type hf hp).trans (if_pos hodd))
    · exact granted ((Acc.check_type hf hp).trans (if_neg hodd))

end Sys2Proof.Machine
end

section
namespace Sys2Proof.Machine

/-! ### The command of an event (R413) -/

/-- The command found has the identity looked for. -/
theorem State.cmdOf_id {s : State} {cmd op : Nat} {x : Command} (h : s.cmdOf cmd op = some x) : x.id = cmd := by
  have hx := List.find?_some h
  simp only [Bool.and_eq_true, beq_iff_eq] at hx
  exact hx.1.1.1

/-! ### Launches (R206, R412-R414) -/

section
variable {s u : State} {x : Command} {sys : Bool}

theorem State.runLaunch_refused {code : Nat}
    (h : s.launchAt x.tenant x.part x.ctx (recArg x.words 0) sys (some x.id) none = (u, some code)) :
    s.runLaunch x sys = u.finishCmd x.id code 0 := by
  simp only [State.runLaunch, h]

theorem State.runLaunch_started (h : s.launchAt x.tenant x.part x.ctx (recArg x.words 0) sys (some x.id) none = (u, none)) :
    s.runLaunch x sys = u.modCmd x.id (fun c => { c with started := true }) := by
  simp only [State.runLaunch, h]

end

section
variable {s : State} {cmd : Nat} {x : Command}

theorem execLaunch_due (hc : s.cmdOf cmd 0x01 = some x) : execLaunch cmd s = .next (s.runLaunch x false) := by
  simp only [execLaunch, hc]

theorem execSyslaunch_due (hc : s.cmdOf cmd 0x02 = some x) : execSyslaunch cmd s = .next (s.runLaunch x true) := by
  simp only [execSyslaunch, hc]

/-! ### COPY (R412, R413, R417) -/

section
variable (hc : s.cmdOf cmd 0x03 = some x)
include hc

theorem execCopy_nothing (h0 : recArg x.words 2 = 0) : execCopy cmd s = .next (s.finishCmd cmd 0 0) := by
  simp only [execCopy, hc, if_pos h0]

theorem execCopy_refused (h0 : recArg x.words 2 ≠ 0)
    (hbad : 2 ^ 32 ≤ recArg x.words 2 ∨ cardOk (copyCard (recArg x.words 0) (recArg x.words 1) (recArg x.words 2)) = false) :
    execCopy cmd s = .next (s.finishCmd cmd 7 0) := by
  simp only [execCopy, hc, if_neg h0]
  exact if_pos (by simpa using hbad)

theorem execCopy_published (h0 : recArg x.words 2 ≠ 0) (hlen : recArg x.words 2 < 2 ^ 32)
    (hok : cardOk (copyCard (recArg x.words 0) (recArg x.words 1) (recArg x.words 2)) = true) :
    execCopy cmd s = .next (State.modCmd { s with
        pubs := s.pubs ++ [{ id := s.nextId, owner := .command cmd, tenant := x.tenant, part := x.part, ctx := x.ctx,
                             cards := [copyCard (recArg x.words 0) (recArg x.words 1) (recArg x.words 2)] }],
        nextId := s.nextId + 1 } cmd (fun c => { c with started := true })) := by
  simp only [execCopy, hc, if_neg h0]
  exact if_neg (by simpa [hok] using hlen)

end

/-! ### Contexts and translations (R83, R348, R367, R405, R413) -/

theorem execCtxnew_refused (hc : s.cmdOf cmd 0x04 = some x) (hbad : s.newCtx x.tenant = none ∨ recArg x.words 0 % 2 ^ 16 ≠ 0) :
    execCtxnew cmd s = .next (s.finishCmd cmd 7 0) := by
  simp only [execCtxnew, hc]
  cases hn : s.newCtx x.tenant with
  | none => rfl
  | some n => exact if_pos (hbad.resolve_left (by simp [hn]))

theorem execCtxnew_made {n : Nat} (hc : s.cmdOf cmd 0x04 = some x) (hn : s.newCtx x.tenant = some n) (ha : recArg x.words 0 % 2 ^ 16 = 0) :
    execCtxnew cmd s = .next (State.finishCmd
      { s with ctxs := s.ctxs ++ [{ num := n, tenant := x.tenant, root := BitVec.ofNat 64 (recArg x.words 0) }] } cmd 0 n) := by
  simp only [execCtxnew, hc, hn]
  exact if_neg (fun h => h ha)

theorem execCtxdel_foreign (hc : s.cmdOf cmd 0x05 = some x) (hm : s.ownCtx x.tenant (recArg x.words 0) = false) :
    execCtxdel cmd s = .next (s.finishCmd cmd 7 0) := by
  simp only [execCtxdel, hc, hm, Bool.not_false, if_true]

/-- A context that no grid uses goes, with its code and its translations (log 42). -/
theorem execCtxdel_idle (hc : s.cmdOf cmd 0x05 = some x) (hm : s.ownCtx x.tenant (recArg x.words 0) = true)
    (hg : ∀ g ∈ s.grids, g.ctx ≠ recArg x.words 0) :
    execCtxdel cmd s = .next (((State.dropCode { s with ctxs := s.ctxs.filter (fun c => c.num != recArg x.words 0) } (recArg x.words 0)).tlbDropAll
      (fun e => e.ctx == recArg x.words 0)).finishCmd cmd 0 0) := by
  have hidle : s.grids.any (fun g => g.ctx == recArg x.words 0) = false := List.any_eq_false.2 (fun g h => by simpa using hg g h)
  simp only [execCtxdel, hc, hm, hidle, Bool.not_true, Bool.false_eq_true, if_false]

theorem execMapcode_foreign (hc : s.cmdOf cmd 0x06 = some x) (hm : s.ownCtx x.tenant (recArg x.words 0) = false) :
    execMapcode cmd s = .next (s.finishCmd cmd 7 0) := by
  simp only [execMapcode, hc, hm, Bool.not_false, if_true]

theorem execMapcode_own (hc : s.cmdOf cmd 0x06 = some x) (hm : s.ownCtx x.tenant (recArg x.words 0) = true) :
    execMapcode cmd s = .next (((s.modCtx (recArg x.words 0) (fun c => { c with codeGen := c.codeGen + 1 })).tlbDropAll
      (fun e => e.ctx == recArg x.words 0)).finishCmd cmd 0 0) := by
  simp only [execMapcode, hc, hm, Bool.not_true, Bool.false_eq_true, if_false]

theorem execTlbinvCommand_foreign (hc : s.cmdOf cmd 0x07 = some x) (hm : s.ownCtx x.tenant (recArg x.words 0) = false) :
    execTlbinvCommand cmd s = .next (s.finishCmd cmd 7 0) := by
  simp only [execTlbinvCommand, hc, hm, Bool.not_false, if_true]

/-- Every enabled partition of the tenant loses the entries named. -/
theorem execTlbinvCommand_own (hc : s.cmdOf cmd 0x07 = some x) (hm : s.ownCtx x.tenant (recArg x.words 0) = true) :
    execTlbinvCommand cmd s = .next ((((List.range s.parts.length).filter (fun p =>
        ((s.parts[p]?).map (fun (y : Partition) => y.en && y.owner == x.tenant)).getD false)).foldl (fun u p => u.tlbDrop p (fun e =>
          if recArg x.words 1 = 2 ^ 64 - 1 then e.ctx == recArg x.words 0 else e.maps (recArg x.words 0) (recArg x.words 1))) s).finishCmd cmd 0 0) := by
  simp only [execTlbinvCommand, hc, hm, Bool.not_true, Bool.false_eq_true, if_false]

theorem execS2inv_refused (hc : s.cmdOf cmd 0x22 = some x) (ht : 16 ≤ recArg x.words 0) : execS2inv cmd s = .next (s.finishCmd cmd 7 0) := by
  simp only [execS2inv, hc, if_pos ht]

theorem execS2inv_tenant (hc : s.cmdOf cmd 0x22 = some x) (ht : recArg x.words 0 < 16) :
    execS2inv cmd s = .next ((s.tlbDropAll (fun e => s.ownCtx (recArg x.words 0) e.ctx)).finishCmd cmd 0 0) := by
  simp only [execS2inv, hc, if_neg (Nat.not_le.2 ht)]

/-! ### DEBUG, SIGNAL and the debugger (R360, R363, R413) -/

/-- The comparator that a DEBUG names. -/
def Command.debugSlot (x : Command) : Nat := natBits (recArg x.words 0) 11 8

/-- The comparator value that a DEBUG gives, its reserved bits zero. -/
def Command.debugValue (x : Command) : BitVec 128 := cmpValue x.debugSlot (BitVec.ofNat 128 (recArg x.words 1 + 2 ^ 64 * recArg x.words 2))

/-- A DEBUG that Pilot takes: a core and a context of the tenant, one of the comparators, and a value it admits (R360). -/
def State.takesDebug (s : State) (x : Command) : Prop :=
  (∃ p ∈ s.parts, p.en = true ∧ p.owner = x.tenant ∧ p.hasCore (natBits (recArg x.words 0) 6 0) = true)
    ∧ s.ownCtx x.tenant (cmpCtx x.debugValue) = true ∧ x.debugSlot < 12 ∧ cmpOk x.debugSlot x.debugValue = true

/-- The model's check of a DEBUG passes what Pilot takes, and nothing else. -/
theorem State.debugPasses_iff (s : State) (x : Command) :
    (!s.parts.any (fun p => p.en && p.owner == x.tenant && p.hasCore (natBits (recArg x.words 0) 6 0)) || !s.ownCtx x.tenant (cmpCtx x.debugValue)
      || decide (12 ≤ x.debugSlot) || !cmpOk x.debugSlot x.debugValue) = false ↔ s.takesDebug x := by
  simp [State.takesDebug, and_assoc]

theorem execDebugCommand_refused (hc : s.cmdOf cmd 0x0B = some x) (hd : ¬s.takesDebug x) : execDebugCommand cmd s = .next (s.finishCmd cmd 7 0) := by
  simp only [execDebugCommand, hc]
  exact if_pos (eq_true_of_ne_false (mt (s.debugPasses_iff x).1 hd))

theorem execDebugCommand_set (hc : s.cmdOf cmd 0x0B = some x) (hd : s.takesDebug x) :
    execDebugCommand cmd s = .next ((s.modCore (natBits (recArg x.words 0) 6 0) (fun k =>
      { k with cmps := listModify k.cmps x.debugSlot (fun _ => x.debugValue) })).finishCmd cmd 0 0) := by
  simp only [execDebugCommand, hc]
  exact if_neg (ne_true_of_eq_false ((s.debugPasses_iff x).2 hd))

theorem execSignal_done (hc : s.cmdOf cmd 0x0C = some x) : execSignal cmd s = .next (s.finishCmd cmd 0 0) := by
  simp only [execSignal, hc]

end

theorem execDebuggerAttach_ctx {s : State} {ctx : Nat} (h : ∃ c ∈ s.ctxs, c.num = ctx) (attached : Bool) :
    execDebuggerAttach ctx attached s = .next (s.modCtx ctx (fun c => { c with debugger := attached })) :=
  if_pos (by simpa using h)

/-- Settles O47: each command by its checks in their order; a launch by what the launcher answers. The dispatch
to a command's meaning is `exec` by definition. -/
theorem commands : Obligations.Commands := by
  intro s u cmd ctx code n attached x par a done launches pub mine drop core slot value dbg
  have launched : ∀ {i : Instr} {sys : Bool}, x.id = cmd → exec i s = .next (s.runLaunch x sys) → launches i sys := by
    intro i sys hid hi
    refine ⟨fun h => ?_, fun h => ?_⟩
    · rw [hi, State.runLaunch_refused h, hid]
    · rw [hi, State.runLaunch_started h, hid]
  refine ⟨?launch, ?syslaunch, execCopy_nothing, execCopy_refused, execCopy_published, execCtxnew_refused, execCtxnew_made, ?foreign,
    execCtxdel_idle, execMapcode_own, ?tlbinv, execS2inv_refused, execS2inv_tenant, execDebugCommand_refused, execDebugCommand_set,
    execSignal_done, fun h => execDebuggerAttach_ctx h attached⟩
  case launch => exact fun hc => launched (State.cmdOf_id hc) (execLaunch_due hc)
  case syslaunch => exact fun hc => launched (State.cmdOf_id hc) (execSyslaunch_due hc)
  case foreign =>
    intro hm
    have hm := eq_false_of_ne_true hm
    exact ⟨fun hc => execCtxdel_foreign hc hm, fun hc => execMapcode_foreign hc hm, fun hc => execTlbinvCommand_foreign hc hm⟩
  case tlbinv =>
    rintro hc hm rfl
    exact execTlbinvCommand_own hc hm

end Sys2Proof.Machine
end

section
namespace Sys2Proof.Machine

/-! ### Lane results of an unhindered issue (R36, R41, R122) -/

section
variable {i : Instr} {s : State} {q : Iss} (h : Issues i s q)
include h

/-- An instruction that always writes one word in each lane of EXEC. -/
theorem exec_result {val : Iss → Nat → Word} {v : Nat → Word} (he : exec i s = issueOk i (fun q => q.result (val q)) s)
    (hv : val q.counted = v) : exec i s = .next (q.counted.result v) := by
  rw [he, issueOk_eq h, hv]

/-- An instruction that always writes a pair of words in each lane of EXEC. -/
theorem exec_result64 {val : Iss → Nat → DWord} {v : Nat → DWord} (he : exec i s = issueOk i (fun q => q.result64 (val q)) s)
    (hv : val q.counted = v) : exec i s = .next (q.counted.result64 v) := by
  rw [he, issueOk_eq h, hv]

end

/-! ### Lane reads (R105, R106) -/

/-- The value of a at a position: of the lane there, where one in range is, else the lane's own (R104, R105). -/
theorem Iss.laneRead_eq (q : Iss) (i : Nat) (j : Int) :
    q.laneRead i j =
      if 0 ≤ j ∧ j < Int.ofNat q.g.count ∧ (q.t.lane (q.lid j.toNat)).exited = false then q.a j.toNat else q.a i := by
  have hrange : (0 ≤ j ∧ q.inRange j.toNat = true) ↔
      (0 ≤ j ∧ j < Int.ofNat q.g.count ∧ (q.t.lane (q.lid j.toNat)).exited = false) := by
    refine and_congr_right fun h0 => ?_
    rw [Iss.inRange, Bool.and_eq_true, decide_eq_true_iff, Bool.not_eq_true', Int.toNat_lt h0]
    rfl
  rw [Iss.laneRead, Iss.source, apply_ite q.a]
  exact ite_congr (propext hrange) (fun _ => rfl) (fun _ => rfl)

/-- A lane read, by the position that it names from each lane, answers the values of a from before it was counted. -/
theorem exec_laneRead {i : Instr} {s : State} {q : Iss} (h : Issues i s q) {pos : Iss → Nat → Int}
    (he : exec i s = issueOk i (fun q => q.result (fun n => q.laneRead n (pos q n))) s) (hpos : pos q.counted = pos q) :
    exec i s = .next (q.counted.result (fun n =>
      if 0 ≤ pos q n ∧ pos q n < Int.ofNat q.g.count ∧ (q.t.lane (q.lid (pos q n).toNat)).exited = false
        then q.a (pos q n).toNat else q.a n)) := by
  refine exec_result h he ?_
  funext n
  rw [hpos, Iss.counted_laneRead h.reads, Iss.laneRead_eq]

/-- Settles O9: each lane read by the position it names, BCAST by the uniform one. -/
theorem laneReads : Obligations.LaneReads := by
  intro s q x d a b read
  simp only [List.forall_mem_cons, List.not_mem_nil, false_imp_iff, implies_true, and_true]
  refine ⟨⟨fun h => ?at_, fun h => ?back, fun h => ?fwd, fun h => ?flip⟩, fun h => ?bcast⟩
  case at_ => exact exec_laneRead h (pos := fun q i => Far.at_.pos i (q.b i)) (by unfold exec; rfl) (by rw [Iss.counted_b h.reads])
  case back => exact exec_laneRead h (pos := fun q i => Far.back.pos i (q.b i)) (by unfold exec; rfl) (by rw [Iss.counted_b h.reads])
  case fwd => exact exec_laneRead h (pos := fun q i => Far.fwd.pos i (q.b i)) (by unfold exec; rfl) (by rw [Iss.counted_b h.reads])
  case flip => exact exec_laneRead h (pos := fun q i => Far.flip.pos i (q.b i)) (by unfold exec; rfl) (by rw [Iss.counted_b h.reads])
  case bcast => exact exec_laneRead h (pos := fun q i => Far.at_.pos i (q.uni .b)) (by unfold exec; rfl) (by rw [Iss.counted_uni h.reads])

/-! ### Votes (R107) -/

/-- VOTE.ANY and VOTE.ALL: a triple under MDST, else a lane result. -/
theorem issueOk_vote {i : Instr} {s : State} {q : Iss} (h : Issues i s q) {d : Code} {m : Iss → Mask} {val : Iss → Nat → Word}
    (hm : m q.counted = m q) (hval : val q.counted = val q) :
    issueOk i (fun q => if q.fm.p.mdst then q.tripleResult d (m q) else q.result (val q)) s =
      .next (if q.fm.p.mdst then q.counted.modGroup (fun g => g.setTriple d.toNat (m q)) else q.counted.result (val q)) := by
  rw [issueOk_eq h, Iss.counted_fm h.reads, hm, hval, Iss.tripleResult]

/-- Settles O10: ANY and ALL by their one form, BAL by its lane result. -/
theorem votes : Obligations.Votes := by
  intro s q x d a b P
  refine ⟨fun h => ?any, fun h => ?all, fun h => ?bal⟩
  case any =>
    have hp := Iss.counted_preds h.reads
    exact (exec_voteAny x d a s).trans (issueOk_vote h hp (by simp only [hp]))
  case all =>
    have hp := Iss.counted_preds h.reads
    have hx := Iss.counted_ex h.reads
    exact (exec_voteAll x d a s).trans (issueOk_vote h (m := fun q => q.ex &&& ~~~q.preds) (by simp only [hx, hp]) (by simp only [hx, hp]))
  case bal =>
    exact exec_result h (by unfold exec; rfl) (by simp only [Iss.counted_uni h.reads, Iss.counted_preds h.reads]; rfl)

/-! ### Identity (R98, R99, R220, R221, R230) -/

section
variable {s : State} {fm : Form} {q : Iss} (h : s.issuer fm = some q)
include h

/-- The grids that an issue reads are the state's. -/
theorem Iss.counted_grid? : q.counted.s.grid? = s.grid? := by
  obtain ⟨-, -, -, -, -, hs, -, -⟩ := State.issuer_eq_some.1 h
  have hg : q.counted.s.grids = q.s.grids := (congrArg State.grids (Iss.counted_rest h) :)
  funext k
  rw [State.grid?, State.grid?, hg, hs]

/-- What a team counts at an issue is none of its numbers. -/
theorem Iss.counted_identity :
    q.counted.t.index = q.t.index ∧ q.counted.t.grid = q.t.grid ∧ q.counted.t.body.grant = q.t.body.grant
      ∧ q.counted.t.body.request = q.t.body.request ∧ q.counted.t.body.gen = q.t.body.gen := by
  rw [Iss.counted_t h]
  exact ⟨rfl, rfl, rfl, rfl, rfl⟩

/-- The clock that LCLK reads is the one before its own issue, which counts outside the handler alone (R230). -/
theorem Iss.counted_clock : (if q.counted.f.jr.length = 0 then q.counted.g.clock - 1 else q.counted.g.clock) = q.g.clock := by
  have hc : q.counted.g.clock = if q.f.jr.length = 0 then q.g.clock + 1 else q.g.clock := by rw [Iss.counted_g h]; rfl
  rw [Iss.counted_depth h, hc]
  by_cases h0 : q.f.jr.length = 0
  · simp only [if_pos h0, BitVec.add_sub_cancel]
  · simp only [if_neg h0]

end

/-- Settles O11: each of these is a lane result of what the issue reads, and that is what stood before it was counted. -/
theorem laneIdentity : Obligations.LaneIdentity := by
  intro s q d n h lim g grid
  have own : ∀ {i : Instr}, Issues i s q → q.counted.s.grid? q.counted.t.grid = grid := by
    intro i hi
    obtain ⟨-, hgrid, -, -, -⟩ := Iss.counted_identity hi.reads
    rw [Iss.counted_grid? hi.reads, hgrid]
    rfl
  simp only [List.forall_mem_cons, List.not_mem_nil, false_imp_iff, implies_true, and_true]
  refine ⟨⟨fun hi => ?lane, fun hi => ?grpid, fun hi => ?getw, fun hi => ?role, fun hi => ?teamid, fun hi => ?nteam, fun hi => ?gridid,
    fun hi => ?getmode⟩, fun hi => ?lclk, fun hi => ?csrr, fun hi => ?segrd⟩
  case lane => exact exec_result hi (by unfold exec; rfl) (by rw [Iss.counted_lid hi.reads])
  case grpid => exact exec_result hi (by unfold exec; rfl) (by rw [Iss.counted_c hi.reads])
  case getw =>
    obtain ⟨-, -, hgrant, hreq, hgen⟩ := Iss.counted_identity hi.reads
    exact exec_result hi (by unfold exec; rfl) (by rw [hgrant, hreq, hgen])
  case role => exact exec_result hi (by unfold exec; rfl) (by rw [Iss.counted_lid hi.reads, Iss.counted_lane hi.reads])
  case teamid =>
    obtain ⟨hix, -, -, -, -⟩ := Iss.counted_identity hi.reads
    exact exec_result hi (by unfold exec; rfl) (by rw [hix])
  case nteam => exact exec_result hi (by unfold exec; rfl) (by rw [own hi])
  case gridid => exact exec_result hi (by unfold exec; rfl) (by rw [own hi])
  case getmode => exact exec_result hi (by unfold exec; rfl) (by rw [Iss.counted_mr hi.reads])
  case lclk => exact exec_result hi (by unfold exec; rfl) (by rw [Iss.counted_clock hi.reads])
  case csrr => exact exec_result hi (by unfold exec; rfl) (by rw [Iss.counted_csr hi.reads])
  case segrd => exact exec_result64 hi (by unfold exec; rfl) (by rw [Iss.counted_segOf hi.reads])

end Sys2Proof.Machine
end

section
namespace Sys2Proof.Machine

/-! ### FP_TRAP of an unhindered issue (R162) -/

/-- The FP_TRAP that names a lane and an element, with flags and operands (R162). -/
def Iss.fpReport (q : Iss) (lane e fl : Nat) (ops : List Word) : Trap := { q.trapAt clsFp lane with elem := e, flags := fl, words := ops }

/-- Where some element raises an enabled flag, the trap names the first one and holds all flags. -/
theorem Iss.fpTrap_of_firstEnabled {q : Iss} {r : List (Nat × List ElemRes)} {l e : Nat} {r0 : ElemRes}
    (hx : firstEnabled (mrExcen q.g.mr) r = some (l, e, r0)) :
    q.fpTrap r = some (q.fpReport l e (allFlags r) ((r0.ops.map (BitVec.ofNat 32) ++ [0, 0, 0]).take 3)) := by
  rw [Iss.fpTrap, hx, Option.map_some, Iss.fpReport]

theorem Iss.counted_fpReport {s : State} {fm : Form} {q : Iss} (h : s.issuer fm = some q) (lane e fl : Nat) (ops : List Word) :
    q.counted.fpReport lane e fl ops = q.fpReport lane e fl ops := by
  rw [Iss.fpReport, Iss.counted_trapAt h, Iss.fpReport]

section
variable {i : Instr} {s : State} {q : Iss} (h : Issues i s q)
include h

/-- An instruction whose effect on the counted state is ILLEGAL. -/
theorem exec_illegal_of_eff {eff : Iss → Eff} (he : exec i s = issue i eff s) (heff : eff q.counted = .trap (q.counted.trap clsIllegal)) :
    exec i s = .next (q.trapped (q.trap clsIllegal)) := by
  rw [he, issue_of_trap h heff, Iss.counted_trap h.reads]

/-- An instruction whose effect on the counted state is a float result, where an element raises an enabled flag. -/
theorem exec_floatRes_trap {eff : Iss → Eff} {n cnt cnt' : Nat} {words : Nat → List Nat → List Word} {f f' : Nat → Nat → ElemRes}
    {l e : Nat} {r0 : ElemRes} (he : exec i s = issue i eff s) (heff : eff q.counted = q.counted.floatRes n cnt' words f')
    (hcnt : cnt' = cnt) (hf : f' = f)
    (hx : firstEnabled (mrExcen q.g.mr) (q.lanes.map (fun l => (l, (List.range cnt).map (f l)))) = some (l, e, r0)) :
    exec i s = .next (q.trapped (q.fpReport l e (allFlags (q.lanes.map (fun l => (l, (List.range cnt).map (f l)))))
      ((r0.ops.map (BitVec.ofNat 32) ++ [0, 0, 0]).take 3))) := by
  subst hcnt hf
  exact he.trans (issue_floatRes_trap h heff (Iss.fpTrap_of_firstEnabled hx))

/-- A float instruction under a float type, where an element raises an enabled flag. -/
theorem exec_floatOp_trap {F : Iss → Nat → Nat → ElemRes} {f : Nat → Nat → ElemRes} {l e : Nat} {r0 : ElemRes}
    (he : exec i s = issue i (fun q => q.floatOp (F q)) s) (ht : etFloat q.etype = true) (hf : F q.counted = f)
    (hx : firstEnabled (mrExcen q.g.mr) (q.lanes.map (fun l => (l, (List.range (etCount q.etype)).map (f l)))) = some (l, e, r0)) :
    exec i s = .next (q.trapped (q.fpReport l e (allFlags (q.lanes.map (fun l => (l, (List.range (etCount q.etype)).map (f l)))))
      ((r0.ops.map (BitVec.ofNat 32) ++ [0, 0, 0]).take 3))) := by
  have hc := Iss.counted_etype h.reads
  exact exec_floatRes_trap h he (if_pos (by rw [hc, ht])) (by rw [hc]) hf hx

end

/-! ### SFU words, reductions and scans (R109, R162, R166) -/

theorem Iss.sfu_trap {q : Iss} {fn : Nat} {t : Trap} (k : BitVec 4) (hf : etFloat q.etype = true)
    (ht : q.fpTrap (q.elemRes (fun i e => sfuElem fn q.fmt q.ftz (q.ea i e))) = some t) : q.sfu fn k = .trap t := by
  unfold Iss.elemRes at ht
  unfold Iss.sfu
  rw [if_pos hf]
  simp only [ht]

/-- A reduction's trap names the lowest lane of EXEC (R109). -/
theorem Iss.reduce_trap {q : Iss} {fn : Nat} {scan : Bool} {t : Trap} (k : BitVec 4) (hfn : fn < 3)
    (ht : q.fpTrap (q.elemRes (q.redRes fn scan)) = some t) :
    q.reduce fn scan k = .trap { t with lid := q.lid (q.lanes.headD 0) } := by
  have h3 : (decide (3 ≤ fn) && decide (fn ≤ 5)) = false := by simp [Nat.not_le.2 hfn]
  unfold Iss.elemRes Iss.redRes Iss.ea etCount at ht
  unfold Iss.reduce
  simp only [h3, Bool.false_eq_true, if_false, ht]

section
variable {i : Instr} {s : State} {q : Iss} (h : Issues i s q) {fn : Nat} {k : BitVec 4} {l e : Nat} {r0 : ElemRes}
include h

theorem exec_sfu_trap (he : exec i s = issue i (fun q => q.sfu fn k) s) (hf : etFloat q.etype = true)
    (hx : firstEnabled (mrExcen q.g.mr) (q.elemRes (fun i e => sfuElem fn q.fmt q.ftz (q.ea i e))) = some (l, e, r0)) :
    exec i s = .next (q.trapped (q.fpReport l e (allFlags (q.elemRes (fun i e => sfuElem fn q.fmt q.ftz (q.ea i e))))
      ((r0.ops.map (BitVec.ofNat 32) ++ [0, 0, 0]).take 3))) := by
  have hr := h.reads
  have ht := Iss.fpTrap_of_firstEnabled hx
  rw [← Iss.counted_etype hr] at hf
  rw [← Iss.counted_fpTrap hr, ← Iss.counted_elemRes hr, ← Iss.counted_fmt hr, ← Iss.counted_ftz hr, ← Iss.counted_ea hr] at ht
  rw [he, issue_of_trap h (Iss.sfu_trap k hf ht), Iss.counted_elemRes hr, Iss.counted_fmt hr, Iss.counted_ftz hr, Iss.counted_ea hr]

theorem exec_reduce_trap {scan : Bool} (he : exec i s = issue i (fun q => q.reduce fn scan k) s) (hfn : fn < 3)
    (hx : firstEnabled (mrExcen q.g.mr) (q.elemRes (q.redRes fn scan)) = some (l, e, r0)) :
    exec i s = .next (q.trapped (q.fpReport (q.lanes.headD 0) e (allFlags (q.elemRes (q.redRes fn scan)))
      ((r0.ops.map (BitVec.ofNat 32) ++ [0, 0, 0]).take 3))) := by
  have hr := h.reads
  have ht := Iss.fpTrap_of_firstEnabled hx
  rw [← Iss.counted_fpTrap hr, ← Iss.counted_elemRes hr, ← Iss.counted_redRes hr] at ht
  rw [he, issue_of_trap h (Iss.reduce_trap k hfn ht), Iss.counted_elemRes hr, Iss.counted_redRes hr, Iss.counted_lid hr, Iss.counted_lanes hr]
  rfl

end

/-! ### CSAMP (R109, R112) -/

/-- The sum of the weights up to a lane, itself included, with the flags of its additions. -/
def Iss.csampTotal (q : Iss) (i : Nat) : Node := q.redElem true (redOp 0 2 false q.ftz 0) (fun j => (csampWeight q.ftz (q.a j)).1) i

/-- The total of the weights, 0 with EXEC empty. -/
def Iss.csampSum (q : Iss) : Nat := (q.csampTotal (q.lanes.getLast?.getD 0)).1

/-- The flags of the weights and of the sums at the lanes of EXEC (log 48). -/
def Iss.csampSumFlags (q : Iss) : Nat := q.lanes.foldl (fun f i => f ||| (csampWeight q.ftz (q.a i)).2 ||| (q.csampTotal i).2) 0

/-- All flags of a CSAMP: OF besides, for an infinite total. -/
def Iss.csampFlags (q : Iss) : Nat := q.csampSumFlags ||| flagIf (!q.lanes.isEmpty && q.csampSum == fp32.infPat) flOF

/-- A random fraction of the total, rounded towards zero. -/
def Iss.csampThreshold (q : Iss) : Nat :=
  match fp32.decode q.csampSum with
  | .fin _ m e => (fp32.round 1 0 false false false (bitsOf (q.mixWord (8 * q.lid (q.lanes.headD 0)) 0) 23 0 * m) (e - 24)).1
  | _ => 0

/-- The lid of the first lane whose sum exceeds a threshold. -/
def Iss.csampPick (q : Iss) (t : Nat) : Word :=
  match q.lanes.find? (fun i => decide (0 < fcompare (fp32.decode (q.csampTotal i).1) (fp32.decode t))) with
  | some i => BitVec.ofNat 32 (q.lid i)
  | none => BitVec.allOnes 32

/-- What a CSAMP draws. -/
def Iss.csampDraw (q : Iss) : Word :=
  if q.lanes.isEmpty || q.csampSum == 0 || q.csampSum == fp32.infPat then BitVec.allOnes 32 else q.csampPick q.csampThreshold

/-- The effect of a CSAMP: its trap in the lowest lane of EXEC, or the window that holds the draw. -/
def Iss.csamp (q : Iss) (k : BitVec 4) : Eff :=
  match q.fpTrap ((q.lanes.take 1).map (fun i => (i, [⟨0, q.csampFlags, [(q.a i).toNat]⟩]))) with
  | some t => .trap t
  | none => .ok (q.openDone (q.lookahead k) (q.pending 1 (fun _ => [q.csampDraw]) ++ q.pendingZeros 1) none q.csampFlags)

theorem exec_csamp (p : Option Pfx) (k : BitVec 4) (d a : Code) (s : State) :
    exec (.csamp p k d a) s = issue (.csamp p k d a) (fun q => q.csamp k) s := by
  unfold exec
  rfl

/-- No lane of EXEC traps where no flag of the draw is enabled. -/
theorem Iss.csamp_ok {q : Iss} (k : BitVec 4) (hfl : q.csampFlags &&& mrExcen q.g.mr = 0) :
    q.csamp k = .ok (q.openDone (q.lookahead k) (q.pending 1 (fun _ => [q.csampDraw]) ++ q.pendingZeros 1) none q.csampFlags) := by
  have hn : q.fpTrap ((q.lanes.take 1).map (fun i => (i, [⟨0, q.csampFlags, [(q.a i).toNat]⟩]))) = none := by
    rw [Iss.fpTrap, Option.map_eq_none_iff, firstEnabled, List.findSome?_eq_none_iff, List.forall_mem_map]
    simp [hfl]
  unfold Iss.csamp
  simp only [hn]

/-- An enabled flag of the draw traps at the lowest lane of EXEC. -/
theorem Iss.csamp_trap {q : Iss} {m : Nat} (k : BitVec 4) (hm : q.lanes.head? = some m) (hfl : q.csampFlags &&& mrExcen q.g.mr ≠ 0) :
    q.csamp k = .trap (q.fpReport m 0 q.csampFlags [q.a m, 0, 0]) := by
  obtain ⟨rest, hl⟩ := List.head?_eq_some_iff.1 hm
  have hx : firstEnabled (mrExcen q.g.mr) [(m, [⟨0, q.csampFlags, [(q.a m).toNat]⟩])] = some (m, 0, ⟨0, q.csampFlags, [(q.a m).toNat]⟩) := by
    simp [firstEnabled, hfl]
  have ht := Iss.fpTrap_of_firstEnabled hx
  unfold Iss.csamp
  simp only [hl, List.take_succ_cons, List.take_zero, List.map_cons, List.map_nil, ht]
  simp [allFlags]

section
variable {s : State} {fm : Form} {q : Iss} (h : s.issuer fm = some q)
include h

theorem Iss.counted_csampFlags : q.counted.csampFlags = q.csampFlags := by rw [(Iss.counted_eq h).1]; rfl
theorem Iss.counted_csampDraw : q.counted.csampDraw = q.csampDraw := by rw [(Iss.counted_eq h).1]; rfl

end

section
variable {s : State} {q : Iss} {p : Option Pfx} {k : BitVec 4} {d a : Code} (h : Issues (.csamp p k d a) s q)
include h

theorem exec_csamp_ok (hfl : q.csampFlags &&& mrExcen q.g.mr = 0) : exec (.csamp p k d a) s =
    .next (q.counted.openDone (q.lookahead k) (q.pending 1 (fun _ => [q.csampDraw]) ++ q.pendingZeros 1) none q.csampFlags) := by
  have hr := h.reads
  rw [← Iss.counted_csampFlags hr, ← Iss.counted_mr hr] at hfl
  rw [exec_csamp, issue_of_ok h (Iss.csamp_ok k hfl), Iss.counted_lookahead hr, Iss.counted_pending hr, Iss.counted_pendingZeros hr,
    Iss.counted_csampDraw hr, Iss.counted_csampFlags hr]

theorem exec_csamp_trap {m : Nat} (hm : q.lanes.head? = some m) (hfl : q.csampFlags &&& mrExcen q.g.mr ≠ 0) :
    exec (.csamp p k d a) s = .next (q.trapped (q.fpReport m 0 q.csampFlags [q.a m, 0, 0])) := by
  have hr := h.reads
  rw [← Iss.counted_csampFlags hr, ← Iss.counted_mr hr] at hfl
  rw [← Iss.counted_lanes hr] at hm
  rw [exec_csamp, issue_of_trap h (Iss.csamp_trap k hm hfl), Iss.counted_csampFlags hr, Iss.counted_a hr,
    Iss.counted_fpReport hr]

end

section
variable {q : Iss} {last : Nat} (hlast : q.lanes.getLast? = some last)
include hlast

/-- The total is the sum at the highest lane. -/
theorem Iss.csampSum_of_last : q.csampSum = (q.csampTotal last).1 := by rw [Iss.csampSum, hlast, Option.getD_some]

theorem Iss.lanes_isEmpty_of_last : q.lanes.isEmpty = false := by
  cases hl : q.lanes with
  | nil => rw [hl] at hlast; cases hlast
  | cons i is => rfl

/-- Beside the sums' own flags there is OF for an infinite total. -/
theorem Iss.csampFlags_of_last : q.csampFlags = q.csampSumFlags ||| flagIf ((q.csampTotal last).1 == fp32.infPat) flOF := by
  rw [Iss.csampFlags, Iss.lanes_isEmpty_of_last hlast, Iss.csampSum_of_last hlast, Bool.not_false, Bool.true_and]

/-- A total that is not infinite leaves the sums' own flags. -/
theorem Iss.csampFlags_of_ne_inf (hinf : (q.csampTotal last).1 ≠ fp32.infPat) : q.csampFlags = q.csampSumFlags := by
  rw [Iss.csampFlags_of_last hlast, beq_false_of_ne hinf, flagIf, if_neg Bool.false_ne_true, Nat.or_zero]

theorem Iss.csampFlags_of_inf (hinf : (q.csampTotal last).1 = fp32.infPat) : q.csampFlags = q.csampSumFlags ||| flOF := by
  rw [Iss.csampFlags_of_last hlast, hinf, beq_self_eq_true, flagIf, if_pos rfl]

/-- A total of zero or infinity draws no lane. -/
theorem Iss.csampDraw_of_no_total (hsum : (q.csampTotal last).1 = 0 ∨ (q.csampTotal last).1 = fp32.infPat) :
    q.csampDraw = BitVec.allOnes 32 := by
  rw [← Iss.csampSum_of_last hlast] at hsum
  exact if_pos (by simpa [or_assoc] using Or.inr hsum)

/-- A finite total other than zero draws by the threshold. -/
theorem Iss.csampDraw_of_fin {m : Nat} {neg : Bool} {sig : Nat} {e : Int} (hm : q.lanes.head? = some m)
    (hfin : fp32.decode (q.csampTotal last).1 = .fin neg sig e) (h0 : (q.csampTotal last).1 ≠ 0) (hinf : (q.csampTotal last).1 ≠ fp32.infPat) :
    q.csampDraw = q.csampPick (fp32.round 1 0 false false false (bitsOf (q.mixWord (8 * q.lid m) 0) 23 0 * sig) (e - 24)).1 := by
  rw [← Iss.csampSum_of_last hlast] at hfin h0 hinf
  have ht : q.csampThreshold = (fp32.round 1 0 false false false (bitsOf (q.mixWord (8 * q.lid m) 0) 23 0 * sig) (e - 24)).1 := by
    rw [Iss.csampThreshold, hfin, List.headD_eq_head?_getD, hm, Option.getD_some]
  rw [← ht]
  exact if_neg (by simp [Iss.lanes_isEmpty_of_last hlast, h0, hinf])

end

/-- The pattern of infinity decodes to no finite number. -/
theorem fp32_infPat_of_fin {p : Nat} {neg : Bool} {sig : Nat} {e : Int} (hfin : fp32.decode p = .fin neg sig e) : p ≠ fp32.infPat := by
  have hinf : fp32.decode fp32.infPat = .inf false := by decide
  rintro rfl
  rw [hinf] at hfin
  cases hfin

/-- With EXEC empty the draw raises nothing and writes in no lane of it. -/
theorem Iss.csamp_of_empty {q : Iss} (hl : q.lanes = []) : q.csampFlags = 0 ∧ q.pending 1 (fun _ => [q.csampDraw]) = [] := by
  simp [Iss.csampFlags, Iss.csampSumFlags, Iss.pending, flagIf, hl]

/-- Settles O18: what is drawn and raised where the total is finite, where no lane takes part, and where it is zero or infinite. -/
theorem csampDraw : Obligations.CsampDraw := by
  intro s q p k d a m last neg sig e tot fl u t opens h
  have draws : ∀ {w : Word} {f : Nat}, q.csampDraw = w → q.csampFlags = f → opens w f := by
    rintro _ _ rfl rfl hfl
    exact exec_csamp_ok h hfl
  refine ⟨fun hm hlast hfin h0 => ?_, fun hl => ?_, fun hlast h0 => ?_, fun hlast hinf => ?_⟩
  · have hinf := fp32_infPat_of_fin hfin
    exact draws (Iss.csampDraw_of_fin hlast hm hfin h0 hinf) (Iss.csampFlags_of_ne_inf hlast hinf)
  · obtain ⟨hfl, hp⟩ := Iss.csamp_of_empty hl
    have hx := exec_csamp_ok h (by rw [hfl, Nat.zero_and])
    rwa [hfl, hp, List.nil_append] at hx
  · have hinf : (q.csampTotal last).1 ≠ fp32.infPat := fun hc => absurd (h0.symm.trans hc) (by decide)
    exact draws (Iss.csampDraw_of_no_total hlast (.inl h0)) (Iss.csampFlags_of_ne_inf hlast hinf)
  · exact draws (Iss.csampDraw_of_no_total hlast (.inr hinf)) (Iss.csampFlags_of_inf hlast hinf)

end Sys2Proof.Machine
end

section
namespace Sys2Proof.Machine

/-! ### Legal pairs of types (R175, R180) -/

theorem f2iLegal_iff (t : Nat) (e : BitVec 4) :
    ((t = 2 && (e.toNat = 0 || e.toNat = 1)) || ((t = 3 || t = 4) && (e.toNat = 5 || e.toNat = 6))) = true ↔
      (t = 2 ∧ e.toNat < 2) ∨ ((t = 3 ∨ t = 4) ∧ (e = 5 ∨ e = 6)) := by
  simp only [Bool.or_eq_true, Bool.and_eq_true, decide_eq_true_iff]
  bv_omega

theorem i2fLegal_iff (t : Nat) (e : BitVec 4) :
    (((t = 0 || t = 1) && e.toNat = 2) || ((t = 5 || t = 6) && (e.toNat = 3 || e.toNat = 4))) = true ↔
      (t < 2 ∧ e = 2) ∨ ((t = 5 ∨ t = 6) ∧ (e = 3 ∨ e = 4)) := by
  simp only [Bool.or_eq_true, Bool.and_eq_true, decide_eq_true_iff]
  bv_omega

theorem f2fIntoHalf_iff (t : Nat) (e : BitVec 4) : (t = 2 && (e.toNat = 3 || e.toNat = 4)) = true ↔ t = 2 ∧ (e = 3 ∨ e = 4) := by
  simp only [Bool.or_eq_true, Bool.and_eq_true, decide_eq_true_iff]
  bv_omega

theorem f2fFromHalf_iff (t : Nat) (e : BitVec 4) : ((t = 3 || t = 4) && e.toNat = 2) = true ↔ (t = 3 ∨ t = 4) ∧ e = 2 := by
  simp only [Bool.or_eq_true, Bool.and_eq_true, decide_eq_true_iff]
  bv_omega

theorem f2fPair_iff (t : Nat) (e : BitVec 4) (h : BitVec 1) :
    (((t = 3 && e.toNat = 4) || (t = 4 && e.toNat = 3)) && h.toNat = 0) = true ↔ ((t = 3 ∧ e = 4) ∨ (t = 4 ∧ e = 3)) ∧ h = 0 := by
  simp only [Bool.or_eq_true, Bool.and_eq_true, decide_eq_true_iff]
  bv_omega

/-- The 16-bit float types. -/
theorem etPair_iff (t : Nat) : (t = 3 || t = 4) = true ↔ t = 3 ∨ t = 4 := by
  rw [Bool.or_eq_true, decide_eq_true_iff, decide_eq_true_iff]

/-- What a float instruction reads is what stood before it was counted. -/
theorem Iss.counted_floatReads {s : State} {fm : Form} {q : Iss} (h : s.issuer fm = some q) :
    q.counted.etype = q.etype ∧ q.counted.fmt = q.fmt ∧ q.counted.rnd = q.rnd ∧ q.counted.rv = q.rv ∧ q.counted.rctx = q.rctx
      ∧ q.counted.ftz = q.ftz ∧ q.counted.g.mr = q.g.mr ∧ q.counted.a = q.a ∧ q.counted.b = q.b
      ∧ q.counted.ea = q.ea ∧ q.counted.eb = q.eb ∧ q.counted.ec = q.ec :=
  ⟨Iss.counted_etype h, Iss.counted_fmt h, Iss.counted_rnd h, Iss.counted_rv h, Iss.counted_rctx h, Iss.counted_ftz h, Iss.counted_mr h,
    Iss.counted_a h, Iss.counted_b h, Iss.counted_ea h, Iss.counted_eb h, Iss.counted_ec h⟩

/-- Settles O15: an integer type by the check that comes first, each float result by its effect on the counted state, reductions and CSAMP by the
lane that their report names. -/
theorem floatTraps : Obligations.FloatTraps := by
  intro s q x p k c e d a b h fmt e16 sat cnt u v illegal report traps one two whole
  refine ⟨?integer, ?arith, fun ht => ⟨?ffma, ?frnd⟩, ?sfu, ?red, ?csamp, ?f2i, ?f2iBad, ?i2f, ?i2fBad, ?intoHalf, ?fromHalf, ?pair, ?f2fBad,
    ?qnt, ?mxsc, fun h16 => ⟨?pack, ?unpk⟩, fun hn => ⟨?packBad, ?unpkBad⟩⟩
  case integer =>
    intro ht
    simp only [List.forall_mem_cons, List.not_mem_nil, false_imp_iff, implies_true, and_true]
    and_intros
    all_goals
      intro hi
      have hn : ¬etFloat q.counted.etype = true := by rw [Iss.counted_etype hi.reads, ht]; exact Bool.false_ne_true
      exact exec_illegal_of_eff hi (by unfold exec; rfl) (by exact if_neg hn)
  case arith =>
    intro ht
    simp only [List.forall_mem_cons, List.not_mem_nil, false_imp_iff, implies_true, and_true]
    and_intros
    all_goals
      exact fun _ _ _ hi => exec_floatOp_trap hi (by unfold exec; rfl) ht (by simp only [Iss.counted_floatReads hi.reads, u, v, two])
  case ffma =>
    exact fun _ _ _ hi => exec_floatOp_trap hi (by unfold exec; rfl) ht (by simp only [Iss.counted_floatReads hi.reads, u, v])
  case frnd =>
    exact fun _ _ _ hi => exec_floatOp_trap hi (by unfold exec; rfl) ht (by simp only [Iss.counted_floatReads hi.reads, u, one])
  case sfu =>
    intro ht
    simp only [List.forall_mem_cons, List.not_mem_nil, false_imp_iff, implies_true, and_true]
    and_intros
    all_goals exact fun _ _ _ hi hx => exec_sfu_trap hi (by unfold exec; rfl) ht hx
  case red =>
    simp only [List.forall_mem_cons, List.not_mem_nil, false_imp_iff, implies_true, and_true]
    and_intros
    all_goals exact fun _ _ _ hi hx => exec_reduce_trap hi (by unfold exec; rfl) (by decide) hx
  case csamp =>
    intro m last hm hlast tot fl hi hfl
    have hf : q.csampFlags = fl := Iss.csampFlags_of_last hlast
    rw [← hf] at hfl ⊢
    exact exec_csamp_trap hi hm hfl
  case f2i =>
    intro hl _ _ _ hi
    have hc := Iss.counted_etype hi.reads
    have hl := hc ▸ (f2iLegal_iff _ e).2 hl
    exact exec_floatRes_trap hi (by unfold exec; rfl) (by exact if_pos hl) (by rw [hc]) (by simp only [Iss.counted_floatReads hi.reads, u, sat, one])
  case f2iBad =>
    intro hn hi
    have hn := Iss.counted_etype hi.reads ▸ mt (f2iLegal_iff _ e).1 hn
    exact exec_illegal_of_eff hi (by unfold exec; rfl) (by exact if_neg hn)
  case i2f =>
    intro hl _ _ _ hi
    have hc := Iss.counted_etype hi.reads
    have hl := hc ▸ (i2fLegal_iff _ e).2 hl
    exact exec_floatRes_trap hi (by unfold exec; rfl) (by exact if_pos hl) (by rw [hc]) (by simp only [Iss.counted_floatReads hi.reads, sat, one])
  case i2fBad =>
    intro hn hi
    have hn := Iss.counted_etype hi.reads ▸ mt (i2fLegal_iff _ e).1 hn
    exact exec_illegal_of_eff hi (by unfold exec; rfl) (by exact if_neg hn)
  case intoHalf =>
    intro ht he _ _ _ hi
    have h1 := Iss.counted_etype hi.reads ▸ (f2fIntoHalf_iff _ e).2 ⟨ht, he⟩
    exact exec_floatRes_trap hi (by unfold exec; rfl) (by exact if_pos h1) rfl (by simp only [Iss.counted_floatReads hi.reads, sat, whole])
  case fromHalf =>
    intro ht he _ _ _ hi
    have hc := Iss.counted_etype hi.reads
    have ht2 : q.etype ≠ 2 := by rcases ht with ht | ht <;> omega
    have h1 := hc ▸ mt (f2fIntoHalf_iff q.etype e).1 (fun h => ht2 h.1)
    have h2 := hc ▸ (f2fFromHalf_iff _ e).2 ⟨ht, he⟩
    exact exec_floatRes_trap hi (by unfold exec; rfl) (by exact (if_neg h1).trans (if_pos h2)) rfl
      (by simp only [Iss.counted_floatReads hi.reads, u, sat])
  case pair =>
    intro hp h0 _ _ _ hi
    have hc := Iss.counted_etype hi.reads
    have ht2 : q.etype ≠ 2 := by rcases hp with ⟨ht, -⟩ | ⟨ht, -⟩ <;> omega
    have he2 : e ≠ 2 := by rcases hp with ⟨-, rfl⟩ | ⟨-, rfl⟩ <;> decide
    have h1 := hc ▸ mt (f2fIntoHalf_iff q.etype e).1 (fun h => ht2 h.1)
    have h2 := hc ▸ mt (f2fFromHalf_iff q.etype e).1 (fun h => he2 h.2)
    have h3 := hc ▸ (f2fPair_iff _ e h).2 ⟨hp, h0⟩
    exact exec_floatRes_trap hi (by unfold exec; rfl) (by exact (if_neg h1).trans ((if_neg h2).trans (if_pos h3))) rfl
      (by simp only [Iss.counted_floatReads hi.reads, u, sat, one])
  case f2fBad =>
    intro hn hi
    have hc := Iss.counted_etype hi.reads
    have h1 := hc ▸ mt (f2fIntoHalf_iff _ e).1 (fun h => hn (.inl h))
    have h2 := hc ▸ mt (f2fFromHalf_iff _ e).1 (fun h => hn (.inr (.inl h)))
    have h3 := hc ▸ mt (f2fPair_iff _ e h).1 (fun h => hn (.inr (.inr h)))
    exact exec_illegal_of_eff hi (by unfold exec; rfl) (by exact (if_neg h1).trans ((if_neg h2).trans (if_neg h3)))
  case qnt =>
    intro _ _ _ hi
    exact exec_floatRes_trap hi (by unfold exec; rfl) (by rfl) rfl (by simp only [Iss.counted_floatReads hi.reads, sat, whole])
  case mxsc =>
    intro _ _ _ hi
    exact exec_floatRes_trap hi (by unfold exec; rfl) (by rfl) rfl (by simp only [Iss.counted_floatReads hi.reads, whole])
  case pack =>
    intro _ _ _ hi
    have hl := Iss.counted_etype hi.reads ▸ (etPair_iff _).2 h16
    exact exec_floatRes_trap hi (by unfold exec; rfl) (by exact if_pos hl) rfl
      (by simp only [Iss.counted_floatReads hi.reads, sat, apply_ite BitVec.toNat])
  case unpk =>
    intro _ _ _ hi
    have hl := Iss.counted_etype hi.reads ▸ (etPair_iff _).2 h16
    exact exec_floatRes_trap hi (by unfold exec; rfl) (by exact if_pos hl) rfl (by simp only [Iss.counted_floatReads hi.reads, flagIf, u, one])
  case packBad =>
    intro hi
    have hn := Iss.counted_etype hi.reads ▸ mt (etPair_iff _).1 hn
    exact exec_illegal_of_eff hi (by unfold exec; rfl) (by exact if_neg hn)
  case unpkBad =>
    intro hi
    have hn := Iss.counted_etype hi.reads ▸ mt (etPair_iff _).1 hn
    exact exec_illegal_of_eff hi (by unfold exec; rfl) (by exact if_neg hn)

end Sys2Proof.Machine
end

section
namespace Sys2Proof.Machine

/-! ### The end of a commit (R209, R229, R292) -/

theorem exec_taskBoundary (tid : Nat) (s : State) : exec (.taskBoundary tid) s = execTaskBoundary tid s := rfl
theorem exec_reslice (tid : Nat) (s : State) : exec (.reslice tid) s = execReslice tid s := rfl
theorem exec_teamEnd (tid : Nat) (s : State) : exec (.teamEnd tid) s = execTeamEnd tid s := rfl
theorem exec_taskRollback (tid : Nat) (s : State) : exec (.taskRollback tid) s = execTaskRollback tid s := rfl
theorem exec_telltaleMismatch (tid : Nat) (m : Mismatch) (s : State) : exec (.telltaleMismatch tid m) s = execTelltaleMismatch tid m s := rfl

/-- A team whose commit has begun goes on; before that, one with neither a mismatch nor a trap to be served (R385, R391). -/
def Team.freeToCommit (t : Team) : Prop := t.committed = true ∨ (t.mismatch = none ∧ t.rollback = none)

/-- The model's check for what is to be served first. -/
theorem Team.servedFirst_eq_false {t : Team} (h : t.freeToCommit) : (!t.committed && (t.mismatch.isSome || t.rollback.isSome)) = false := by
  rcases h with hc | ⟨hm, hr⟩
  · simp [hc]
  · simp [hm, hr]

/-- The next task of a team whose boundary has committed, with the release of its fragments (R229, R371, R384). -/
def State.beginTask (s : State) (tid : Nat) (b : Boundary) : State :=
  (((s.modTeam tid (fun t => t.nextTask.takeSnap (some b))).releaseBoundary tid b).modTeam tid Team.stopAtBoundary).testBarriers tid (·.task)

section
variable {s : State} {tid : Nat} {t : Team} (ht : s.team? tid = some t)
include ht

theorem exec_taskBoundary_due {b : Boundary} {t1 : Team} (hb : t.boundary = some b) (hg : ∀ g ∈ t.body.groups, g.drained = true)
    (hf : t.freeToCommit) (hm : s.commitMoves t = true) (h1 : (s.commitTask tid).team? tid = some t1) :
    exec (.taskBoundary tid) s =
      .next (if (s.commitTask tid).commitDone t1 then (s.commitTask tid).beginTask tid b else s.commitTask tid) := by
  have hall : t.body.groups.all Group.drained = true := List.all_eq_true.2 hg
  rw [exec_taskBoundary, execTaskBoundary]
  simp only [ht, hb, hall, Team.servedFirst_eq_false hf, hm, h1, Bool.not_true, Bool.or_self, Bool.false_eq_true, if_false]
  unfold State.beginTask
  cases (s.commitTask tid).commitDone t1
  · rfl
  · simp only [Bool.not_true, Bool.false_eq_true, if_false, if_true]

theorem exec_reslice_due {w n : Nat} (hw : t.reslice = some (w, n)) (hg : ∀ g ∈ t.body.groups, g.flight = []) :
    exec (.reslice tid) s = .next (((((s.modTeam tid (fun t => { t with reslice := none })).reslice tid w).finishBarrier tid n).modTeam tid
      (fun t => if t.issued then t else (t.takeSnap none).stopAtBoundary)).settleAll tid) := by
  have hall : t.body.groups.all (fun g => g.flight.isEmpty) = true := List.all_eq_true.2 (fun g h => List.isEmpty_iff.2 (hg g h))
  rw [exec_reslice, execReslice]
  simp only [ht, hw, hall, Bool.not_true, Bool.false_eq_true, if_false]

theorem exec_teamEnd_due {t1 : Team} (ho : t.over = true) (hc : t.core?.isSome = true) (hb : t.boundary = none) (hw : t.reslice = none)
    (hf : t.freeToCommit) (hm : s.commitMoves t = true) (h1 : (s.commitTask tid).team? tid = some t1) :
    exec (.teamEnd tid) s = .next (if (s.commitTask tid).commitDone t1
      then (((s.commitTask tid).flushTeam tid).freeTeam tid).countTeamEnd t1.grid else s.commitTask tid) := by
  rw [exec_teamEnd, execTeamEnd]
  simp only [ht, ho, Option.isNone_eq_false_iff.2 hc, hb, hw, Team.servedFirst_eq_false hf, hm, h1, Option.isSome_none, Bool.not_true, Bool.or_self,
    Bool.false_eq_true, if_false]
  cases (s.commitTask tid).commitDone t1 <;> rfl

end

/-! ### Traps of a task (R385, R386) -/

/-- The record of a task's trap is logged (R395). -/
def State.logTrap (s : State) (t : Team) (tr : Trap) (cls outcome : Nat) : State := s.commitRecord (s.trapRecord t tr cls outcome)

/-- The task at its start, to run again in a mode (R384, R386). -/
def State.rollBackAs (s : State) (tid : Nat) (mode : RunMode) : State := (s.rollBack tid).modTeam tid (fun t => { t with mode := mode })

section
variable {s : State} {tid : Nat} {t : Team} {tr : Trap} (ht : s.team? tid = some t) (hr : t.rollback = some tr)
  (hc : t.core?.isSome = true) (hm : t.mismatch = none) (hcom : t.committed = false)
include ht hr hc hm hcom

/-- What a trap of a task comes to, by whether it is a full version and whether the task may run again. -/
theorem exec_taskRollback_due :
    exec (.taskRollback tid) s =
      let full := decide (tr.cls = clsVersion)
      if (full && t.hdr.vfall) || (!full && t.mode != .rerun) then
        .next (((s.drainTeam tid).logTrap t tr (if full then 3 else 2) (if full then 2 else 0)).rollBackAs tid
          (if full then .levelZero else .rerun))
      else .next (((s.drainTeam tid).logTrap t tr (if full then 3 else 2) 3).fatalTask t tr) := by
  rw [exec_taskRollback, execTaskRollback]
  simp only [ht, hr, hm, hcom, Option.isNone_eq_false_iff.2 hc, Option.isSome_none, Bool.or_self, Bool.false_eq_true, if_false]
  rfl

/-- The first trap of a task runs it again. -/
theorem exec_taskRollback_first (hv : tr.cls ≠ clsVersion) (hmode : t.mode ≠ .rerun) :
    exec (.taskRollback tid) s = .next (((s.drainTeam tid).logTrap t tr 2 0).rollBackAs tid .rerun) := by
  rw [exec_taskRollback_due ht hr hc hm hcom]
  simp [hv, hmode]

/-- A second one is fatal. -/
theorem exec_taskRollback_second (hv : tr.cls ≠ clsVersion) (hmode : t.mode = .rerun) :
    exec (.taskRollback tid) s = .next (((s.drainTeam tid).logTrap t tr 2 3).fatalTask t tr) := by
  rw [exec_taskRollback_due ht hr hc hm hcom]
  simp [hv, hmode]

/-- A full version runs the task at level-0 semantics, where the kernel allows it. -/
theorem exec_taskRollback_levelZero (hv : tr.cls = clsVersion) (hf : t.hdr.vfall = true) :
    exec (.taskRollback tid) s = .next (((s.drainTeam tid).logTrap t tr 3 2).rollBackAs tid .levelZero) := by
  rw [exec_taskRollback_due ht hr hc hm hcom]
  simp [hv, hf]

/-- A full version is fatal, where the kernel does not. -/
theorem exec_taskRollback_versionFull (hv : tr.cls = clsVersion) (hf : t.hdr.vfall = false) :
    exec (.taskRollback tid) s = .next (((s.drainTeam tid).logTrap t tr 3 3).fatalTask t tr) := by
  rw [exec_taskRollback_due ht hr hc hm hcom]
  simp [hv, hf]

end

/-! ### Mismatches (R391, R392) -/

/-- The pair of a mismatch halted: the team and its mates drained. -/
def State.haltPair (s : State) (j tid : Nat) : State := (s.mates j tid).foldl (fun s x => s.drainTeam x.id) (s.drainTeam tid)

/-- The task of a mismatch at its start again, with its count. -/
def State.rollBackCounted (s : State) (tid n : Nat) : State := (s.rollBack tid).modTeam tid (fun t => { t with mcount := n })

/-- A mismatch of a team is due: it stands at level 2 on a pair, has not committed, and has no other mismatch. -/
structure Team.mismatches (t : Team) (m : Mismatch) (j : Nat) : Prop where
  slot : t.pairSlot = some j
  level : t.hdr.level = 2
  placed : t.core?.isSome = true
  uncommitted : t.committed = false
  only : t.mismatch = none ∨ t.mismatch = some m

/-- What a mismatch that is due comes to, by how the task runs and its count. -/
theorem exec_telltaleMismatch_due {s : State} {tid j : Nat} {t : Team} {m : Mismatch} (ht : s.team? tid = some t) (hm : t.mismatches m j) :
    exec (.telltaleMismatch tid m) s =
      if t.mode = .levelZero then .next ((s.haltPair j tid).fatalMismatch t m (t.mcount + 1))
      else if t.mcount + 1 = 1 then .next (((s.haltPair j tid).rollBackCounted tid 1).mismatchRecord t m 1 0)
      else if t.mcount + 1 = 2 && ((s.haltPair j tid).spareCore t).isSome then
        (if ((s.haltPair j tid).mates j tid).any Team.keepsSlot then .refused .notDue else .next (((s.haltPair j tid).moveOrEnd t m).leaveSlot j tid))
      else .next (((s.haltPair j tid).rollBackCounted tid (t.mcount + 1)).fatalMismatch t m (t.mcount + 1)) := by
  obtain ⟨hslot, hlevel, hplaced, hcom, honly⟩ := hm
  have hother : (t.mismatch.isNone || t.mismatch == some m) = true := by rcases honly with h | h <;> simp [h]
  rw [exec_telltaleMismatch, execTelltaleMismatch]
  simp only [ht, hslot, hlevel, Option.isNone_eq_false_iff.2 hplaced, hcom, hother, ne_eq, not_true_eq_false, decide_false, Bool.not_true,
    Bool.or_self, Bool.false_eq_true, if_false]
  rfl

/-- A rolled-back task of count 2 moves, where a spare core takes it. -/
theorem State.moveOrEnd_of_spare {s : State} {t t2 : Team} {m : Mismatch} {c w : Nat} (h2 : (s.rollBackCounted t.id 2).team? t.id = some t2)
    (hc : (s.rollBackCounted t.id 2).spareCore t2 = some (c, w)) :
    s.moveOrEnd t m = ((s.rollBackCounted t.id 2).mismatchRecord t m 2 1).moveToSpare t.id c w := by
  unfold State.rollBackCounted at h2 hc
  unfold State.moveOrEnd
  simp only [h2, Option.getD_some, hc]
  rfl

section
variable {s : State} {tid j : Nat} {t : Team} {m : Mismatch} (ht : s.team? tid = some t) (hm : t.mismatches m j)
include ht hm

theorem exec_telltaleMismatch_levelZero (hz : t.mode = .levelZero) :
    exec (.telltaleMismatch tid m) s = .next ((s.haltPair j tid).fatalMismatch t m (t.mcount + 1)) := by
  rw [exec_telltaleMismatch_due ht hm, if_pos hz]

theorem exec_telltaleMismatch_first (hz : t.mode ≠ .levelZero) (h0 : t.mcount = 0) :
    exec (.telltaleMismatch tid m) s =
      .next (((s.haltPair j tid).rollBackCounted tid (t.mcount + 1)).mismatchRecord t m (t.mcount + 1) 0) := by
  rw [exec_telltaleMismatch_due ht hm, if_neg hz, h0, if_pos rfl]

theorem exec_telltaleMismatch_moves {t2 : Team} {c w : Nat} (hz : t.mode ≠ .levelZero) (h1 : t.mcount = 1)
    (hs : ((s.haltPair j tid).spareCore t).isSome = true) (hk : ∀ x ∈ (s.haltPair j tid).mates j tid, x.keepsSlot = false)
    (h2 : ((s.haltPair j tid).rollBackCounted tid (t.mcount + 1)).team? tid = some t2)
    (hc : ((s.haltPair j tid).rollBackCounted tid (t.mcount + 1)).spareCore t2 = some (c, w)) :
    exec (.telltaleMismatch tid m) s = .next (((((s.haltPair j tid).rollBackCounted tid (t.mcount + 1)).mismatchRecord t m (t.mcount + 1)
      1).moveToSpare tid c w).leaveSlot j tid) := by
  have hfree : ((s.haltPair j tid).mates j tid).any Team.keepsSlot = false := List.any_eq_false.2 (fun x hx => by simp [hk x hx])
  obtain rfl := State.team?_id ht
  rw [exec_telltaleMismatch_due ht hm, if_neg hz]
  rw [h1] at h2 hc ⊢
  rw [if_neg (by decide), if_pos (by simp [hs]), hfree, if_neg Bool.false_ne_true, State.moveOrEnd_of_spare h2 hc]

theorem exec_telltaleMismatch_fatal (hz : t.mode ≠ .levelZero) (hn : 1 < t.mcount ∨ (t.mcount = 1 ∧ (s.haltPair j tid).spareCore t = none)) :
    exec (.telltaleMismatch tid m) s = .next (((s.haltPair j tid).rollBackCounted tid (t.mcount + 1)).fatalMismatch t m (t.mcount + 1)) := by
  have hspare : ¬(decide (t.mcount + 1 = 2) && ((s.haltPair j tid).spareCore t).isSome) = true := by
    rcases hn with h | ⟨-, h⟩
    · simp; omega
    · simp [h]
  rw [exec_telltaleMismatch_due ht hm, if_neg hz, if_neg (by omega), if_neg hspare]

end

/-- Settles O42: each event where it is due; a trap of a task by its class and the run it is in, a mismatch by the task's count. -/
theorem taskEvents : Obligations.TaskEvents := by
  intro s tid t t1 b w n tr m j t2 ht s1 begun free d logged again full h t' noted back mis
  have due : mis → t.mismatches m j := fun ⟨hslot, hlevel, hplaced, hcom, honly⟩ => ⟨hslot, hlevel, hplaced, hcom, honly⟩
  refine ⟨exec_taskBoundary_due ht, exec_reslice_due ht, exec_teamEnd_due ht, fun hr hc hm hcom => ⟨?first, ?second, ?levelZero, ?versionFull⟩,
    fun hm => exec_telltaleMismatch_levelZero ht (due hm), fun hm => exec_telltaleMismatch_first ht (due hm),
    fun hm hz h1 hs hk h2 _ _ => exec_telltaleMismatch_moves ht (due hm) hz h1 hs hk h2, fun hm => exec_telltaleMismatch_fatal ht (due hm)⟩
  case first => exact exec_taskRollback_first ht hr hc hm hcom
  case second => exact exec_taskRollback_second ht hr hc hm hcom
  case levelZero => exact exec_taskRollback_levelZero ht hr hc hm hcom
  case versionFull => exact exec_taskRollback_versionFull ht hr hc hm hcom

end Sys2Proof.Machine
end

section
namespace Sys2Proof.Machine

/-! ### Lane results of the type, SAT and the operands (R124-R126) -/

/-- An instruction whose lane result is a function of the type, SAT and the operands a, b and c answers it on what stood before it was
counted. -/
theorem exec_elementwise {i : Instr} {s : State} {q : Iss} (h : Issues i s q) (op : Nat → Bool → Word → Word → Word → Word)
    (he : exec i s = issueOk i (fun q => q.result (fun l => op q.etype q.sat (q.a l) (q.b l) (q.cVal l))) s) :
    exec i s = .next (q.counted.result (fun l => op q.etype q.sat (q.a l) (q.b l) (q.cVal l))) :=
  exec_result h he (by rw [Iss.counted_etype h.reads, Iss.counted_sat h.reads, Iss.counted_a h.reads, Iss.counted_b h.reads,
    Iss.counted_cVal h.reads])

theorem absInt_eq_natAbs (x : Int) : absInt x = Int.ofNat x.natAbs := by
  unfold absInt
  rw [Int.ofNat_eq_natCast]
  split <;> omega

/-- Settles O1: each is a lane result of the type, SAT and the operands, ISEL of L0 beside them. -/
theorem integerElements : Obligations.IntegerElements := by
  intro s q x d a b n u v w
  simp only [List.forall_mem_cons, List.not_mem_nil, false_imp_iff, implies_true, and_true]
  refine ⟨⟨fun h => ?iadd, fun h => ?isub, fun h => ?imul, fun h => ?imad, fun h => ?imin, fun h => ?imax⟩, fun h => ?imulh, fun h => ?ineg,
    fun h => ?iabs, fun h => ?isel⟩
  case iadd => exact exec_elementwise h (fun e sat a b _ => opIadd e sat a b) (by unfold exec; rfl)
  case isub => exact exec_elementwise h (fun e sat a b _ => opIsub e sat a b) (by unfold exec; rfl)
  case imul => exact exec_elementwise h (fun e sat a b _ => opImul e sat a b) (by unfold exec; rfl)
  case imad => exact exec_elementwise h opImad (by unfold exec; rfl)
  case imin => exact exec_elementwise h (fun e sat a b _ => opImin e sat a b) (by unfold exec; rfl)
  case imax => exact exec_elementwise h (fun e sat a b _ => opImax e sat a b) (by unfold exec; rfl)
  case imulh => exact exec_elementwise h (fun e _ a b _ => opImulh e a b) (by unfold exec; rfl)
  case ineg => exact exec_elementwise h (fun e sat a _ _ => opIneg e sat a) (by unfold exec; rfl)
  case iabs =>
    rw [exec_elementwise h (fun e sat a _ _ => opIabs e sat a) (by unfold exec; rfl)]
    simp only [opIabs, absInt_eq_natAbs]
    rfl
  case isel =>
    refine exec_result h (by unfold exec; rfl) ?_
    rw [Iss.counted_etype h.reads, Iss.counted_a h.reads, Iss.counted_b h.reads, Iss.counted_rd h.reads]
    simp only [opIsel, ne_eq, ite_not]
    rfl

/-- Settles O2: each in its legal and its ILLEGAL width. -/
theorem wideAndFoldedIntegers : Obligations.WideAndFoldedIntegers := by
  intro s q x d a b
  refine ⟨fun h h32 => ?imadw, fun h h32 => ?imadwIllegal, fun h => ?sad, fun h h32 => ?dot4, fun h h32 => ?dot4Illegal⟩
  case imadw =>
    refine (show exec (.imadw x d a b) s = issue _ _ s by unfold exec; rfl).trans (issue_of_ok h ?_)
    rw [Iss.counted_etype h.reads, if_neg (fun hne => hne h32), Iss.counted_sat h.reads, Iss.counted_a h.reads, Iss.counted_b h.reads,
      Iss.counted_c64 h.reads]
    rfl
  case imadwIllegal =>
    refine (show exec (.imadw x d a b) s = issue _ _ s by unfold exec; rfl).trans (issue_of_trap h ?_)
    rw [Iss.counted_etype h.reads, if_pos h32, Iss.counted_trap h.reads]
  case sad =>
    rw [exec_elementwise h opSad (by unfold exec; rfl)]
    simp only [opSad, absInt_eq_natAbs]
  case dot4 =>
    refine (show exec (.dot4 x d a b) s = issue _ _ s by unfold exec; rfl).trans (issue_of_ok h ?_)
    rw [Iss.counted_etype h.reads, if_neg h32, Iss.counted_sat h.reads, Iss.counted_a h.reads, Iss.counted_b h.reads, Iss.counted_cVal h.reads]
    rfl
  case dot4Illegal =>
    refine (show exec (.dot4 x d a b) s = issue _ _ s by unfold exec; rfl).trans (issue_of_trap h ?_)
    rw [Iss.counted_etype h.reads, if_pos h32, Iss.counted_trap h.reads]

/-- Settles O3: each is a lane result of the type and the operands. -/
theorem compareAndShiftElements : Obligations.CompareAndShiftElements := by
  intro s q x c d a b n u v
  simp only [List.forall_mem_cons, List.not_mem_nil, false_imp_iff, implies_true, and_true]
  refine ⟨fun h => ?icmp, fun h => ?shl, fun h => ?shr, fun h => ?sar, fun h => ?rol⟩
  case icmp => exact exec_elementwise h (fun e _ a b _ => opIcmp e c.toNat a b) (by unfold exec; rfl)
  case shl => exact exec_elementwise h (fun e _ a b _ => opShl e a b) (by unfold exec; rfl)
  case shr => exact exec_elementwise h (fun e _ a b _ => opShr e a b) (by unfold exec; rfl)
  case sar => exact exec_elementwise h (fun e _ a b _ => opSar e a b) (by unfold exec; rfl)
  case rol => exact exec_elementwise h (fun e _ a b _ => opRol e a b) (by unfold exec; rfl)

end Sys2Proof.Machine
end

section
namespace Sys2Proof.Machine

/-! ### The lowest lane of EXEC (R139) -/

theorem maskList_head?_of_ne_zero {m : Mask} (h : m ≠ 0) : ∃ i, (maskList m).head? = some i := by
  cases hl : maskList m with
  | cons i l => exact ⟨i, rfl⟩
  | nil =>
    refine absurd (BitVec.eq_of_getLsbD_eq fun i hi => (?_ : m.getLsbD i = (0#96).getLsbD i)) h
    rw [BitVec.getLsbD_zero]
    exact Bool.eq_false_iff.2 fun hb => List.not_mem_nil (hl ▸ mem_maskList.2 ⟨hi, hb⟩)

theorem maskList_head?_le {m : Mask} {i k : Nat} (h : (maskList m).head? = some i) (hk : k ∈ maskList m) : i ≤ k := by
  have hs : (maskList m).Pairwise (· < ·) := List.Pairwise.filter _ List.pairwise_lt_range
  obtain ⟨l, hl⟩ := List.head?_eq_some_iff.1 h
  rw [hl] at hs hk
  rcases List.mem_cons.1 hk with rfl | hk
  · exact Nat.le_refl _
  · exact Nat.le_of_lt ((List.pairwise_cons.1 hs).1 k hk)

/-- A legal form has legal values. -/
theorem Form.valOk_of_ok {fm : Form} {budget : Nat} (h : fm.ok budget = true) : fm.valOk = true := by
  simp only [Form.ok, Bool.and_eq_true] at h
  obtain ⟨⟨⟨⟨⟨hv, -⟩, -⟩, -⟩, -⟩, -⟩ := h
  exact hv

/-- Settles O5: the moves as lane results, V2S by whether EXEC is empty, the shifts of MOVI by the legality of its form. -/
theorem moves : Obligations.Moves := by
  intro s q x l p d a sh imm
  refine ⟨fun h => ?mov, fun h => ?s2v, fun h hne => ?v2s, fun h h0 => ?v2sEmpty, fun h => ⟨?moviShift, ?movi⟩, fun h => ?ldi⟩
  case mov => exact exec_elementwise h (fun _ _ a _ _ => a) (by unfold exec; rfl)
  case s2v => exact exec_elementwise h (fun _ _ a _ _ => a) (by unfold exec; rfl)
  case v2s =>
    obtain ⟨m, hm⟩ := maskList_head?_of_ne_zero hne
    refine ⟨m, List.mem_of_head? hm, fun k hk => maskList_head?_le hm hk, ?_⟩
    refine (show exec (.v2s l d a) s = issueOk _ _ s by unfold exec; rfl).trans ((issueOk_eq h _).trans ?_)
    rw [Iss.counted_lanes h.reads, Iss.counted_a h.reads, Iss.lanes, hm]
  case v2sEmpty =>
    refine (show exec (.v2s l d a) s = issueOk _ _ s by unfold exec; rfl).trans ((issueOk_eq h _).trans ?_)
    rw [Iss.counted_lanes h.reads, Iss.lanes, h0]
    rfl
  case moviShift =>
    have hv := Form.valOk_of_ok h.legal
    rw [← Option.some.inj h.form] at hv
    exact of_decide_eq_true hv
  case movi => exact exec_elementwise h (fun _ _ _ _ _ => (imm.signExtend 32) <<< sh.toNat) (by unfold exec; rfl)
  case ldi =>
    refine exec_result h (by unfold exec; rfl) ?_
    rw [Iss.counted_etype h.reads, Iss.counted_rnd h.reads, Iss.counted_ftz h.reads, Iss.counted_mr h.reads]
    funext _
    split <;> simp [*]

/-! ### Division (R63, R143) -/

theorem opIdiv_eq (e : Nat) (sat : Bool) (a b : Word) :
    opIdiv e sat a b = mapElems (etWidth e) (fun k =>
      if elemVal e b k = 0 then 2 ^ etWidth e - 1
      else if etSigned e = true ∧ elemVal e a k = -Int.ofNat (2 ^ (etWidth e - 1)) ∧ elemVal e b k = -1 then
        (if sat then 2 ^ (etWidth e - 1) - 1 else 2 ^ (etWidth e - 1))
      else intMod (etWidth e) (Int.tdiv (elemVal e a k) (elemVal e b k))) := by
  simp only [opIdiv, rangeMin, if_true, Bool.and_eq_true, decide_eq_true_eq, and_assoc]

section
variable {i : Instr} {s : State} {q : Iss} {major : Nat} {eff : Iss → Eff} (he : exec i s = issueFate i major eff s)
include he

/-- Where the part enables the major, its instruction has its effect (R63). -/
theorem exec_fate_enabled (h : Issues i s q) (hk : s.skuOn major = true) {t : State} (heff : eff q.counted = .ok t) : exec i s = .next t := by
  rw [he, issueFate, if_pos hk, issue_of_ok h heff]

/-- Where the part disables the major, a ready handler below depth 2 is entered (R63, R351). -/
theorem exec_fate_entered (h : IssuesTo i [] s q) (hk : s.skuOn major = false) (hd : q.f.jr.length < 2) (hr : handlerReady q.t q.g = true) :
    exec i s = .next q.entered := by
  rw [he, issueFate, if_neg (by rw [hk]; decide), issueWith_fate_eq h _ rfl, Iss.juryrig_entered h.reads hd hr]

end

theorem exec_idiv (x : Ext) (d a b : Code) (s : State) : exec (.idiv x d a b) s = execIdiv x d a b s := rfl
theorem exec_irem (x : Ext) (d a b : Code) (s : State) : exec (.irem x d a b) s = execIrem x d a b s := rfl

/-- Settles O6: each by whether the part enables its major. -/
theorem divisionFate : Obligations.DivisionFate := by
  intro s q x d a b n u v
  simp only [List.forall_mem_cons, List.not_mem_nil, false_imp_iff, implies_true, and_true]
  have hdiv := exec_idiv x d a b s
  have hrem := exec_irem x d a b s
  refine ⟨fun h hk => exec_fate_enabled hdiv h hk ?idiv, fun h hk => exec_fate_enabled hrem h hk ?irem, exec_fate_entered hdiv,
    exec_fate_entered hrem⟩
  case idiv =>
    rw [Iss.counted_etype h.reads, Iss.counted_sat h.reads, Iss.counted_a h.reads, Iss.counted_b h.reads]
    simp only [opIdiv_eq]
    rfl
  case irem =>
    rw [Iss.counted_etype h.reads, Iss.counted_a h.reads, Iss.counted_b h.reads]
    rfl

/-! ### S-forms (R144-R146) -/

/-- An S-form answers its result of the old d, a and b in its destination. -/
theorem exec_scalar {i : Instr} {s : State} {q : Iss} (h : Issues i s q) (op : Word → Word → Word → Word)
    (he : exec i s = issueOk i (fun q => q.scalar (op (q.uni .d) (q.uni .a) (q.uni .b))) s) :
    exec i s = .next (q.counted.scalar (op (q.uni .d) (q.uni .a) (q.uni .b))) := by
  rw [he, issueOk_eq h, Iss.counted_uni h.reads]

/-- Settles O7: every S-form writes its result by its destination operand. -/
theorem scalarForms : Obligations.ScalarForms := by
  intro s q l c d a b put
  have hput : ∀ {i : Instr} (_ : Issues i s q) (x : Word), q.counted.scalar x = put x := by
    intro i h x
    change _ = match q.opD with
      | .s n => q.counted.modGroup (fun g => g.setS n x)
      | _ => q.counted.s
    exact Iss.counted_opD h.reads ▸ rfl
  have holds : ∀ {i : Instr} (h : Issues i s q) (op : Word → Word → Word → Word),
      exec i s = issueOk i (fun q => q.scalar (op (q.uni .d) (q.uni .a) (q.uni .b))) s →
      exec i s = .next (put (op (q.uni .d) (q.uni .a) (q.uni .b))) :=
    fun h op he => (exec_scalar h op he).trans (congrArg _ (hput h _))
  simp only [List.forall_mem_cons, List.not_mem_nil, false_imp_iff, implies_true, and_true]
  refine ⟨⟨fun h => ?sadd, fun h => ?ssub, fun h => ?smul, fun h => ?sshl, fun h => ?sshr, fun h => ?sand, fun h => ?sor, fun h => ?sxor⟩,
    fun h => ?ssel, fun h => ?smov, fun h => ?scmp⟩
  case sadd => exact holds h (fun _ x y => x + y) (by unfold exec; rfl)
  case ssub => exact holds h (fun _ x y => x - y) (by unfold exec; rfl)
  case smul => exact holds h (fun _ x y => x * y) (by unfold exec; rfl)
  case sshl => exact holds h (fun _ x y => opSshl x y) (by unfold exec; rfl)
  case sshr => exact holds h (fun _ x y => opSshr x y) (by unfold exec; rfl)
  case sand => exact holds h (fun _ x y => x &&& y) (by unfold exec; rfl)
  case sor => exact holds h (fun _ x y => x ||| y) (by unfold exec; rfl)
  case sxor => exact holds h (fun _ x y => x ^^^ y) (by unfold exec; rfl)
  case ssel =>
    rw [holds h (fun o x y => if o = 0 then y else x) (by unfold exec; rfl)]
    simp only [ne_eq, ite_not]
  case smov => exact holds h (fun _ x _ => x) (by unfold exec; rfl)
  case scmp => exact holds h (fun _ x y => wordOfBool (intCond 32 c.toNat x.toNat y.toNat)) (by unfold exec; rfl)

/-! ### Patterns, funnels and addresses (R132, R134, R138) -/

theorem ofNat_intMod (w : Nat) (x : Int) : BitVec.ofNat w (intMod w x) = BitVec.ofInt w x := by
  apply BitVec.eq_of_toNat_eq
  have hlt : intMod w x < 2 ^ w := by
    have := Int.emod_lt_of_pos x (Int.natCast_pos.2 (Nat.two_pow_pos w))
    unfold intMod
    rw [Int.ofNat_eq_natCast]
    omega
  rw [BitVec.toNat_ofNat, Nat.mod_eq_of_lt hlt, BitVec.toNat_ofInt]
  rfl

theorem ofNat_intMod_add (a : DWord) (x : Int) : BitVec.ofNat 64 (intMod 64 (Int.ofNat a.toNat + x)) = a + BitVec.ofInt 64 x := by
  rw [ofNat_intMod, BitVec.ofInt_add, Int.ofNat_eq_natCast, BitVec.ofInt_natCast, BitVec.ofNat_toNat, BitVec.setWidth_eq]

theorem opAadd_eq (a : DWord) (b : Word) : opAadd a b = a + b.signExtend 64 := ofNat_intMod_add a b.toInt

theorem opLea_eq (e : Nat) (a : DWord) (b : Word) :
    opLea e a b = a + BitVec.ofInt 64 ((if etSigned e then b.toInt else Int.ofNat b.toNat)
      * (if etWidth e = 32 then 4 else if etWidth e = 16 then 2 else 1)) := by
  rw [opLea, ofNat_intMod_add]
  congr 3
  split
  · rfl
  · split <;> rfl

/-- Settles O8: each is a lane result of the operands, LEA of the type beside them. -/
theorem patternsFunnelsAddresses : Obligations.PatternsFunnelsAddresses := by
  intro s q x d a b
  simp only [List.forall_mem_cons, List.not_mem_nil, false_imp_iff, implies_true, and_true]
  refine ⟨⟨fun h => ?and, fun h => ?or, fun h => ?xor, fun h => ?andn⟩, fun h => ?not, fun h => ?shf, fun h => ?lea, fun h => ?aadd⟩
  case and => exact exec_elementwise h (fun _ _ a b _ => a &&& b) (by unfold exec; rfl)
  case or => exact exec_elementwise h (fun _ _ a b _ => a ||| b) (by unfold exec; rfl)
  case xor => exact exec_elementwise h (fun _ _ a b _ => a ^^^ b) (by unfold exec; rfl)
  case andn => exact exec_elementwise h (fun _ _ a b _ => a &&& ~~~b) (by unfold exec; rfl)
  case not => exact exec_elementwise h (fun _ _ a _ _ => ~~~a) (by unfold exec; rfl)
  case shf => exact exec_elementwise h (fun _ _ a b c => opShf a b c) (by unfold exec; rfl)
  case lea =>
    refine exec_result64 h (by unfold exec; rfl) ?_
    simp only [Iss.counted_etype h.reads, Iss.counted_a64 h.reads, Iss.counted_b h.reads, opLea_eq]
  case aadd =>
    refine exec_result64 h (by unfold exec; rfl) ?_
    simp only [Iss.counted_a64 h.reads, Iss.counted_b h.reads, opAadd_eq]

end Sys2Proof.Machine
end

section
namespace Sys2Proof.Machine

/-! ### Elements of a word (R124) -/

theorem etWidth_cases (e : Nat) : etWidth e = 32 ∨ etWidth e = 16 ∨ etWidth e = 8 := by
  unfold etWidth
  split
  · exact .inl rfl
  · split
    · exact .inr (.inl rfl)
    · exact .inr (.inr rfl)

/-- The elements fill the word. -/
theorem etWidth_mul_count (e : Nat) : etWidth e * (32 / etWidth e) = 32 := by
  rcases etWidth_cases e with h | h | h <;> rw [h]

theorem elemNat_lt (n : Nat) (x : Word) (k : Nat) : elemNat n x k < 2 ^ n := Nat.mod_lt _ (Nat.two_pow_pos n)

theorem ofElems_lt (n : Nat) (l : List Nat) : ofElems n l < 2 ^ (n * l.length) := by
  induction l with
  | nil => exact Nat.one_pos
  | cons x l ih =>
    have hx : x % 2 ^ n < 2 ^ n := Nat.mod_lt _ (Nat.two_pow_pos n)
    rw [ofElems, List.length_cons, Nat.mul_succ, Nat.add_comm (n * l.length), Nat.pow_add]
    calc x % 2 ^ n + 2 ^ n * ofElems n l < 2 ^ n * (ofElems n l + 1) := by rw [Nat.mul_succ]; omega
      _ ≤ 2 ^ n * 2 ^ (n * l.length) := Nat.mul_le_mul_left _ ih

theorem ofElems_div_mod (n : Nat) (l : List Nat) {k : Nat} (hk : k < l.length) : ofElems n l / 2 ^ (n * k) % 2 ^ n = l[k] % 2 ^ n := by
  induction l generalizing k with
  | nil => cases hk
  | cons x l ih =>
    have hx : x % 2 ^ n < 2 ^ n := Nat.mod_lt _ (Nat.two_pow_pos n)
    cases k with
    | zero => simp [ofElems]
    | succ k =>
      rw [ofElems, Nat.mul_succ, Nat.add_comm (n * k), Nat.pow_add, ← Nat.div_div_eq_div_mul, Nat.add_mul_div_left _ _ (Nat.two_pow_pos n),
        Nat.div_eq_of_lt hx, Nat.zero_add, ih (by simpa using hk), List.getElem_cons_succ]

/-- Element k of a word built element by element. -/
theorem elemNat_mapElems (e : Nat) (f : Nat → Nat) {k : Nat} (hk : k < 32 / etWidth e) :
    elemNat (etWidth e) (mapElems (etWidth e) f) k = f k % 2 ^ etWidth e := by
  have hlt := ofElems_lt (etWidth e) ((List.range (32 / etWidth e)).map f)
  rw [List.length_map, List.length_range, etWidth_mul_count] at hlt
  rw [elemNat, mapElems, BitVec.toNat_ofNat, Nat.mod_eq_of_lt hlt, Nat.shiftRight_eq_div_pow, ofElems_div_mod _ _ (by simpa using hk)]
  simp

/-- A result that fits the element stands in it. -/
theorem elemNat_mapElems_of_lt (e : Nat) (f : Nat → Nat) {k : Nat} (hk : k < 32 / etWidth e) (hf : f k < 2 ^ etWidth e) :
    elemNat (etWidth e) (mapElems (etWidth e) f) k = f k := by
  rw [elemNat_mapElems e f hk, Nat.mod_eq_of_lt hf]

/-! ### Counting and reversing bits (R135) -/

theorem popNat_eq (w x : Nat) : popNat w x = ((List.range w).filter (fun j => x.testBit j)).length := by
  induction w generalizing x with
  | zero => rfl
  | succ w ih =>
    have htail : (List.range w).filter ((fun j => x.testBit j) ∘ Nat.succ) = (List.range w).filter (fun j => (x / 2).testBit j) :=
      List.filter_congr fun j _ => Nat.testBit_add_one x j
    rw [popNat, ih, List.range_succ_eq_map, List.filter_cons, List.filter_map, htail, Nat.testBit_zero]
    split
    · rename_i h
      rw [of_decide_eq_true h, List.length_cons, List.length_map, Nat.add_comm]
    · rename_i h
      rw [decide_eq_true_iff, Nat.mod_two_not_eq_one] at h
      rw [h, List.length_map, Nat.zero_add]

/-- The leading zeros of a pattern of n bits. -/
def clzNat (n u : Nat) : Nat := if u = 0 then n else n - 1 - log2Nat u

theorem clzNat_spec {n u : Nat} (hu : u < 2 ^ n) :
    clzNat n u ≤ n ∧ (∀ j < n, n - clzNat n u ≤ j → u.testBit j = false) ∧ (clzNat n u < n → u.testBit (n - 1 - clzNat n u) = true) := by
  by_cases h0 : u = 0
  · simp [clzNat, h0]
  · have hlog : u.log2 < n := (Nat.log2_lt h0).2 hu
    rw [clzNat, if_neg h0, log2Nat]
    refine ⟨by omega, fun j _ hj => ?_, fun _ => ?_⟩
    · exact Nat.testBit_lt_two_pow (Nat.lt_of_lt_of_le Nat.lt_log2_self (Nat.pow_le_pow_right (by decide) (by omega)))
    · rw [show n - 1 - (n - 1 - u.log2) = u.log2 by omega]
      exact Nat.testBit_log2 h0

/-- The trailing zeros of a pattern of w bits. -/
theorem ctzNat_spec (w x : Nat) :
    ctzNat w x ≤ w ∧ (∀ j < ctzNat w x, x.testBit j = false) ∧ (ctzNat w x < w → x.testBit (ctzNat w x) = true) := by
  induction w generalizing x with
  | zero => simp [ctzNat]
  | succ w ih =>
    rw [ctzNat]
    split
    · rename_i h
      simp [h]
    · rename_i h
      obtain ⟨hle, hzero, hone⟩ := ih (x / 2)
      refine ⟨by omega, fun j hj => ?_, fun hlt => ?_⟩
      · cases j with
        | zero => simpa using h
        | succ j => rw [Nat.testBit_add_one]; exact hzero j (by omega)
      · rw [Nat.add_comm, Nat.testBit_add_one]
        exact hone (by omega)

theorem revNat_lt (w x : Nat) : revNat w x < 2 ^ w := by
  induction w generalizing x with
  | zero => exact Nat.one_pos
  | succ w ih =>
    have := ih (x / 2)
    rw [revNat, Nat.pow_succ]
    rcases Nat.mod_two_eq_zero_or_one x with h | h <;> rw [h] <;> omega

theorem testBit_revNat {w j : Nat} (hj : j < w) (x : Nat) : (revNat w x).testBit j = x.testBit (w - 1 - j) := by
  induction w generalizing x j with
  | zero => cases hj
  | succ w ih =>
    rw [revNat, Nat.mul_comm, Nat.testBit_two_pow_mul_add _ (revNat_lt w (x / 2))]
    by_cases h : j < w
    · rw [if_pos h, ih h, show w + 1 - 1 - j = (w - 1 - j) + 1 by omega, Nat.testBit_add_one]
    · rw [if_neg h, show j - w = 0 by omega, show w + 1 - 1 - j = 0 by omega, Nat.testBit_zero, Nat.testBit_zero, Nat.mod_mod]

section
variable {e : Nat} (a : Word) {k : Nat} (hk : k < 32 / etWidth e)
include hk

theorem elemNat_opPopc :
    elemNat (etWidth e) (opPopc e a) k = ((List.range (etWidth e)).filter (fun j => (elemNat (etWidth e) a k).testBit j)).length := by
  have hle : popNat (etWidth e) (elemNat (etWidth e) a k) ≤ etWidth e := by
    rw [popNat_eq]
    exact Nat.le_trans (List.length_filter_le _ _) (Nat.le_of_eq List.length_range)
  rw [opPopc, elemNat_mapElems_of_lt e _ hk (Nat.lt_of_le_of_lt hle Nat.lt_two_pow_self), popNat_eq]

theorem elemNat_opClz : elemNat (etWidth e) (opClz e a) k = clzNat (etWidth e) (elemNat (etWidth e) a k) :=
  elemNat_mapElems_of_lt e _ hk (Nat.lt_of_le_of_lt (clzNat_spec (elemNat_lt (etWidth e) a k)).1 Nat.lt_two_pow_self)

theorem elemNat_opCtz : elemNat (etWidth e) (opCtz e a) k = ctzNat (etWidth e) (elemNat (etWidth e) a k) :=
  elemNat_mapElems_of_lt e _ hk (Nat.lt_of_le_of_lt (ctzNat_spec (etWidth e) (elemNat (etWidth e) a k)).1 Nat.lt_two_pow_self)

theorem elemNat_opBrev : elemNat (etWidth e) (opBrev e a) k = revNat (etWidth e) (elemNat (etWidth e) a k) :=
  elemNat_mapElems_of_lt e _ hk (revNat_lt _ _)

end

/-! ### Bit fields (R136) -/

/-- The number whose bits below n are those of p. -/
def bitSum (p : Nat → Bool) (n : Nat) : Nat := (List.range n).foldl (fun f j => f + (if p j then 2 ^ j else 0)) 0

theorem bitSum_succ (p : Nat → Bool) (n : Nat) : bitSum p (n + 1) = 2 ^ n * (p n).toNat + bitSum p n := by
  rw [bitSum, List.range_succ, List.foldl_append, ← bitSum, List.foldl_cons, List.foldl_nil]
  cases p n <;> simp [Nat.add_comm]

theorem bitSum_lt (p : Nat → Bool) (n : Nat) : bitSum p n < 2 ^ n := by
  induction n with
  | zero => exact Nat.one_pos
  | succ n ih =>
    rw [bitSum_succ, Nat.pow_succ]
    cases p n <;> simp <;> omega

theorem testBit_bitSum (p : Nat → Bool) (n j : Nat) : (bitSum p n).testBit j = (decide (j < n) && p j) := by
  induction n with
  | zero => simp [bitSum]
  | succ n ih =>
    rw [bitSum_succ, Nat.testBit_two_pow_mul_add _ (bitSum_lt p n)]
    rcases Nat.lt_trichotomy j n with h | rfl | h
    · simp [h, ih, Nat.lt_succ_of_lt h]
    · cases p j <;> simp
    · have hone : (p n).toNat < 2 ^ (j - n) :=
        Nat.lt_of_lt_of_le (Bool.toNat_lt _) (Nat.pow_le_pow_right Nat.two_pos (show 1 ≤ j - n by omega))
      rw [if_neg (by omega), Nat.testBit_lt_two_pow hone]
      simp [show ¬ j < n + 1 by omega]

theorem sextNat_eq_toInt {n : Nat} (hn : 0 < n) (x : Nat) : sextNat n x = (BitVec.ofNat n x).toInt := by
  obtain ⟨m, rfl⟩ := Nat.exists_eq_succ_of_ne_zero (Nat.pos_iff_ne_zero.1 hn)
  rw [sextNat, if_neg (Nat.succ_ne_zero m), BitVec.toInt_eq_toNat_cond, BitVec.toNat_ofNat]
  have hhalf : x % 2 ^ m.succ < 2 ^ (m.succ - 1) ↔ 2 * (x % 2 ^ m.succ) < 2 ^ m.succ := by
    rw [Nat.succ_sub_one, Nat.pow_succ]
    omega
  exact ite_congr (propext hhalf) (fun _ => rfl) (fun _ => rfl)

/-- A sign-extended field of a word, bit by bit. -/
theorem getLsbD_wordOfInt_sextNat {n x j : Nat} (hn : 0 < n) (hj : j < 32) :
    (wordOfInt (sextNat n x)).getLsbD j = if j < n then x.testBit j else x.testBit (n - 1) := by
  rw [wordOfInt, ofNat_intMod, sextNat_eq_toInt hn, ← BitVec.signExtend, BitVec.getLsbD_signExtend, BitVec.msb_eq_getLsbD_last]
  rw [BitVec.getLsbD_ofNat, BitVec.getLsbD_ofNat, decide_eq_true hj, decide_eq_true (Nat.sub_one_lt_of_lt hn), Bool.true_and, Bool.true_and]
  split
  · rename_i h
    rw [decide_eq_true h, Bool.true_and]
  · rfl

theorem bitsOf_low (b : Word) : bitsOf b 7 0 = b.toNat % 256 :=
  (natBits_eq b.toNat 7 0).trans (congrArg (· % 256) (Nat.div_one _))
theorem bitsOf_next (b : Word) : bitsOf b 15 8 = b.toNat / 256 % 256 := natBits_eq b.toNat 15 8

/-- The bit that BFE reads at a position: those above 31 are the sign, or 0 (R136). -/
def bfeBit (signed : Bool) (a : Word) (i : Nat) : Bool := if i ≤ 31 then a.getLsbD i else signed && a.getLsbD 31

theorem opBfe_eq (signed : Bool) (a b : Word) :
    opBfe signed a b =
      if min (b.toNat / 256 % 256) 32 = 0 then 0
      else if signed then
        wordOfInt (sextNat (min (b.toNat / 256 % 256) 32) (bitSum (fun j => bfeBit signed a (b.toNat % 256 + j)) (min (b.toNat / 256 % 256) 32)))
      else BitVec.ofNat 32 (bitSum (fun j => bfeBit signed a (b.toNat % 256 + j)) (min (b.toNat / 256 % 256) 32)) := by
  rw [← bitsOf_low, ← bitsOf_next]
  rfl

theorem opBfe_zero {signed : Bool} {a b : Word} (h : min (b.toNat / 256 % 256) 32 = 0) : opBfe signed a b = 0 := by
  rw [opBfe_eq, if_pos h]

/-- BFE of a field, bit by bit. -/
theorem getLsbD_opBfe {signed : Bool} {a b : Word} {len j : Nat} (hl : min (b.toNat / 256 % 256) 32 = len) (h0 : 0 < len) (hj : j < 32) :
    (opBfe signed a b).getLsbD j =
      if j < len then bfeBit signed a (b.toNat % 256 + j) else signed && bfeBit signed a (b.toNat % 256 + (len - 1)) := by
  rw [opBfe_eq, hl, if_neg (Nat.pos_iff_ne_zero.1 h0)]
  cases signed with
  | true =>
    rw [if_pos rfl, getLsbD_wordOfInt_sextNat h0 hj, testBit_bitSum, testBit_bitSum]
    have : len - 1 < len := by omega
    split <;> simp [*]
  | false =>
    rw [if_neg Bool.false_ne_true, BitVec.getLsbD_ofNat, testBit_bitSum]
    split <;> simp [*]

/-- BFI, bit by bit. -/
theorem getLsbD_opBfi (a b c : Word) {j : Nat} (hj : j < 32) :
    (opBfi a b c).getLsbD j =
      if b.toNat % 256 ≤ j ∧ j < b.toNat % 256 + min (b.toNat / 256 % 256) 32 then a.getLsbD (j - b.toNat % 256) else c.getLsbD j := by
  rw [← bitsOf_low, ← bitsOf_next]
  change (BitVec.ofNat 32 (bitSum (fun i =>
    if bitsOf b 7 0 ≤ i && i < bitsOf b 7 0 + min (bitsOf b 15 8) 32 then a.getLsbD (i - bitsOf b 7 0) else c.getLsbD i) 32)).getLsbD j = _
  rw [BitVec.getLsbD_ofNat, testBit_bitSum]
  simp [hj]

/-! ### Byte selection (R137) -/

theorem natBits_one_iff (x k : Nat) : natBits x k k = 1 ↔ x.testBit k = true := by
  rw [natBits_eq, Nat.add_sub_cancel_left, Nat.testBit_eq_decide_div_mod_eq, decide_eq_true_iff, Nat.pow_one]

theorem byte_sign_iff {v : Nat} (h : v < 256) : 128 ≤ v ↔ v.testBit 7 = true := by
  rw [Nat.testBit_eq_decide_div_mod_eq, decide_eq_true_iff]
  omega

/-- A byte with its fill, inversion and clearing (R137). -/
def byteOf (sel v : Nat) : Nat :=
  let v := if sel.testBit 5 then (if v.testBit 7 then 255 else 0) else v
  let v := if sel.testBit 4 then 255 - v else v
  if sel.testBit 7 then 0 else v

theorem byteOf_lt {sel v : Nat} (h : v < 256) : byteOf sel v < 256 := by
  have filled : (if sel.testBit 5 then (if v.testBit 7 then 255 else 0) else v) < 256 := by
    split
    · split <;> decide
    · exact h
  have inverted : ∀ u < 256, (if sel.testBit 4 then 255 - u else u) < 256 := by
    intro u hu
    split <;> omega
  have cleared : ∀ u < 256, (if sel.testBit 7 then 0 else u) < 256 := by
    intro u hu
    split <;> omega
  exact cleared _ (inverted _ filled)

/-- The byte that a selector picks. -/
def pickedByte (a c : Word) (k : Nat) : Nat := if k < 4 then elemNat 8 a k else elemNat 8 c (k - 4)

theorem pickedByte_lt (a c : Word) (k : Nat) : pickedByte a c k < 256 := by
  unfold pickedByte
  split
  · exact elemNat_lt 8 a k
  · exact elemNat_lt 8 c (k - 4)

theorem opBytesel_eq (a b c : Word) :
    opBytesel a b c = mapElems 8 (fun i => byteOf (elemNat 8 b i) (pickedByte a c (elemNat 8 b i % 8))) := by
  have hpick : ∀ k, (if k < 4 then elemNat 8 a k else elemNat 8 c (k - 4)) = pickedByte a c k := fun _ => rfl
  simp only [opBytesel, natBits_one_iff, hpick, ge_iff_le, byte_sign_iff (pickedByte_lt a c _)]
  rfl

theorem elemNat_opBytesel (a b c : Word) {m : Nat} (hm : m < 4) :
    elemNat 8 (opBytesel a b c) m = byteOf (elemNat 8 b m) (pickedByte a c (elemNat 8 b m % 8)) := by
  rw [opBytesel_eq]
  exact elemNat_mapElems_of_lt 8 _ hm (byteOf_lt (pickedByte_lt a c _))

/-- Settles O4: each is a lane result of the type and the operands, and its bits are those of its operation. -/
theorem bitFieldsAndBytes : Obligations.BitFieldsAndBytes := by
  intro s q x d a b n writes each pos len bit byte
  refine ⟨fun h => ⟨fun l => opPopc q.etype (q.a l), ?popc, fun l _ k hk => ?popcBits⟩,
    fun h => ⟨fun l => opClz q.etype (q.a l), ?clz, fun l _ k hk => ?clzBits⟩,
    fun h => ⟨fun l => opCtz q.etype (q.a l), ?ctz, fun l _ k hk => ?ctzBits⟩,
    fun h => ⟨fun l => opBrev q.etype (q.a l), ?brev, fun l _ k hk j hj => ?brevBits⟩,
    fun h => ⟨fun l => opBfe (etSigned q.etype) (q.a l) (q.b l), ?bfe, fun l _ => ⟨opBfe_zero, fun h0 j hj => getLsbD_opBfe rfl h0 hj⟩⟩,
    fun h => ⟨fun l => opBfi (q.a l) (q.b l) (q.cVal l), ?bfi, fun l _ j hj => getLsbD_opBfi _ _ _ hj⟩,
    fun h => ⟨fun l => opBytesel (q.a l) (q.b l) (q.cVal l), ?bytesel, fun l _ m hm => elemNat_opBytesel _ _ _ hm⟩⟩
  case popc => exact exec_elementwise h (fun e _ a _ _ => opPopc e a) (by unfold exec; rfl)
  case clz => exact exec_elementwise h (fun e _ a _ _ => opClz e a) (by unfold exec; rfl)
  case ctz => exact exec_elementwise h (fun e _ a _ _ => opCtz e a) (by unfold exec; rfl)
  case brev => exact exec_elementwise h (fun e _ a _ _ => opBrev e a) (by unfold exec; rfl)
  case bfe => exact exec_elementwise h (fun e _ a b _ => opBfe (etSigned e) a b) (by unfold exec; rfl)
  case bfi => exact exec_elementwise h (fun _ _ a b c => opBfi a b c) (by unfold exec; rfl)
  case bytesel => exact exec_elementwise h (fun _ _ a b c => opBytesel a b c) (by unfold exec; rfl)
  case popcBits => exact elemNat_opPopc (q.a l) hk
  case clzBits => exact (elemNat_opClz (q.a l) hk).symm ▸ clzNat_spec (elemNat_lt n (q.a l) k)
  case ctzBits => exact (elemNat_opCtz (q.a l) hk).symm ▸ ctzNat_spec n (elemNat n (q.a l) k)
  case brevBits => exact (congrArg (Nat.testBit · j) (elemNat_opBrev (q.a l) hk)).trans (testBit_revNat hj _)

end Sys2Proof.Machine
end

section
namespace Sys2Proof

/-! ### Writing indexes that are not listed -/

theorem Cells.get_erase_of_unlisted {w : Nat} (c : Cells w) {k : Nat} (h : ∀ p ∈ c, p.1 ≠ k) : (c.erase k).get k = 0 := by
  induction c with
  | nil => rfl
  | cons p c ih =>
    obtain ⟨hp, hc⟩ := List.forall_mem_cons.1 h
    rw [Cells.erase, if_neg hp, Cells.get, if_neg hp, ih hc]

/-- An index that is not listed reads as what is written to it, whatever the form. -/
theorem Cells.get_set_of_unlisted {w : Nat} (c : Cells w) {k : Nat} (v : BitVec w) (h : ∀ p ∈ c, p.1 ≠ k) : (c.set k v).get k = v := by
  unfold Cells.set
  split
  · rename_i hv
    rw [Cells.get_erase_of_unlisted c h, hv]
  · rw [Cells.get_insert, if_pos rfl]

/-- A write lists no index but its own. -/
theorem Cells.mem_set {w : Nat} {c : Cells w} {k : Nat} {v : BitVec w} {p : Nat × BitVec w} (h : p ∈ c.set k v) : p.1 = k ∨ p ∈ c := by
  unfold Cells.set at h
  split at h
  · exact .inr (Cells.mem_erase h)
  · exact (Cells.mem_insert h).imp (congrArg Prod.fst) id

/-- The writes of a range of indexes. -/
def Cells.fill {w : Nat} (c : Cells w) (base n : Nat) (val : Nat → BitVec w) : Cells w :=
  (List.range n).foldl (fun c k => c.set (base + k) (val (base + k))) c

theorem Cells.fill_succ {w : Nat} (c : Cells w) (base n : Nat) (val : Nat → BitVec w) :
    c.fill base (n + 1) val = (c.fill base n val).set (base + n) (val (base + n)) := by
  rw [Cells.fill, List.range_succ, List.foldl_append]
  rfl

theorem Cells.mem_fill {w : Nat} {c : Cells w} {base n : Nat} {val : Nat → BitVec w} {p : Nat × BitVec w} (h : p ∈ c.fill base n val) :
    p.1 < base + n ∨ p ∈ c := by
  induction n with
  | zero => exact .inr h
  | succ n ih =>
    rw [Cells.fill_succ] at h
    rcases Cells.mem_set h with h | h
    · exact .inl (by omega)
    · exact (ih h).imp (fun h => by omega) id

/-- A range of which nothing was listed reads as what was written to it, and every other index as before. -/
theorem Cells.get_fill {w : Nat} (c : Cells w) (base n : Nat) (val : Nat → BitVec w) (h : ∀ p ∈ c, ¬(base ≤ p.1 ∧ p.1 < base + n))
    (i : Nat) :
    (c.fill base n val).get i = if base ≤ i ∧ i < base + n then val i else c.get i := by
  induction n with
  | zero => rw [if_neg (by omega)]; rfl
  | succ n ih =>
    have hlower : ∀ p ∈ c, ¬(base ≤ p.1 ∧ p.1 < base + n) := fun p hp hin => h p hp (by omega)
    rw [Cells.fill_succ]
    by_cases hi : i = base + n
    · have hnew : ∀ p ∈ c.fill base n val, p.1 ≠ base + n := by
        intro p hp he
        rcases Cells.mem_fill hp with hlt | hp
        · omega
        · exact h p hp (by omega)
      rw [hi, Cells.get_set_of_unlisted _ _ hnew, if_pos (by omega)]
    · rw [Cells.get_set_ne _ _ hi, ih hlower]
      exact ite_congr (propext (by omega)) (fun _ => rfl) (fun _ => rfl)

end Sys2Proof

namespace Sys2Proof.Machine

/-! ### Bank frames (R119, R352, R355) -/

/-- The bank frame, the X and the hold of a depth. -/
def Lane.frameAt (ln : Lane) (depth : Nat) : Frame := if depth = 1 then ln.frame1 else ln.frame2
def Lane.xAt (ln : Lane) (depth : Nat) : Bool := if depth = 1 then ln.x1 else ln.x2
def Lane.holdAt (ln : Lane) (depth : Nat) : Word := if depth = 1 then ln.hold1 else ln.hold2

section
variable (ln : Lane) (budget depth : Nat) (x : Bool)

theorem Lane.bank_registers : (ln.bank budget depth x).v = ln.v ∧ (ln.bank budget depth x).q = ln.q ∧ (ln.bank budget depth x).l = ln.l := by
  unfold Lane.bank
  split <;> exact ⟨rfl, rfl, rfl⟩

theorem Lane.bank_frameAt : (ln.bank budget depth x).frameAt depth =
    { v := ln.v.keep (fun n => decide (budget - 16 ≤ n) && decide (n < budget)), q := ln.q, l := ln.l, ue := ln.ue.filter (LReg.banked budget) } := by
  by_cases h : depth = 1 <;> simp [Lane.bank, Lane.frameAt, h]

theorem Lane.bank_xAt : (ln.bank budget depth x).xAt depth = x := by
  by_cases h : depth = 1 <;> simp [Lane.bank, Lane.xAt, h]

theorem Lane.bank_holdAt : (ln.bank budget depth x).holdAt depth = 0 := by
  by_cases h : depth = 1 <;> simp [Lane.bank, Lane.holdAt, h]

theorem Lane.bank_frameAt_v {n : Nat} (hn : budget - 16 ≤ n ∧ n < budget) :
    ((ln.bank budget depth x).frameAt depth).v.get n = ln.v.get n := by
  rw [Lane.bank_frameAt, Cells.get_keep, if_pos (by simpa using hn)]

theorem Lane.unbank_q : (ln.unbank budget depth).q = (ln.frameAt depth).q := rfl
theorem Lane.unbank_l : (ln.unbank budget depth).l = (ln.frameAt depth).l := rfl
theorem Lane.unbank_holdAt : (ln.unbank budget depth).holdAt depth = ln.holdAt depth := by simp only [Lane.holdAt, Lane.unbank]

/-- The V registers after a return: those of the reserve from the frame, the others as the handler left them (R355). -/
theorem Lane.unbank_v (n : Nat) :
    (ln.unbank budget depth).v.get n = if budget - 16 ≤ n ∧ n < budget then (ln.frameAt depth).v.get n else ln.v.get n := by
  have hspan : budget - 16 + (budget - (budget - 16)) = budget := by omega
  have hkeep : ∀ p ∈ ln.v.keep (fun n => !(decide (budget - 16 ≤ n) && decide (n < budget))),
      ¬(budget - 16 ≤ p.1 ∧ p.1 < budget - 16 + (budget - (budget - 16))) := by
    intro p hp hin
    rw [hspan] at hin
    have hout := (List.mem_filter.1 hp).2
    simp [hin] at hout
  refine (Cells.get_fill _ _ _ (ln.frameAt depth).v.get hkeep n).trans ?_
  rw [hspan, Cells.get_keep]
  by_cases hn : budget - 16 ≤ n ∧ n < budget
  · rw [if_pos hn, if_pos hn]
  · rw [if_neg hn, if_neg hn, if_pos (by simp only [Bool.not_eq_true', Bool.and_eq_false_iff, decide_eq_false_iff_not]; omega)]

end

/-! ### Entering the handler (R352) -/

/-- A fold of lane changes that reads the header reads the team's own. -/
theorem Team.foldLanes_hdr (first : Nat) (F : Header → Nat → Lane → Lane) (ixs : List Nat) (t : Team) {hd : Header} (h : t.hdr = hd) :
    ixs.foldl (fun t i => t.modLane (first + i) (F t.hdr i)) t = ixs.foldl (fun t i => t.modLane (first + i) (F hd i)) t := by
  induction ixs generalizing t with
  | nil => rfl
  | cons i l ih =>
    rw [List.foldl_cons, List.foldl_cons, h]
    exact ih _ h

/-- The lanes of a fragment, changed one by one. -/
def Team.modLanes (t : Team) (first : Nat) (m : Mask) (F : Nat → Lane → Lane) : Team :=
  (maskList m).foldl (fun t i => t.modLane (first + i) (F i)) t

theorem Team.modLanes_rest (t : Team) (first : Nat) (m : Mask) (F : Nat → Lane → Lane) :
    ∃ L, t.modLanes first m F = { t with body := { t.body with lanes := L } } ∧ L.length = t.body.lanes.length :=
  Team.foldLanes_rest first F (maskList m) t

theorem Team.modLanes_groups (t : Team) (first : Nat) (m : Mask) (F : Nat → Lane → Lane) :
    (t.modLanes first m F).body.groups = t.body.groups := by
  obtain ⟨L, h, -⟩ := t.modLanes_rest first m F
  rw [h]

theorem Team.modLanes_lane (t : Team) (first : Nat) (m : Mask) (F : Nat → Lane → Lane) (lid : Nat) :
    (t.modLanes first m F).lane lid =
      if lid ∈ (maskList m).map (first + ·) ∧ lid < t.body.lanes.length then F (lid - first) (t.lane lid) else t.lane lid :=
  Team.foldLanes_lane first F (maskList m) (maskList_nodup m) t lid

/-- The lane at a position of the mask. -/
theorem Team.modLanes_lane_mem (t : Team) {first : Nat} {m : Mask} (F : Nat → Lane → Lane) {i : Nat} (hi : i ∈ maskList m)
    (hl : first + i < t.body.lanes.length) : (t.modLanes first m F).lane (first + i) = F i (t.lane (first + i)) := by
  rw [Team.modLanes_lane, if_pos ⟨List.mem_map_of_mem hi, hl⟩, Nat.add_sub_cancel_left]

/-- The level that an entry for a word pushes. -/
def Group.entryLevel (g : Group) (f : Frag) (w : Nat → List Word) (jrpc jrnext : DWord) (stream : Bool) : JrLevel :=
  { id := g.nextId, w := w (f.jr.length + 1), jrpc := jrpc, jrnext := jrnext, wins := f.wins, wait := f.wait, stream := stream, pc := f.pc }

/-- The fragment in the handler. -/
def Frag.enter (f : Frag) (lv : JrLevel) (pc : DWord) : Frag := { f with jr := lv :: f.jr, wins := [], wait := .none, pc := pc }

section
variable {t : Team} {gi fi : Nat} {g : Group} {f : Frag} (hg : t.body.groups[gi]? = some g) (hf : g.frags[fi]? = some f)
  (x : Mask) (w : Nat → List Word) (jrpc jrnext : DWord) (stream : Bool)
include hg hf

theorem Team.enterHandler_eq : t.enterHandler gi fi x w jrpc jrnext stream =
    (t.modLanes g.first f.mask (fun i ln => ln.bank (t.hdr.budget g.role) (f.jr.length + 1) (x.getLsbD i))).modGroup gi (fun g' =>
      { g'.modFrag fi (fun f' => f'.enter (g.entryLevel f w jrpc jrnext stream) (t.image + BitVec.ofNat 64 t.hdr.jrhandler))
        with nextId := g'.nextId + 1 }) := by
  have hfold := Team.foldLanes_hdr g.first (fun hd i ln => ln.bank (hd.budget g.role) (f.jr.length + 1) (x.getLsbD i)) (maskList f.mask) t rfl
  obtain ⟨L, hL, -⟩ := t.modLanes_rest g.first f.mask (fun i ln => ln.bank (t.hdr.budget g.role) (f.jr.length + 1) (x.getLsbD i))
  rw [Team.modLanes] at hL
  unfold Team.enterHandler
  simp only [hg, hf, hfold, Team.modLanes, hL]
  rfl

/-- The fragment after an entry. -/
theorem Team.enterHandler_frag :
    ((t.enterHandler gi fi x w jrpc jrnext stream).body.groups[gi]?).bind (fun g => g.frags[fi]?) =
      some (f.enter (g.entryLevel f w jrpc jrnext stream) (t.image + BitVec.ofNat 64 t.hdr.jrhandler)) := by
  rw [Team.enterHandler_eq hg hf]
  simp [Team.modLanes_groups, hg, hf]

/-- The lanes after an entry. -/
theorem Team.enterHandler_lane (lid : Nat) : (t.enterHandler gi fi x w jrpc jrnext stream).lane lid =
    if lid ∈ (maskList f.mask).map (g.first + ·) ∧ lid < t.body.lanes.length
      then (t.lane lid).bank (t.hdr.budget g.role) (f.jr.length + 1) (x.getLsbD (lid - g.first)) else t.lane lid := by
  rw [Team.enterHandler_eq hg hf]
  exact Team.modLanes_lane ..

theorem Team.enterHandler_lane_mem {i : Nat} (hi : i ∈ maskList f.mask) (hl : g.first + i < t.body.lanes.length) :
    (t.enterHandler gi fi x w jrpc jrnext stream).lane (g.first + i) =
      (t.lane (g.first + i)).bank (t.hdr.budget g.role) (f.jr.length + 1) (x.getLsbD i) := by
  rw [Team.enterHandler_lane hg hf, if_pos ⟨List.mem_map_of_mem hi, hl⟩, Nat.add_sub_cancel_left]

theorem Team.enterHandler_registers (lid : Nat) :
    let e := t.enterHandler gi fi x w jrpc jrnext stream
    (e.lane lid).v = (t.lane lid).v ∧ (e.lane lid).q = (t.lane lid).q ∧ (e.lane lid).l = (t.lane lid).l := by
  intro e
  rw [show e.lane lid = _ from Team.enterHandler_lane hg hf x w jrpc jrnext stream lid]
  split
  · exact Lane.bank_registers ..
  · exact ⟨rfl, rfl, rfl⟩

end

/-! ### Leaving the handler (R355) -/

/-- A lane as it leaves the handler: restored, and shifted where EMRET.l finds a value and X is set. -/
def Lane.leave (ln : Lane) (budget depth id : Nat) (shifts : Bool) : Lane :=
  if shifts && ln.xAt depth then
    match (ln.unbank budget depth).emretValue id depth with
    | some r => (ln.unbank budget depth).shiftL r
    | none => ln.unbank budget depth
  else ln.unbank budget depth

section
variable (ln : Lane) (budget depth id : Nat)

theorem Lane.leave_unshifted {shifts : Bool} (h : shifts = false ∨ ln.xAt depth = false) :
    ln.leave budget depth id shifts = ln.unbank budget depth := by
  unfold Lane.leave
  rcases h with h | h <;> simp [h]

theorem Lane.leave_shifted {r : Word} (hx : ln.xAt depth = true) (hr : (ln.unbank budget depth).emretValue id depth = some r) :
    ln.leave budget depth id true = (ln.unbank budget depth).shiftL r := by
  unfold Lane.leave
  simp [hx, hr]

theorem Lane.leave_none (hr : (ln.unbank budget depth).emretValue id depth = none) (shifts : Bool) :
    ln.leave budget depth id shifts = ln.unbank budget depth := by
  unfold Lane.leave
  simp [hr]

/-- Leaving restores the lane, and changes nothing more than the last-result file. -/
theorem Lane.leave_registers (shifts : Bool) :
    (ln.leave budget depth id shifts).v = (ln.unbank budget depth).v ∧ (ln.leave budget depth id shifts).q = (ln.frameAt depth).q := by
  unfold Lane.leave
  split
  · split <;> exact ⟨rfl, rfl⟩
  · exact ⟨rfl, rfl⟩

end

/-- The fragment out of the handler. -/
def Frag.leave (f : Frag) (lv : JrLevel) (rest : List JrLevel) (em : Bool) : Frag :=
  { f with jr := rest, wait := lv.wait, wins := if em then lv.wins.map Window.count else lv.wins, pc := if em then lv.jrnext else lv.jrpc }

/-- Counting an emulated instruction changes only levels of the fragments. -/
theorem Group.countEmulated_frag {g : Group} {fi : Nat} {f : Frag} (hf : g.frags[fi]? = some f) (lv : JrLevel) (depth : Nat) :
    ∃ jr, (g.countEmulated lv depth).frags[fi]? = some { f with jr := jr } := by
  unfold Group.countEmulated
  split
  · exact ⟨f.jr, hf⟩
  · exact ⟨_, by simp only [List.getElem?_map, hf, Option.map_some]; rfl⟩

section
variable {u : Team} {gi fi : Nat} {h : Group} {k : Frag} {lv : JrLevel} {rest : List JrLevel} (hh : u.body.groups[gi]? = some h)
  (hk : h.frags[fi]? = some k) (hj : k.jr = lv :: rest) (hs : lv.stream = false) (em lst : Bool)
include hh hk hj hs

theorem Team.leaveHandler_eq : u.leaveHandler gi fi em lst =
    (u.modLanes h.first k.mask (fun _ ln => ln.leave (u.hdr.budget h.role) (rest.length + 1) (bitsOf (lv.w.getD 4 0) 15 0) (em && lst))).modGroup gi
      (fun g => (if em then g.countEmulated lv (rest.length + 1) else g).modFrag fi (fun f => f.leave lv rest em)) := by
  have hfold := Team.foldLanes_hdr h.first
    (fun hd _ ln => ln.leave (hd.budget h.role) (rest.length + 1) (bitsOf (lv.w.getD 4 0) 15 0) (em && lst)) (maskList k.mask) u rfl
  unfold Team.leaveHandler
  simp only [hh, hk, hj, hs, Bool.not_false, Bool.and_true, Bool.false_eq_true, if_false]
  rw [Team.modLanes, ← hfold]
  rfl

/-- The fragment after a return. -/
theorem Team.leaveHandler_frag :
    ((u.leaveHandler gi fi em lst).body.groups[gi]?).bind (fun g => g.frags[fi]?) = some (k.leave lv rest em) := by
  obtain ⟨jr, hc⟩ := Group.countEmulated_frag hk lv (rest.length + 1)
  rw [Team.leaveHandler_eq hh hk hj hs]
  cases em <;> simp [Team.modLanes_groups, hh, hk, hc, Frag.leave]

/-- The lanes after a return. -/
theorem Team.leaveHandler_lane {i : Nat} (hi : i ∈ maskList k.mask) (hl : h.first + i < u.body.lanes.length) :
    (u.leaveHandler gi fi em lst).lane (h.first + i) =
      (u.lane (h.first + i)).leave (u.hdr.budget h.role) (rest.length + 1) (bitsOf (lv.w.getD 4 0) 15 0) (em && lst) := by
  rw [Team.leaveHandler_eq hh hk hj hs]
  exact Team.modLanes_lane_mem u _ hi hl

end

/-! ### What a return restores of the entry (R119, R122, R355) -/

section
variable (ln : Lane) {id : Nat} (depth : Nat)

theorem Lane.emretValue_v (h : id < 0x100) : ln.emretValue id depth = some (ln.v.get id) := if_pos h

theorem Lane.emretValue_q (h : 0x100 ≤ id) (h2 : id < 0x110) : ln.emretValue id depth = some (ln.q.get (id - 0x100)) :=
  (if_neg (Nat.not_lt.2 h)).trans (if_pos h2)

theorem Lane.emretValue_hold (h : id = 0x110 ∨ id = 0x114) : ln.emretValue id depth = some (ln.holdAt depth) := by
  rcases h with rfl | rfl <;> rfl

theorem Lane.emretValue_none (h : 0x110 < id) (h2 : id ≠ 0x114) : ln.emretValue id depth = none := by
  unfold Lane.emretValue
  rw [if_neg (by omega), if_neg (by omega), if_neg (by simp; omega)]

end

theorem Lane.leave_other (b : Lane) {budget : Nat} (depth id : Nat) (shifts : Bool) {n : Nat} (hn : ¬(budget - 16 ≤ n ∧ n < budget)) :
    (b.leave budget depth id shifts).v.get n = b.v.get n := by
  obtain ⟨hv, -⟩ := b.leave_registers budget depth id shifts
  rw [hv, Lane.unbank_v, if_neg hn]

section
variable {a b : Lane} {budget depth : Nat} {x : Bool} (hfr : b.frameAt depth = (a.bank budget depth x).frameAt depth)
include hfr

theorem Lane.unbank_bank_l : (b.unbank budget depth).l = a.l := by rw [Lane.unbank_l, hfr, Lane.bank_frameAt]

theorem Lane.leave_bank_q (id : Nat) (shifts : Bool) : (b.leave budget depth id shifts).q = a.q := by
  obtain ⟨-, hq⟩ := b.leave_registers budget depth id shifts
  rw [hq, hfr, Lane.bank_frameAt]

theorem Lane.leave_bank_reserve (id : Nat) (shifts : Bool) {n : Nat} (hn : budget - 16 ≤ n ∧ n < budget) :
    (b.leave budget depth id shifts).v.get n = a.v.get n := by
  obtain ⟨hv, -⟩ := b.leave_registers budget depth id shifts
  rw [hv, Lane.unbank_v, if_pos hn, hfr, Lane.bank_frameAt_v _ _ _ _ hn]

theorem Lane.leave_bank_l_kept (id : Nat) {shifts : Bool} (h : shifts = false ∨ b.xAt depth = false) :
    (b.leave budget depth id shifts).l = a.l := by
  rw [Lane.leave_unshifted _ _ _ _ h, Lane.unbank_bank_l hfr]

theorem Lane.leave_bank_l_none {id : Nat} (h : 0x110 < id) (h2 : id ≠ 0x114) (shifts : Bool) : (b.leave budget depth id shifts).l = a.l := by
  rw [Lane.leave_none _ _ _ _ (Lane.emretValue_none _ _ h h2), Lane.unbank_bank_l hfr]

/-- The last-result file of a lane into which EMRET.l shifts a value. -/
theorem Lane.leave_bank_l_shifted {id : Nat} {r : Word} (hx : b.xAt depth = true) (hr : (b.unbank budget depth).emretValue id depth = some r) :
    (b.leave budget depth id true).l = (((a.l.set 3 (a.l.get 2)).set 2 (a.l.get 1)).set 1 (a.l.get 0)).set 0 r := by
  rw [Lane.leave_shifted _ _ _ _ hx hr, Lane.shiftL, Lane.unbank_bank_l hfr]

end

/-- Settles O35: the fragment and the lanes of an entry, then those of a return to the frames that the entry left. -/
theorem handlerEntryAndReturn : Obligations.HandlerEntryAndReturn := by
  intro t u g h f k gi fi x w jrpc jrnext hg hf d reserve frag frame inX hold e lv r0
  have entry : ∀ i ∈ maskList f.mask, g.first + i < t.body.lanes.length →
      e.lane (g.first + i) = (t.lane (g.first + i)).bank (t.hdr.budget g.role) d (x.getLsbD i) :=
    fun i hi hl => Team.enterHandler_lane_mem hg hf x w jrpc jrnext false hi hl
  refine ⟨Team.enterHandler_frag hg hf x w jrpc jrnext false, Team.enterHandler_registers hg hf x w jrpc jrnext false, fun i hi hl => ?banked,
    fun hhdr hlen hframes hh hk hrole hfirst _ hhead htail hmask => ?returned⟩
  case banked =>
    intro a b
    rw [show b = _ from entry i hi hl]
    have hfr := a.bank_frameAt (t.hdr.budget g.role) d (x.getLsbD i)
    exact ⟨congrArg Frame.q hfr, congrArg Frame.l hfr, fun n hn => Lane.bank_frameAt_v _ _ _ _ hn, Lane.bank_xAt .., Lane.bank_holdAt ..⟩
  case returned =>
    have hj : k.jr = lv :: f.jr := by
      obtain ⟨rest, hrest⟩ := List.head?_eq_some_iff.1 hhead
      rw [hrest, ← htail, hrest, List.tail_cons]
    refine ⟨Team.leaveHandler_frag hh hk hj rfl false false, fun lst => Team.leaveHandler_frag hh hk hj rfl true lst, fun em lst i hi hl => ?lanes⟩
    intro a b z shift
    have hz : z = b.leave (t.hdr.budget g.role) d r0 (em && lst) := by
      have := Team.leaveHandler_lane hh hk hj rfl em lst hi (by rw [hfirst, hlen]; exact hl)
      rwa [hfirst, hrole, hhdr] at this
    obtain ⟨hframe, hinX⟩ := hframes (g.first + i)
    rw [entry i (hmask i hi) hl] at hframe hinX
    have hfr : b.frameAt d = (a.bank (t.hdr.budget g.role) d (x.getLsbD i)).frameAt d := hframe
    have hx : b.xAt d = x.getLsbD i := hinX.trans (Lane.bank_xAt ..)
    rw [hz]
    refine ⟨Lane.leave_bank_q hfr .., fun n hn => Lane.leave_bank_reserve hfr _ _ hn, fun n hn => Lane.leave_other b _ _ _ hn, fun hno => ?kept,
      fun hem hlst hxi => ?shifted⟩
    case kept =>
      refine Lane.leave_bank_l_kept hfr _ ?_
      rw [hx]
      rcases hno with rfl | rfl | hxi
      · exact .inl rfl
      · exact .inl (Bool.and_false em)
      · exact .inr hxi
    case shifted =>
      subst hem hlst
      have hshift {r : Word} := Lane.leave_bank_l_shifted hfr (id := r0) (r := r)
      refine ⟨fun h1 => ?_, fun h1 h2 => ?_, fun h1 => ?_, fun h1 h2 => Lane.leave_bank_l_none hfr h1 h2 _⟩
      · obtain ⟨hv, -⟩ := b.leave_registers (t.hdr.budget g.role) d r0 (true && true)
        rw [hv]
        exact hshift (hx.trans hxi) (Lane.emretValue_v _ _ h1)
      · refine hshift (hx.trans hxi) ((Lane.emretValue_q _ _ h1 h2).trans ?_)
        rw [Lane.unbank_q, hfr, Lane.bank_frameAt]
      · exact hshift (hx.trans hxi) ((Lane.emretValue_hold _ _ h1).trans (congrArg some (Lane.unbank_holdAt ..)))

end Sys2Proof.Machine
end

section
namespace Sys2Proof.Machine

/-! ### Taking a trap (R338-R340) -/

/-- A trap as a team keeps it: under a new identity, with the cycle it was raised in and its place in that cycle (R340; log 63). -/
def Team.stamped (t : Team) (s : State) (tr : Trap) : Trap :=
  let tr := { tr with id := s.nextId, cycle := s.cycles, took := [] }
  { tr with place := t.trapPlace tr }

/-- A team that takes a trap: it keeps the trap, or asks for the rollback of its task (R338, R385). -/
def Team.afterTrap (t : Team) (s : State) (tr : Trap) : Team :=
  let u := { t with took := tr.took }.modGroup tr.g (fun g => if tr.stream then g else { g with flags := g.flags ||| tr.flags })
  if u.levelNow = 0 || tr.parks then
    { u.modGroup tr.g (fun g => if !tr.stream && g.grace.isSome then { g with stopped := true } else g) with
        traps := u.traps ++ [t.stamped s tr] }
  else { u with rollback := some (u.rollback.getD (t.stamped s tr)) }

theorem State.takeTrap_eq (s : State) (tid : Nat) (tr : Trap) :
    s.takeTrap tid tr = ({ s with nextId := s.nextId + 1 } : State).modTeam tid (fun t => t.afterTrap s tr) := rfl

theorem Team.afterTrap_id (t : Team) (s : State) (tr : Trap) : (t.afterTrap s tr).id = t.id := by
  unfold Team.afterTrap
  exact (apply_ite Team.id _ _ _).trans (ite_self _)

/-- Where a trap parks, the team keeps it stamped. -/
theorem Team.afterTrap_traps {t : Team} {s : State} {tr : Trap} (h : t.levelNow = 0 ∨ tr.parks = true) :
    (t.afterTrap s tr).traps = t.traps ++ [t.stamped s tr] := by
  have hp : (decide (t.levelNow = 0) || tr.parks) = true := by simpa using h
  exact congrArg Team.traps (if_pos hp)

/-- The team found after a trap was taken in it. -/
theorem State.takeTrap_team? {s : State} {tid : Nat} {t : Team} (ht : s.team? tid = some t) (tr : Trap) :
    (s.takeTrap tid tr).team? tid = some (t.afterTrap s tr) := by
  rw [State.takeTrap_eq, State.team?_modTeam_self _ _ _ (fun t ht => (t.afterTrap_id s tr).trans ht)]
  exact congrArg (Option.map fun t => t.afterTrap s tr) ht

/-- A part one cycle after reset with a team of level 2. -/
def laterState : State := { State.reset with teams := [checkedTeam], cycles := 1 }

/-- Refutes O55: a trap taken keeps the cycle it was raised in and its place in that cycle (R340), which the statement leaves as the instruction
gave them; a DEBUG trap taken in cycle 1 keeps 1 where the instruction gave 0. -/
theorem not_trapTaken : ¬ Obligations.TrapTaken := by
  intro h
  let tr : Trap := { id := 0, cls := clsDebug }
  have ht : laterState.team? 0 = some checkedTeam := by decide +kernel
  obtain ⟨htaken, -⟩ := h laterState 0 tr checkedTeam branchIss ⟨none, none⟩ 0 0 0
  obtain ⟨t', ht', hparks, -⟩ := htaken ht
  obtain ⟨hstated, -⟩ := hparks (.inr (.inl rfl))
  obtain rfl := Option.some.inj ((State.takeTrap_team? ht tr).symm.trans ht')
  have hkept := Team.afterTrap_traps (t := checkedTeam) (s := laterState) (tr := tr) (.inr rfl)
  have hcycle := congrArg (List.map Trap.cycle) (List.append_cancel_left (hkept.symm.trans hstated))
  exact absurd hcycle (by decide)

end Sys2Proof.Machine
end

section
namespace Sys2Proof.Machine

/-! ### Float results of an unhindered issue (R161, R166) -/

/-- The element results in the lanes of EXEC, pattern and flags by `f`, each with the operands that a report names (R162). -/
def Iss.laneElems (q : Iss) (cnt : Nat) (f : Nat → Nat → Nat × Nat) (ops : Nat → Nat → List Nat) : List (Nat × List ElemRes) :=
  q.lanes.map (fun l => (l, (List.range cnt).map (fun k => (⟨(f l k).1, (f l k).2, ops l k⟩ : ElemRes))))

section
variable {i : Instr} {s : State} {q : Iss} (h : Issues i s q) {f : Nat → Nat → Nat × Nat} {ops : Nat → Nat → List Nat}
include h

/-- An instruction whose effect on the counted state is a float result writes it, where no flag raised is enabled. -/
theorem exec_floatRes {eff : Iss → Eff} {n cnt : Nat} {words : Nat → List Nat → List Word} (he : exec i s = issue i eff s)
    (heff : eff q.counted = q.counted.floatRes n cnt words (fun l k => ⟨(f l k).1, (f l k).2, ops l k⟩))
    (hn : q.fpTrap (q.laneElems cnt f ops) = none) :
    exec i s = .next (q.wrote n (fun l => words l ((List.range cnt).map (fun k => (f l k).1))) (allFlags (q.laneElems cnt f ops))) :=
  he.trans (issue_floatRes h heff hn)

/-- A float instruction under a float type writes the elements that it makes of what stood before it was counted. -/
theorem exec_floatOp {F : Iss → Nat → Nat → ElemRes} (he : exec i s = issue i (fun q => q.floatOp (F q)) s)
    (ht : etFloat q.etype = true) (hF : F q.counted = fun l k => ⟨(f l k).1, (f l k).2, ops l k⟩)
    (hn : q.fpTrap (q.laneElems (etCount q.etype) f ops) = none) :
    exec i s = .next (q.wrote 1 (fun l => [packElems q.etype ((List.range (etCount q.etype)).map (fun k => (f l k).1))])
      (allFlags (q.laneElems (etCount q.etype) f ops))) := by
  refine exec_floatRes h (words := fun _ l => [packElems q.etype l]) he ?_ hn
  rw [Iss.floatOp, hF, Iss.counted_etype h.reads, if_pos ht]

end

/-- Settles O14: each is the element results of what it reads, and that is what stood before it was counted. -/
theorem floatArithmetic : Obligations.FloatArithmetic := by
  intro s q x c d a b ht u v w n writes one two
  have holds : ∀ {i : Instr} {F : Iss → Nat → Nat → ElemRes} {f : Nat → Nat → Nat × Nat} {ops : Nat → Nat → List Nat},
      exec i s = issue i (fun q => q.floatOp (F q)) s →
      (Issues i s q → F q.counted = fun l k => ⟨(f l k).1, (f l k).2, ops l k⟩) → writes i f ops :=
    fun he hF hi => exec_floatOp hi he ht (hF hi)
  and_intros
  all_goals
    refine holds (by unfold exec; rfl) fun hi => ?_
    simp only [Iss.counted_floatReads hi.reads, u, v, w, n, one, two]

/-- Settles O16: each by the branch of its legal pair of types. -/
theorem conversions : Obligations.Conversions := by
  intro s q x d a b h e fmt e16 sat wide writes low one whole
  have holds : ∀ {i : Instr} {eff : Iss → Eff} {n cnt : Nat} {words : Nat → List Nat → List Word} {f : Nat → Nat → Nat × Nat}
      {ops : Nat → Nat → List Nat}, exec i s = issue i eff s →
      (Issues i s q → eff q.counted = q.counted.floatRes n cnt words (fun l k => ⟨(f l k).1, (f l k).2, ops l k⟩)) →
      writes i n cnt words f ops :=
    fun he heff hi => exec_floatRes hi he (heff hi)
  -- `writes` is kept folded from here on, so that each goal gives `holds` its words and elements as they stand
  clear_value writes
  refine ⟨fun hl => ?f2i, fun hl => ?i2f, fun ht he => ?intoHalf, fun ht he => ?fromHalf, fun hp h0 => ?pair, ?qnt, ?mxsc, fun hi => ?dqnt,
    fun h16 => ?pack, fun h16 => ?unpk⟩
  case f2i =>
    refine holds (by unfold exec; rfl) fun hi => ?_
    simp only [Iss.counted_floatReads hi.reads, wide, sat, one]
    exact if_pos ((f2iLegal_iff _ e).2 hl)
  case i2f =>
    refine holds (by unfold exec; rfl) fun hi => ?_
    simp only [Iss.counted_floatReads hi.reads, sat, one]
    exact if_pos ((i2fLegal_iff _ e).2 hl)
  case intoHalf =>
    have hh : h.toNat = 1 ↔ h = 1 := by bv_omega
    refine holds (by unfold exec; rfl) fun hi => ?_
    simp only [Iss.counted_floatReads hi.reads, Iss.counted_rd hi.reads, Iss.counted_opD hi.reads, hh, sat, whole]
    exact if_pos ((f2fIntoHalf_iff _ e).2 ⟨ht, he⟩)
  case fromHalf =>
    have ht2 : q.etype ≠ 2 := by rcases ht with ht | ht <;> omega
    refine holds (by unfold exec; rfl) fun hi => ?_
    simp only [Iss.counted_floatReads hi.reads, wide, sat, low]
    exact (if_neg (mt (f2fIntoHalf_iff _ e).1 fun hc => ht2 hc.1)).trans (if_pos ((f2fFromHalf_iff _ e).2 ⟨ht, he⟩))
  case pair =>
    have ht2 : q.etype ≠ 2 := by rcases hp with ⟨ht, -⟩ | ⟨ht, -⟩ <;> omega
    have he2 : e ≠ 2 := by rcases hp with ⟨-, rfl⟩ | ⟨-, rfl⟩ <;> decide
    refine holds (by unfold exec; rfl) fun hi => ?_
    simp only [Iss.counted_floatReads hi.reads, wide, sat, one]
    exact (if_neg (mt (f2fIntoHalf_iff _ e).1 fun hc => ht2 hc.1)).trans
      ((if_neg (mt (f2fFromHalf_iff _ e).1 fun hc => he2 hc.2)).trans (if_pos ((f2fPair_iff _ e h).2 ⟨hp, h0⟩)))
  case qnt =>
    refine holds (by unfold exec; rfl) fun hi => ?_
    simp only [Iss.counted_floatReads hi.reads, sat, low, whole]
  case mxsc =>
    refine holds (by unfold exec; rfl) fun hi => ?_
    simp only [Iss.counted_floatReads hi.reads, low, whole]
  case dqnt => exact exec_result hi (by unfold exec; rfl) (by rw [Iss.counted_a hi.reads])
  case pack =>
    refine holds (by unfold exec; rfl) fun hi => ?_
    simp only [Iss.counted_floatReads hi.reads, sat, apply_ite BitVec.toNat]
    exact if_pos ((etPair_iff _).2 h16)
  case unpk =>
    refine holds (by unfold exec; rfl) fun hi => ?_
    simp only [Iss.counted_floatReads hi.reads, wide, one]
    exact if_pos ((etPair_iff _).2 h16)

/-! ### Draws of the mixer and the sticky flags (R181, R182) -/

/-- What RNG reads is what stood before it was counted. -/
theorem Iss.counted_rngReads {s : State} {fm : Form} {q : Iss} (h : s.issuer fm = some q) :
    q.counted.etype = q.etype ∧ q.counted.mixWord = q.mixWord ∧ q.counted.lid = q.lid ∧ q.counted.uni = q.uni :=
  ⟨Iss.counted_etype h, Iss.counted_mixWord h, Iss.counted_lid h, Iss.counted_uni h⟩

/-- Settles O12: RNG by the type that its lane result is drawn under, FLAGS by the one change of its team. -/
theorem randomAndFlags : Obligations.RandomAndFlags := by
  intro s q x l d a w
  refine ⟨fun h ht => ?integer, fun h ht => ?fp32, fun h ht => ?fp16, fun h ht => ?bf16, fun h => ?flags⟩
  case integer =>
    refine exec_result h (by unfold exec; rfl) ?_
    obtain ⟨ht2, ht3, ht4⟩ : q.etype ≠ 2 ∧ q.etype ≠ 3 ∧ q.etype ≠ 4 := by omega
    simp only [Iss.counted_rngReads h.reads, ht2, ht3, ht4, if_false, w]
  case fp32 =>
    refine exec_result h (by unfold exec; rfl) ?_
    simp only [Iss.counted_rngReads h.reads, ht, if_true, w]
  case fp16 =>
    refine exec_result h (by unfold exec; rfl) ?_
    simp only [Iss.counted_rngReads h.reads, ht, Nat.reduceEqDiff, if_true, if_false, w]
  case bf16 =>
    refine exec_result h (by unfold exec; rfl) ?_
    simp only [Iss.counted_rngReads h.reads, ht, Nat.reduceEqDiff, if_true, if_false, w]
  case flags =>
    refine (show exec (.flags l d a) s = issueOk _ _ s by unfold exec; rfl).trans ((issueOk_eq h _).trans ?_)
    rw [Iss.counted_flags h.reads, Iss.counted_uni h.reads, Iss.counted_c h.reads]

end Sys2Proof.Machine
end

section
namespace Sys2Proof.Machine

/-! ### Mask instructions (R204, R205) -/

section
variable {i : Instr} {s : State} {q : Iss} (h : Issues i s q)
include h

/-- An instruction that always writes a triple. -/
theorem exec_putTriple {d : Code} {val : Iss → Mask} {m : Mask} (he : exec i s = issueOk i (fun q => q.putTriple d (val q)) s)
    (hv : val q.counted = m) : exec i s = .next (q.counted.modGroup (fun g => g.setTriple d.toNat m)) := by
  rw [he, issueOk_eq h, hv, Iss.putTriple]

/-- An instruction that always writes one S register. -/
theorem exec_putS {d : Code} {val : Iss → Word} {x : Word}
    (he : exec i s = issueOk i (fun q => q.modGroup (fun g => g.setS d.toNat (val q))) s)
    (hv : val q.counted = x) : exec i s = .next (q.counted.modGroup (fun g => g.setS d.toNat x)) := by
  rw [he, issueOk_eq h, hv]

end

/-- MFFS by the lowest bit, where there is one. -/
theorem exec_mffs_eq {s : State} {q : Iss} {d a : Code} (h : Issues (.mffs d a) s q) :
    exec (.mffs d a) s = .next (q.counted.modGroup (fun g => g.setS d.toNat
      (((maskList (q.tri a)).head?.map (BitVec.ofNat 32)).getD (BitVec.allOnes 32)))) := by
  refine exec_putS h (by unfold exec; rfl) ?_
  rw [Iss.counted_tri h.reads]
  cases (maskList (q.tri a)).head? <;> rfl

/-- Settles O19: each writes a triple, an S register or a lane result made of what stood before it was counted. -/
theorem maskInstructions : Obligations.MaskInstructions := by
  intro s q l d a b put put32 E
  simp only [List.forall_mem_cons, List.not_mem_nil, false_imp_iff, implies_true, and_true]
  refine ⟨⟨fun h => ?and, fun h => ?or, fun h => ?xor, fun h => ?andn⟩, fun h => ?not, fun h => ?cur, fun h => ?pop, fun h => ⟨?first, ?none⟩,
    fun h => ?spill, fun h => ?fill⟩
  case and => exact exec_putTriple h (by unfold exec; rfl) (by rw [Iss.counted_tri h.reads])
  case or => exact exec_putTriple h (by unfold exec; rfl) (by rw [Iss.counted_tri h.reads])
  case xor => exact exec_putTriple h (by unfold exec; rfl) (by rw [Iss.counted_tri h.reads])
  case andn => exact exec_putTriple h (by unfold exec; rfl) (by rw [Iss.counted_tri h.reads])
  case not => exact exec_putTriple h (by unfold exec; rfl) (by rw [Iss.counted_tri h.reads, Group.exist, Iss.counted_count h.reads]; rfl)
  case cur => exact exec_putTriple h (by unfold exec; rfl) (Iss.counted_mask h.reads)
  case pop => exact exec_putS h (by unfold exec; rfl) (by rw [Iss.counted_tri h.reads])
  case first =>
    intro i hi
    rw [exec_mffs_eq h, hi]
    rfl
  case none =>
    intro h0
    rw [exec_mffs_eq h, h0]
    rfl
  case spill => exact exec_result h (by unfold exec; rfl) (by rw [Iss.counted_tri h.reads]; rfl)
  case fill =>
    exact exec_putTriple h (by unfold exec; rfl)
      (by rw [Iss.counted_triple h.reads, Iss.counted_ex h.reads, Iss.counted_lanes h.reads, Iss.counted_a h.reads])

end Sys2Proof.Machine
end

section
namespace Sys2Proof.Machine

/-! ### Traps and parked lanes of flow instructions (R184, R185, R189) -/

section
variable {s : State} {q : Iss}

/-- The lanes of EXEC as the counted issue parks them. -/
theorem Iss.counted_parkedPart {fm : Form} (h : s.issuer fm = some q) (chain : List JEntry) (pc : DWord) (p : Park) :
    q.counted.parkedPart chain pc p = { q.counted.f with mask := q.ex, chain := chain, pc := pc, park := p, slot := none, count := 0 } := by
  rw [Iss.parkedPart, Iss.counted_ex h]

/-- The depth at which the chain takes no further entry is that before the issue was counted. -/
theorem Iss.counted_shallow {fm : Form} (h : s.issuer fm = some q) (hd : q.f.chain.length < 31) : ¬ maxDepth ≤ q.counted.f.chain.length := by
  rw [Iss.counted_chain h]
  exact Nat.not_le.2 hd

theorem Iss.counted_deep {fm : Form} (h : s.issuer fm = some q) (hd : 31 ≤ q.f.chain.length) : maxDepth ≤ q.counted.f.chain.length := by
  rw [Iss.counted_chain h]
  exact hd

/-- An instruction whose effect on the counted state is BRK_DEPTH. -/
theorem exec_brk {i : Instr} {eff : Iss → Eff} {n : Nat} (h : Issues i s q) (he : exec i s = issue i eff s)
    (heff : eff q.counted = q.counted.brk n) : exec i s = .next (q.trapped { q.trap clsBrk with detail := n }) := by
  rw [he, issue_of_trap h heff, Iss.counted_trap h.reads]

/-- An instruction whose effect on the counted state moves the lanes of EXEC, and nothing where there are none (R189). -/
theorem exec_moves {i : Instr} {eff : Iss → Eff} {t : State} (h : Issues i s q) (he : exec i s = issue i eff s)
    (heff : eff q.counted = if q.counted.ex = 0 then .ok q.counted.s else .ok t) :
    exec i s = .next (if q.ex = 0 then q.counted.s else t) := by
  rw [← apply_ite Eff.ok, Iss.counted_ex h.reads] at heff
  exact he.trans (issue_of_ok h heff)

end

/-! ### JOIN, LEAVE and CONT (R184, R185, R191-R193) -/

theorem exec_join (off : BitVec 21) (s : State) : exec (.join off) s = execJoin off s := rfl
theorem exec_leave (n : BitVec 4) (s : State) : exec (.leave n) s = execLeave n s := rfl
theorem exec_cont (off : BitVec 21) (s : State) : exec (.cont off) s = execCont off s := rfl

/-- The push of an entry, its identity and its key taken from the group and the fragment changed. -/
def Iss.pushEntry (q : Iss) (target : DWord) (fi : Nat) (g : Group) : Group :=
  { (g.modFrag fi (fun f =>
      { f with chain := { id := g.nextId, jaddr := target, key := q.lid (lowPos f.mask), callEnt := false } :: f.chain }))
    with nextId := g.nextId + 1 }

/-- JOIN where the chain takes an entry. -/
theorem exec_join_pushes {s : State} {q : Iss} {off : BitVec 21} (h : Issues (.join off) s q) (hd : q.f.chain.length < 31) :
    exec (.join off) s = .next (q.counted.modGroup (q.pushEntry (q.target off) q.c.f)) := by
  refine (exec_join off s).trans (issue_of_ok h ((if_neg (Iss.counted_shallow h.reads hd)).trans (congrArg Eff.ok ?_)))
  rw [Iss.counted_target h.reads, Iss.counted_lid h.reads, Iss.counted_c h.reads]
  rfl

/-! ### One team of an identity -/

/-- Changes of a team that agree where its identity stands are one change. -/
theorem State.modTeam_congr {s : State} {tid : Nat} {f f' : Team → Team} (h : ∀ t ∈ s.teams, t.id = tid → f t = f' t) :
    s.modTeam tid f = s.modTeam tid f' := by
  unfold State.modTeam
  congr 1
  refine List.map_congr_left fun t ht => ?_
  by_cases hid : t.id = tid <;> simp [hid, h t ht]

/-- Where one team has the issuing identity, that is so of the counted issue. -/
theorem Iss.counted_one_team {s : State} {fm : Form} {q : Iss} (h : s.issuer fm = some q) (hone : ∀ t ∈ q.s.teams, t.id = q.c.team → t = q.t)
    {t : Team} (ht : t ∈ q.counted.s.teams) (hid : t.id = q.c.team) : t = q.counted.t := by
  have hteams : q.counted.s.teams = (q.s.modTeam q.c.team q.countTeam).teams := by
    obtain ⟨_, _, hcharge⟩ := (q.s.modTeam q.c.team q.countTeam).chargeIssue_eq q.t q.g q.fm q.ex
    rw [(Iss.counted_eq h).1, Iss.account_eq, hcharge]
  rw [hteams] at ht
  obtain ⟨u, hu, rfl⟩ := List.mem_map.1 ht
  rw [Iss.counted_t h]
  by_cases hc : u.id = q.c.team
  · obtain rfl := hone u hu hc
    simp [hc]
  · simp [hc] at hid

/-- A change of the issuing group, where one team has the issuing identity, is decided by the group and the fragment that issue. -/
theorem Iss.counted_modGroup_congr {s : State} {fm : Form} {q : Iss} (h : s.issuer fm = some q)
    (hone : ∀ t ∈ q.s.teams, t.id = q.c.team → t = q.t) {f f' : Group → Group} (hf : f q.counted.g = f' q.counted.g) :
    q.counted.modGroup f = q.counted.modGroup f' := by
  obtain ⟨-, -, -, hg, -⟩ := State.issuer_eq_some.1 h
  rw [Iss.modGroup, Iss.modGroup, Iss.modTeam, Iss.modTeam, Iss.counted_c h]
  refine State.modTeam_congr fun t ht hid => ?_
  rw [Iss.counted_one_team h hone ht hid]
  have hcg : q.counted.t.body.groups[q.c.g]? = some q.counted.g := by
    rw [Iss.counted_t h, Iss.counted_g h]
    simp [Iss.countTeam, hg]
  simp only [Team.modGroup, Team.modBody]
  rw [listModify_congr _ _ f f' fun g hg' => by rw [hcg] at hg'; rw [← Option.some.inj hg']; exact hf]

section
variable {s : State} {q : Iss} {n : BitVec 4} {off : BitVec 21}

/-- JOIN pushes one entry, of the identity and the key that the issuing group and fragment give, where one team has the issuing identity. -/
theorem exec_join_of_one_team (h : Issues (.join off) s q) (hone : ∀ t ∈ q.s.teams, t.id = q.c.team → t = q.t) (hd : q.f.chain.length < 31) :
    exec (.join off) s = .next (q.counted.modGroup (fun g =>
      { (g.modFrag q.c.f (fun f => { f with
          chain := { id := q.counted.g.nextId, jaddr := q.target off, key := q.lid (lowPos q.f.mask), callEnt := false } :: f.chain })) with
        nextId := g.nextId + 1 })) := by
  obtain ⟨-, -, -, -, hf, -⟩ := State.issuer_eq_some.1 h.reads
  have hcf : q.counted.g.frags[q.c.f]? = some q.counted.f := by
    rw [Iss.counted_g h.reads, Iss.counted_f h.reads]
    simp [Iss.countGroup, Group.spendGrace, hf]
  rw [exec_join_pushes h hd]
  refine congrArg _ (Iss.counted_modGroup_congr h.reads hone ?_)
  simp only [Iss.pushEntry, Group.modFrag]
  rw [listModify_congr _ _ _ _ fun f hf' => ?_]
  rw [hcf] at hf'
  rw [← Option.some.inj hf', Iss.counted_mask h.reads]

theorem exec_join_deep (h : Issues (.join off) s q) (hd : 31 ≤ q.f.chain.length) :
    exec (.join off) s = .next (q.trapped { q.trap clsBrk with detail := 0 }) :=
  exec_brk h (exec_join off s) (if_pos (Iss.counted_deep h.reads hd))

/-- LEAVE is refused above the depth, and over a call entry. -/
theorem leaveRefused_iff (chain : List JEntry) (k : Nat) :
    (chain.length < k || (chain.take k).any (·.callEnt)) = true ↔ chain.length < k ∨ ∃ e ∈ chain.take k, e.callEnt = true := by
  rw [Bool.or_eq_true, decide_eq_true_iff, List.any_eq_true]

theorem exec_leave_refused (h : Issues (.leave n) s q)
    (hr : q.f.chain.length < n.toNat ∨ ∃ e ∈ q.f.chain.take n.toNat, e.callEnt = true) :
    exec (.leave n) s = .next (q.trapped { q.trap clsBrk with detail := n.toNat }) := by
  refine exec_brk h (exec_leave n s) (if_pos ?_)
  rw [Iss.counted_chain h.reads]
  exact (leaveRefused_iff _ _).2 hr

/-- LEAVE within the depth, over no call entry, parks the lanes of EXEC, where there are any. -/
theorem exec_leave_parks (h : Issues (.leave n) s q) (hle : n.toNat ≤ q.f.chain.length)
    (hno : ∀ x ∈ q.f.chain.take n.toNat, x.callEnt = false) :
    exec (.leave n) s = .next (if q.ex = 0 then q.counted.s else q.counted.depart
      [q.counted.parkedPart (q.f.chain.drop (n.toNat - 1)) (((q.f.chain.drop (n.toNat - 1)).head?.map (·.jaddr)).getD 0) .exitArrived]) := by
  have hr : ¬ (q.f.chain.length < n.toNat || (q.f.chain.take n.toNat).any (·.callEnt)) = true :=
    mt (leaveRefused_iff _ _).1 (not_or.2 ⟨Nat.not_lt.2 hle, by simpa using hno⟩)
  refine exec_moves h (exec_leave n s) ?_
  rw [Iss.counted_chain h.reads]
  exact if_neg hr

theorem exec_cont_refused (h : Issues (.cont off) s q) (hr : q.f.chain = [] ∨ ∃ e rest, q.f.chain = e :: rest ∧ e.callEnt = true) :
    exec (.cont off) s = .next (q.trapped { q.trap clsBrk with detail := 0 }) := by
  refine exec_brk h (exec_cont off s) ?_
  rw [Iss.counted_chain h.reads]
  rcases hr with h0 | ⟨e, rest, hc, he⟩
  · rw [h0]
  · rw [hc]
    exact if_pos he

theorem exec_cont_parks {e : JEntry} {rest : List JEntry} (h : Issues (.cont off) s q) (hc : q.f.chain = e :: rest) (he : e.callEnt = false) :
    exec (.cont off) s = .next (if q.ex = 0 then q.counted.s else q.counted.depart
      [q.counted.parkedPart q.f.chain (q.target off) (.contArrived (q.target off))]) := by
  refine exec_moves h (exec_cont off s) ?_
  rw [Iss.counted_chain h.reads, Iss.counted_target h.reads, hc]
  exact if_neg (by simp [he])

end

/-- JOIN, LEAVE and CONT as R191 to R193 give them; JOIN's entry where one team has the issuing identity. -/
theorem joinLeaveCont_of_one_team (s : State) (q : Iss) (n : BitVec 4) (off : BitVec 21) :
    let target := q.c.addr + off.signExtend 64 * 4
    let brk := fun (k : Nat) => Host.Outcome.next (q.trapped { q.trap clsBrk with detail := k })
    let parked := fun (chain : List JEntry) (pc : DWord) (p : Park) =>
      { q.counted.f with mask := q.ex, chain := chain, pc := pc, park := p, slot := none, count := 0 }
    (Issues (.join off) s q → (∀ t ∈ q.s.teams, t.id = q.c.team → t = q.t) → q.f.chain.length < 31 →
        exec (.join off) s = .next (q.counted.modGroup (fun g =>
          { (g.modFrag q.c.f (fun f => { f with
              chain := { id := q.counted.g.nextId, jaddr := target, key := q.lid (lowPos q.f.mask), callEnt := false } :: f.chain })) with
            nextId := g.nextId + 1 })))
    ∧ (Issues (.join off) s q → 31 ≤ q.f.chain.length → exec (.join off) s = brk 0)
    ∧ (Issues (.leave n) s q → q.f.chain.length < n.toNat ∨ (∃ e ∈ q.f.chain.take n.toNat, e.callEnt = true) → exec (.leave n) s = brk n.toNat)
    ∧ (∀ e rest, Issues (.leave n) s q → q.f.chain.drop (n.toNat - 1) = e :: rest → n ≠ 0 → (∀ x ∈ q.f.chain.take n.toNat, x.callEnt = false) →
        q.ex ≠ 0 → exec (.leave n) s = .next (q.counted.depart [parked (e :: rest) e.jaddr .exitArrived]))
    ∧ (Issues (.leave n) s q → n.toNat ≤ q.f.chain.length → (∀ x ∈ q.f.chain.take n.toNat, x.callEnt = false) → q.ex = 0 →
        exec (.leave n) s = .next q.counted.s)
    ∧ (Issues (.cont off) s q → q.f.chain = [] ∨ (∃ e rest, q.f.chain = e :: rest ∧ e.callEnt = true) → exec (.cont off) s = brk 0)
    ∧ (∀ e rest, Issues (.cont off) s q → q.f.chain = e :: rest → e.callEnt = false → exec (.cont off) s =
        .next (if q.ex = 0 then q.counted.s else q.counted.depart [parked q.f.chain target (.contArrived target)])) := by
  intro target brk parked
  refine ⟨exec_join_of_one_team, exec_join_deep, exec_leave_refused, fun e rest h hdrop _ hno hex => ?leaves,
    fun h hle hno hex => ?leaveEmpty, exec_cont_refused, fun e rest h hc he => ?conts⟩
  case leaves =>
    have hle : n.toNat ≤ q.f.chain.length := by
      have hlen := congrArg List.length hdrop
      rw [List.length_drop, List.length_cons] at hlen
      omega
    rw [exec_leave_parks h hle hno, if_neg hex, Iss.counted_parkedPart h.reads, hdrop]
    rfl
  case leaveEmpty => rw [exec_leave_parks h hle hno, if_pos hex]
  case conts => rw [exec_cont_parks h hc he, Iss.counted_parkedPart h.reads]; rfl

/-! ### Two teams of one identity -/

/-- Two teams of identity 0, the second one entry further; the first issues. -/
def twinState : State :=
  let t := newTeam wordGrid 0 32 0
  { State.reset with teams := [t, t.modGroup 0 (fun g => { g with nextId := g.nextId + 1 })], cur := some branchCur }

/-- The form of JOIN. -/
def joinForm : Form := { branchForm with major := 0x23, noExec := true }

/-- JOIN as the first of the two teams issues it. -/
def twinIss : Iss :=
  let s := twinState.atIssue (.join 0) branchCur
  let t := (s.team? 0).getD checkedTeam
  let g := (t.body.groups[0]?).getD { role := 0, first := 0, count := 0, pipe := 0 }
  let f := (g.frags[0]?).getD { mask := 0, pc := 0 }
  { c := branchCur, s := s, t := t, g := g, f := f, fm := joinForm, ex := execMask t g f none }

theorem twinIss_issues : Issues (.join 0) twinState twinIss where
  form := rfl
  issuer := by decide +kernel
  reads := State.issuer_eq_some.2 ⟨rfl, rfl, by decide +kernel, by decide +kernel, by decide +kernel, rfl, rfl, rfl⟩
  noBreakpoint := by decide +kernel
  legal := by decide +kernel
  apart := rfl
  sound := by decide +kernel
  closed := by decide +kernel

/-- The identity of the topmost entry of the second team's first fragment. -/
def State.secondEntry (s : State) : Option Nat :=
  (((s.teams[1]?).bind (fun t => t.body.groups[0]?)).bind (fun g => g.frags[0]?)).bind (fun f => f.chain.head?.map (·.id))

/-- Refutes O21: the statement gives the new entry the identity that the group found first has next, and does not leave out a state of two teams of
one identity, where JOIN gives the entry of each the identity that its own group has next: 1 in the second team, where the statement gives 0.
`joinLeaveCont_of_one_team` is the same statement without such states. -/
theorem not_joinLeaveCont : ¬ Obligations.JoinLeaveCont := by
  intro h
  obtain ⟨hjoin, -⟩ := h twinState twinIss 0 0
  have hd : twinIss.f.chain.length < 31 := by decide +kernel
  have hstates := Host.Outcome.next.inj ((exec_join_pushes twinIss_issues hd).symm.trans (hjoin twinIss_issues hd))
  exact absurd (congrArg State.secondEntry hstates) (by decide +kernel)

end Sys2Proof.Machine
end

section
namespace Sys2Proof.Machine

/-! ### Calls and returns (R194) -/

/-- The targets that CALLI accepts: aligned, and with no bit of [63:52]. -/
theorem callTargetOk_iff (x : DWord) : callTargetOk x = true ↔ x.toNat % 4 = 0 ∧ x.toNat < 2 ^ 52 := by
  have hx := x.isLt
  simp only [callTargetOk, Bool.and_eq_true, beq_iff_eq, bitsOf, natBits_eq]
  omega

/-- What is found in a rising list is the lowest that satisfies the test. -/
theorem find?_eq_some_of_lowest {l : List Nat} {p : Nat → Bool} {i : Nat} (hs : l.Pairwise (· < ·)) (hi : i ∈ l) (hp : p i = true)
    (hlow : ∀ j ∈ l, j < i → p j = false) : l.find? p = some i := by
  obtain ⟨as, bs, rfl⟩ := List.append_of_mem hi
  refine List.find?_eq_some_iff_append.2 ⟨hp, as, bs, rfl, fun a ha => ?_⟩
  have hlt : a < i := (List.pairwise_append.1 hs).2.2 a ha i List.mem_cons_self
  rw [hlow a (List.mem_append_left _ ha) hlt, Bool.not_false]

theorem maskList_rising (m : Mask) : (maskList m).Pairwise (· < ·) := List.Pairwise.filter _ List.pairwise_lt_range

theorem exec_call (off : BitVec 21) (s : State) : exec (.call off) s = execCall off s := rfl
theorem exec_calli (a : Code) (s : State) : exec (.calli a) s = execCalli a s := rfl
theorem exec_ret (s : State) : exec .ret s = execRet s := rfl

section
variable {s : State} {q : Iss} {off : BitVec 21} {a : Code}

theorem exec_call_sends (h : Issues (.call off) s q) (hd : q.f.chain.length < 31) :
    exec (.call off) s = .next (if q.ex = 0 then q.counted.s else q.counted.callTo [(q.target off, q.ex)]) := by
  refine exec_moves h (exec_call off s) ?_
  rw [if_neg (Iss.counted_shallow h.reads hd), Iss.counted_target h.reads, Iss.counted_ex h.reads]

theorem exec_call_deep (h : Issues (.call off) s q) (hd : 31 ≤ q.f.chain.length) :
    exec (.call off) s = .next (q.trapped { q.trap clsBrk with detail := 0 }) :=
  exec_brk h (exec_call off s) (if_pos (Iss.counted_deep h.reads hd))

/-- Where every target is accepted, CALLI finds none that is not. -/
theorem Iss.counted_targets_ok {fm : Form} (h : s.issuer fm = some q) (hok : ∀ i ∈ q.lanes, callTargetOk (q.a64 i) = true) :
    q.counted.lanes.find? (fun i => !callTargetOk (q.counted.a64 i)) = none := by
  rw [Iss.counted_lanes h, Iss.counted_a64 h]
  exact List.find?_eq_none.2 fun i hi => by simp [hok i hi]

theorem exec_calli_sends (h : Issues (.calli a) s q) (hok : ∀ i ∈ q.lanes, callTargetOk (q.a64 i) = true)
    (hd : q.f.chain.length < 31) :
    exec (.calli a) s = .next (if q.ex = 0 then q.counted.s else q.counted.callTo q.counted.targetGroups) := by
  refine exec_moves h (exec_calli a s) ?_
  rw [Iss.counted_targets_ok h.reads hok]
  exact if_neg (Iss.counted_shallow h.reads hd)

theorem exec_calli_deep (h : Issues (.calli a) s q) (hok : ∀ i ∈ q.lanes, callTargetOk (q.a64 i) = true)
    (hd : 31 ≤ q.f.chain.length) : exec (.calli a) s = .next (q.trapped { q.trap clsBrk with detail := 0 }) := by
  refine exec_brk h (exec_calli a s) ?_
  rw [Iss.counted_targets_ok h.reads hok]
  exact if_pos (Iss.counted_deep h.reads hd)

/-- The lowest lane whose target is not accepted takes the trap. -/
theorem exec_calli_refused {i : Nat} (h : Issues (.calli a) s q) (hi : i ∈ q.lanes)
    (hbad : ¬callTargetOk (q.a64 i) = true)
    (hlow : ∀ j ∈ q.lanes, j < i → callTargetOk (q.a64 j) = true) :
    exec (.calli a) s = .next (q.trapped (q.trapAt clsIllegal i)) := by
  have hfind : q.lanes.find? (fun i => !callTargetOk (q.a64 i)) = some i := by
    refine find?_eq_some_of_lowest (maskList_rising q.ex) hi ?_ fun j hj hlt => ?_
    · simp [hbad]
    · simp [hlow j hj hlt]
  refine (exec_calli a s).trans (issue_of_trap h ?_)
  rw [Iss.counted_lanes h.reads, Iss.counted_a64 h.reads, hfind]
  exact congrArg Eff.trap (Iss.counted_trapAt h.reads _ _)

theorem exec_ret_parks {e : JEntry} {rest : List JEntry} (h : Issues .ret s q) (hc : q.f.chain.dropWhile (fun x => !x.callEnt) = e :: rest) :
    exec .ret s = .next (if q.ex = 0 then q.counted.s else q.counted.depart
      [{ q.counted.f with mask := q.ex, chain := e :: rest, pc := e.jaddr, park := .exitArrived, slot := none, count := 0 }]) := by
  refine exec_moves h (exec_ret s) ?_
  rw [Iss.counted_chain h.reads, hc, ← Iss.counted_parkedPart h.reads]

/-- A chain without a call entry holds nothing from its topmost call entry on. -/
theorem dropWhile_of_no_call {chain : List JEntry} (hc : ∀ e ∈ chain, e.callEnt = false) : chain.dropWhile (fun e => !e.callEnt) = [] := by
  induction chain with
  | nil => rfl
  | cons e rest ih =>
    rw [List.dropWhile_cons, hc e List.mem_cons_self, Bool.not_false, if_pos rfl]
    exact ih fun x hx => hc x (List.mem_cons_of_mem e hx)

theorem exec_ret_without_call (h : Issues .ret s q) (hc : ∀ e ∈ q.f.chain, e.callEnt = false) :
    exec .ret s = .next (q.trapped { q.trap clsBrk with detail := 0 }) := by
  refine exec_brk h (exec_ret s) ?_
  rw [Iss.counted_chain h.reads, dropWhile_of_no_call hc]

end

/-- Settles O22: CALL and RET by their chain, CALLI by whether a target is refused and then by its chain. -/
theorem callsAndReturns : Obligations.CallsAndReturns := by
  intro s q a off brk ok
  have hok : ∀ x, ok x ↔ callTargetOk x = true := fun x => (callTargetOk_iff x).symm
  simp only [hok]
  exact ⟨exec_call_sends, exec_call_deep, exec_calli_sends, exec_calli_deep, fun _ => exec_calli_refused, fun _ _ => exec_ret_parks,
    exec_ret_without_call⟩

/-! ### EXIT, YIELD and NOP (R189, R195, R196) -/

theorem exec_exit (l : Option Word) (a b : Code) (s : State) : exec (.exit l a b) s = execExit l a b s := rfl
theorem exec_yield (s : State) : exec .yield s = execYield s := rfl
theorem exec_nop (s : State) : exec .nop s = execNop s := rfl

/-- A lane of EXEC after EXIT: exited without a successor, else restarted with the blocks that keep names (R196). -/
def Lane.afterExit (succ keep : Word) (ln : Lane) : Lane := if succ = 0 then { ln with exited := true } else ln.restart keep

/-- The issue with its lanes of EXEC exited. -/
def Iss.exitLanes (q : Iss) (succ keep : Word) : Iss :=
  { q with s := q.modTeam (fun t => q.lanes.foldl (fun t i => t.modLane (q.lid i) (Lane.afterExit succ keep)) t) }

/-- What departs at EXIT: nothing without a successor, else one fragment that starts there. -/
def Iss.successor (q : Iss) (succ : Word) : List Frag := if succ = 0 then [] else [{ mask := q.ex, pc := q.c.addr + succ.signExtend 64 * 4 }]

theorem execExit_eq (l : Option Word) (a b : Code) (s : State) :
    execExit l a b s = issue (.exit l a b) (fun q =>
      if q.f.jr.length ≠ 0 then .trap (q.trap clsIllegal)
      else if q.ex = 0 then .ok q.s
      else .ok ((q.exitLanes (q.uni .a) (q.uni .b)).depart (q.successor (q.uni .a)))) s := rfl

section
variable {s : State} {q : Iss} {l : Option Word} {a b : Code}

/-- The lanes of EXEC and their lids are those from before the issue was counted. -/
theorem Iss.counted_exitLanes {fm : Form} (h : s.issuer fm = some q) (succ keep : Word) :
    q.counted.exitLanes succ keep = { q.counted with
      s := q.counted.modTeam (fun t => q.lanes.foldl (fun t i => t.modLane (q.lid i) (Lane.afterExit succ keep)) t) } := by
  rw [Iss.exitLanes, Iss.counted_lanes h, Iss.counted_lid h]

theorem Iss.counted_successor {fm : Form} (h : s.issuer fm = some q) (succ : Word) : q.counted.successor succ = q.successor succ := by
  rw [Iss.successor, Iss.counted_ex h, Iss.counted_c h, Iss.successor]

/-- Outside the handler the lanes of EXEC depart, where there are any. -/
theorem exec_exit_outside (h : Issues (.exit l a b) s q) (hj : q.f.jr = []) :
    exec (.exit l a b) s = .next (if q.ex = 0 then q.counted.s
      else (q.counted.exitLanes (q.uni .a) (q.uni .b)).depart (q.successor (q.uni .a))) := by
  have hout : ¬ q.counted.f.jr.length ≠ 0 := by simp [Iss.counted_depth h.reads, hj]
  refine exec_moves h ((exec_exit l a b s).trans (execExit_eq l a b s)) ?_
  rw [if_neg hout, Iss.counted_uni h.reads, Iss.counted_successor h.reads]

/-- Inside the handler EXIT is ILLEGAL. -/
theorem exec_exit_inside (h : Issues (.exit l a b) s q) (hj : q.f.jr ≠ []) : exec (.exit l a b) s = .next (q.trapped (q.trap clsIllegal)) := by
  refine exec_illegal_of_eff h (exec_exit l a b s) (if_pos ?_)
  rw [Iss.counted_depth h.reads]
  exact mt List.eq_nil_of_length_eq_zero hj

end

/-- Settles O23: EXIT by whether it stands inside the handler and whether EXEC is empty; YIELD and NOP always have their effect. -/
theorem exitYieldNop : Obligations.ExitYieldNop := by
  intro s q l a b succ keep
  refine ⟨fun h hj h0 => ?departs, fun h hj h0 => ?empty, exec_exit_inside, fun h => ?yield, fun h => ?nop⟩
  case departs =>
    rw [exec_exit_outside h hj, if_neg h0, Iss.counted_exitLanes h.reads]
    rfl
  case empty => exact (exec_exit_outside h hj).trans (congrArg _ (if_pos h0))
  case yield => exact (exec_yield s).trans ((issueOk_eq h _).trans (by rw [Iss.counted_mask h.reads]))
  case nop => exact (exec_nop s).trans (issueOk_eq h _)

end Sys2Proof.Machine
end

section
namespace Sys2Proof.Machine

/-! ### Barriers and tasks (R223-R226, R229, R232, R371) -/

theorem exec_bar (n : BitVec 4) (s : State) :
    exec (.bar n) s = issue (.bar n) (fun q => q.arrive n.toNat false (fun p => q.modFrag (fun f => { f with wait := .barrier n.toNat p }))) s := rfl
theorem exec_barTask (n : BitVec 4) (s : State) :
    exec (.barTask n) s = issue (.barTask n) (fun q => q.arrive n.toNat true (fun p => q.modFrag (fun f => { f with wait := .barrier n.toNat p }))) s := rfl
theorem exec_bara (d : Code) (n : BitVec 4) (s : State) :
    exec (.bara d n) s = issue (.bara d n) (fun q => q.arrive n.toNat false (fun p => q.result (fun _ => BitVec.ofNat 32 p))) s := rfl
theorem exec_barw (l : Option Word) (a : Code) (n : BitVec 4) (s : State) : exec (.barw l a n) s = execBarw l a n s := rfl
theorem exec_barc (l : Option Word) (a : Code) (n : BitVec 4) (s : State) : exec (.barc l a n) s = execBarc l a n s := rfl
theorem exec_taskend (s : State) : exec .taskend s = execTaskend s := rfl
theorem exec_safept (s : State) : exec .safept s = execSafept s := rfl

/-- An issue that nothing hinders, where the effect is to wait. -/
theorem issue_of_hold {i : Instr} {s : State} {q : Iss} {eff : Iss → Eff} {w : Wait} (h : Issues i s q) (he : eff q.counted = .hold w) :
    issue i eff s = .next (q.heldBack w) := by
  rw [issue_eq h, he]

/-! What an issue reads of the barriers and of the task barrier is what stood before it was counted. -/

section
variable {s : State} {fm : Form} {q : Iss} (h : s.issuer fm = some q)
include h

theorem Iss.counted_barriers : q.counted.t.body.barriers = q.t.body.barriers := by rw [Iss.counted_t h]; rfl
theorem Iss.counted_taskArr : q.counted.t.body.taskArr = q.t.body.taskArr := by rw [Iss.counted_t h]; rfl
theorem Iss.counted_task : q.counted.t.body.task = q.t.body.task := by rw [Iss.counted_t h]; rfl
theorem Iss.counted_hdr : q.counted.t.hdr = q.t.hdr := by rw [Iss.counted_t h]; rfl
theorem Iss.counted_role : q.counted.g.role = q.g.role := by rw [Iss.counted_g h]; rfl
theorem Iss.counted_fragLids : q.counted.fragLids = q.fragLids := by rw [Iss.fragLids, Iss.counted_mask h, Iss.counted_g h]; rfl
theorem Iss.counted_barcOk (bar : Barrier) (cfg : Word) : barcOk q.counted.t bar cfg = barcOk q.t bar cfg := by
  rw [barcOk, Iss.counted_hdr h, barcOk]

end

/-- An arrival where the participants hold the issuing role, for BAR.task every role (R223, R229). -/
def Iss.admits (q : Iss) (bar : Barrier) (task : Bool) : Prop :=
  bar.roles.testBit q.g.role = true ∧ (task = true → bar.roles &&& q.t.hdr.allRoles = q.t.hdr.allRoles)

/-- The state once the lids of the issuing fragment are among a barrier's arrivals and the barrier is tested (R224, R225, R229). -/
def Iss.arrived (q : Iss) (n : Nat) (task : Bool) (keep : State) : State :=
  ((((keep.modTeam q.c.team (fun t => t.modBody (fun bd =>
    { bd with barriers := listModify bd.barriers n (fun b => { b with arr := joinLids b.arr q.fragLids, task := b.task || task }) }))).testBarrier
      q.c.team n).modGroup q.c.team q.c.g Group.fixSlots).stopIdle q.c.team)

/-- The test of an arrival for ILLEGAL. -/
theorem Iss.admits_iff (q : Iss) (bar : Barrier) (task : Bool) :
    (!bar.roles.testBit q.g.role || (task && bar.roles &&& q.t.hdr.allRoles != q.t.hdr.allRoles)) = true ↔ ¬q.admits bar task := by
  unfold Iss.admits
  cases bar.roles.testBit q.g.role
  · simp
  · cases task <;> simp

section
variable {s : State} {q : Iss} {i : Instr} {n : Nat} {bar : Barrier} {task : Bool} {keep : Iss → Nat → State}
  (he : exec i s = issue i (fun q => q.arrive n task (keep q)) s) (h : Issues i s q) (hb : q.t.body.barriers[n]? = some bar)
include h hb

/-- An arrival in the terms of the issue before it was counted. -/
theorem Iss.counted_arrive (k : Nat → State) :
    q.counted.arrive n task k =
      if (!bar.roles.testBit q.g.role || (task && bar.roles &&& q.t.hdr.allRoles != q.t.hdr.allRoles)) = true then .trap (q.trap clsIllegal)
      else if q.fragLids.any bar.arr.contains = true then .hold (.stall n bar.c)
      else .ok (q.arrived n task (k bar.c)) := by
  rw [Iss.arrive, Iss.counted_barriers h.reads, hb]
  simp only [Iss.counted_hdr h.reads, Iss.counted_role h.reads, Iss.counted_fragLids h.reads, Iss.counted_trap h.reads, Iss.counted_c h.reads]
  rfl

include he

/-- Where the participants admit it and none of its lids has arrived, the fragment arrives. -/
theorem exec_arrives (ha : q.admits bar task) (hf : q.fragLids.any bar.arr.contains = false) :
    exec i s = .next (q.arrived n task (keep q.counted bar.c)) :=
  he.trans (issue_of_ok h (by rw [Iss.counted_arrive h hb, if_neg (fun hn => (q.admits_iff bar task).1 hn ha), if_neg (by simp [hf])]))

/-- Where the participants do not admit it the arrival is ILLEGAL. -/
theorem exec_arrive_illegal (ha : ¬q.admits bar task) :
    exec i s = .next (q.trapped (q.trap clsIllegal)) :=
  he.trans (issue_of_trap h (by rw [Iss.counted_arrive h hb, if_pos ((q.admits_iff bar task).2 ha)]))

/-- Where one of its lids has arrived the fragment stalls. -/
theorem exec_arrive_stalls (ha : q.admits bar task) (hf : ¬q.fragLids.any bar.arr.contains = false) :
    exec i s = .next (q.heldBack (.stall n bar.c)) :=
  he.trans (issue_of_hold h (by rw [Iss.counted_arrive h hb, if_neg (fun hn => (q.admits_iff bar task).1 hn ha), if_pos (Bool.not_eq_false _ ▸ hf)]))

end

section
variable {s : State} {q : Iss} {l : Option Word} {a : Code} {n : BitVec 4} {bar : Barrier} (hb : q.t.body.barriers[n.toNat]? = some bar)
include hb

/-- BARW goes on where the phase has passed, and else waits. -/
theorem exec_barw_eq (h : Issues (.barw l a n) s q) :
    exec (.barw l a n) s = .next (if phasePassed bar.c ((q.uni .a).toNat % 2 ^ 16) then q.counted.s
      else q.counted.waitOn (.barrier n.toNat ((q.uni .a).toNat % 2 ^ 16))) := by
  rw [exec_barw, execBarw, issueOk_eq h]
  simp only [Iss.counted_barriers h.reads, hb, Iss.counted_uni h.reads]

/-- BARC sets the participants where the configuration is legal. -/
theorem exec_barc_sets (h : Issues (.barc l a n) s q) (hok : barcOk q.t bar (q.uni .a) = true) :
    exec (.barc l a n) s = .next (q.counted.modTeam (fun t => t.modBody (fun bd =>
      { bd with barriers := listModify bd.barriers n.toNat (fun b =>
        { b with roles := bitsOf (q.uni .a) 3 0, stream := (q.uni .a).getLsbD 4 }) }))) := by
  refine (exec_barc l a n s).trans (issue_of_ok h ?_)
  simp only [Iss.counted_barriers h.reads, hb, Iss.counted_uni h.reads, Iss.counted_barcOk h.reads]
  exact if_neg (by simp [hok])

theorem exec_barc_illegal (h : Issues (.barc l a n) s q) (hok : barcOk q.t bar (q.uni .a) = false) :
    exec (.barc l a n) s = .next (q.trapped (q.trap clsIllegal)) := by
  refine (exec_barc l a n s).trans (issue_of_trap h ?_)
  simp only [Iss.counted_barriers h.reads, hb, Iss.counted_uni h.reads, Iss.counted_barcOk h.reads, Iss.counted_trap h.reads]
  exact if_pos (by simp [hok])

end

section
variable {s : State} {q : Iss} (h : Issues .taskend s q)
include h

/-- TASKEND where one of its lids has arrived stalls at the task barrier. -/
theorem exec_taskend_stalls (hf : q.fragLids.any q.t.body.taskArr.contains = true) :
    exec .taskend s = .next (q.heldBack (.taskStall q.t.body.task)) := by
  refine (exec_taskend s).trans (issue_of_hold h ?_)
  rw [Iss.counted_fragLids h.reads, Iss.counted_taskArr h.reads, if_pos hf, Iss.counted_task h.reads]

/-- TASKEND else arrives, waits and tests the task barrier. -/
theorem exec_taskend_arrives (hf : q.fragLids.any q.t.body.taskArr.contains = false) :
    exec .taskend s = .next (((((q.counted.modFrag (fun f => { f with wait := .task })).modTeam q.c.team (fun t =>
      t.modBody (fun b => { b with taskArr := joinLids b.taskArr q.fragLids }))).testTaskBarrier q.c.team).modGroup q.c.team q.c.g
        Group.fixSlots).stopIdle q.c.team) := by
  refine (exec_taskend s).trans (issue_of_ok h ?_)
  rw [Iss.counted_fragLids h.reads, Iss.counted_taskArr h.reads, if_neg (by simp [hf]), Iss.counted_c h.reads]

end

/-- Settles O24: the arrivals by whether the participants admit them and whether a lid has arrived, BARC by its configuration, TASKEND by
whether a lid has arrived. -/
theorem barrierArrivals : Obligations.BarrierArrivals := by
  intro s q l d a n bar hb lids arrives takes every free ill cfg
  have plain : q.admits bar false ↔ takes := by simp [Iss.admits, takes]
  have whole : q.admits bar true ↔ takes ∧ every := by simp [Iss.admits, takes, every]
  simp only [List.forall_mem_cons, List.not_mem_nil, false_imp_iff, implies_true, and_true]
  refine ⟨fun h ht => exec_arrives (exec_bara d n s) h hb (plain.2 ht), fun h ht => exec_arrives (exec_bar n s) h hb (plain.2 ht),
    fun h ht he => exec_arrives (exec_barTask n s) h hb (whole.2 ⟨ht, he⟩),
    ⟨fun h ht => exec_arrive_illegal (exec_bara d n s) h hb (mt plain.1 ht), fun h ht => exec_arrive_illegal (exec_bar n s) h hb (mt plain.1 ht),
      fun h ht => exec_arrive_illegal (exec_barTask n s) h hb fun ha => ht (whole.1 ha).1⟩,
    fun h he => exec_arrive_illegal (exec_barTask n s) h hb fun ha => he (whole.1 ha).2,
    ⟨fun h ht => exec_arrive_stalls (exec_bara d n s) h hb (plain.2 ht), fun h ht => exec_arrive_stalls (exec_bar n s) h hb (plain.2 ht)⟩,
    fun h ht he => exec_arrive_stalls (exec_barTask n s) h hb (whole.2 ⟨ht, he⟩), exec_barw_eq hb, exec_barc_sets hb, exec_barc_illegal hb,
    exec_taskend_stalls, exec_taskend_arrives, fun h => (exec_safept s).trans (issueOk_eq h _)⟩

end Sys2Proof.Machine
end

section
namespace Sys2Proof.Machine

/-! ### Placement and resume (R206, R207, R376) -/

theorem exec_teamPlacement (gid : Nat) (s : State) : exec (.teamPlacement gid) s = execTeamPlacement gid s := rfl
theorem exec_teamResume (tid : Nat) (s : State) : exec (.teamResume tid) s = execTeamResume tid s := rfl

/-- A saved team that comes first: of the partition, and earlier in the grid or of an earlier grid that some core takes. -/
theorem State.before_iff (s : State) (part grid index : Nat) (y : Team) :
    s.before part grid index y = true ↔
      y.isSaved = true ∧ y.part = part ∧ ((y.grid = grid ∧ y.index < index) ∨ (y.grid < grid ∧ (s.resumeCore y).isSome = true)) := by
  simp [State.before, and_assoc]

/-- No saved team comes before a team of a grid and index. -/
def State.NoneBefore (s : State) (part grid index : Nat) : Prop :=
  ∀ y ∈ s.teams, ¬(y.isSaved = true ∧ y.part = part ∧ ((y.grid = grid ∧ y.index < index) ∨ (y.grid < grid ∧ (s.resumeCore y).isSome = true)))

theorem State.NoneBefore.any {s : State} {part grid index : Nat} (h : s.NoneBefore part grid index) :
    s.teams.any (s.before part grid index) = false :=
  List.any_eq_false.2 fun y hy => mt (s.before_iff part grid index y).1 (h y hy)

/-- The next team of a grid stands on the best core. -/
theorem execTeamPlacement_placed {s : State} {gid c w : Nat} {g : Grid} (hg : s.grid? gid = some g) (hlt : g.placed < g.teams)
    (hfirst : s.NoneBefore g.part g.id g.placed) (hbest : s.bestCore g.part s.nextId g.tenant g.hdr g.hdr.wreq = some (c, w)) :
    execTeamPlacement gid s = .next (({ s with teams := s.teams ++ [newTeam g s.nextId w (s.firstPipe c s.nextId)], nextId := s.nextId + 1 }.modGrid gid
      (fun g => { g with placed := g.placed + 1 })).stand s.nextId c) := by
  have hdue : ¬(decide (g.teams ≤ g.placed) || s.teams.any (s.before g.part g.id g.placed)) = true := by
    rw [hfirst.any]
    simpa using hlt
  simp only [execTeamPlacement, hg, if_neg hdue, hbest]

/-- A saved team stands again on the core that takes it. -/
theorem execTeamResume_stands {s : State} {tid c w : Nat} {t : Team} (ht : s.team? tid = some t) (hsaved : t.isSaved = true)
    (hfirst : s.NoneBefore t.part t.grid t.index) (hcore : s.resumeCore t = some (c, w)) :
    execTeamResume tid s = .next (s.standAgain tid c w) := by
  have hdue : ¬(!t.isSaved || s.teams.any (s.before t.part t.grid t.index)) = true := by
    rw [hfirst.any, hsaved]
    decide
  simp only [execTeamResume, ht, if_neg hdue, hcore]

/-! ### Requests of pre-emption (R368-R371, R379) -/

theorem exec_preemptVacate (cmd : Nat) (s : State) : exec (.preemptVacate cmd) s = execPreemptVacate cmd s := rfl
theorem exec_preemptResize (cmd : Nat) (s : State) : exec (.preemptResize cmd) s = execPreemptResize cmd s := rfl
theorem exec_preemptReleaseHold (cmd : Nat) (s : State) : exec (.preemptReleaseHold cmd) s = execPreemptReleaseHold cmd s := rfl

section
variable {s : State} {cmd : Nat} {x : Command}

/-- The command of a request whose turn it is. -/
theorem State.preemptCmd_of_turn {kind : Nat → Bool} (hc : s.cmdOf cmd 0x20 = some x) (hk : kind x.request.kind = true)
    (hturn : s.preempting x.request.part = false ∧ s.preemptBefore x = false) : s.preemptCmd cmd kind = some (x, x.request) := by
  obtain ⟨hfree, hfirst⟩ := hturn
  simp [State.preemptCmd, hc, hk, hfree, hfirst]

/-- A request begins: it is in progress and its command started, and every victim team is given its grace. -/
theorem State.beginPreempt_eq (hc : s.cmdOf cmd 0x20 = some x) (r : Request) (victims : List Nat) :
    s.beginPreempt x r victims = (s.victimTeams victims).foldl (fun s t => s.grant t.id r.grace)
      (({ s with preempts := s.preempts ++ [{ part := r.part, victims := victims, grace := r.grace, hold := r.hold, remove := r.clmask, command := cmd }] }
        : State).modCmd cmd (fun x => { x with started := true })) := by
  rw [State.beginPreempt, State.cmdOf_id hc]
  rfl

variable (hc : s.cmdOf cmd 0x20 = some x) (hturn : s.preempting x.request.part = false ∧ s.preemptBefore x = false)
include hc hturn

theorem execPreemptVacate_refused (hk : x.request.kind = 0 ∨ 2 < x.request.kind) (hbad : s.refuses x.request = true) :
    execPreemptVacate cmd s = .next (s.finishCmd cmd 7 0) := by
  rw [execPreemptVacate, State.preemptCmd_of_turn hc (by simpa using hk) hturn]
  exact if_pos hbad

theorem execPreemptVacate_begins (hk : x.request.kind = 0) (hok : ¬s.refuses x.request = true) :
    execPreemptVacate cmd s = .next (s.beginPreempt x x.request (s.victimsOf ((s.parts[x.request.part]?).getD {}) x.request.ncores)) := by
  rw [execPreemptVacate, State.preemptCmd_of_turn hc (by simp [hk]) hturn]
  exact if_neg hok

theorem execPreemptResize_refused (hk : x.request.kind = 1) (hbad : s.refuses x.request = true) :
    execPreemptResize cmd s = .next (s.finishCmd cmd 7 0) := by
  rw [execPreemptResize, State.preemptCmd_of_turn hc (by simp [hk]) hturn]
  exact if_pos hbad

theorem execPreemptResize_begins (hk : x.request.kind = 1) (hok : ¬s.refuses x.request = true) :
    execPreemptResize cmd s = .next (s.beginPreempt x x.request (s.withPartners (clusterCores (maskClusters x.request.clmask)))) := by
  rw [execPreemptResize, State.preemptCmd_of_turn hc (by simp [hk]) hturn]
  exact if_neg hok

theorem execPreemptReleaseHold_refused (hk : x.request.kind = 2) (hbad : s.refuses x.request = true) :
    execPreemptReleaseHold cmd s = .next (s.finishCmd cmd 7 0) := by
  rw [execPreemptReleaseHold, State.preemptCmd_of_turn hc (by simp [hk]) hturn]
  exact if_pos hbad

theorem execPreemptReleaseHold_frees (hk : x.request.kind = 2) (hok : ¬s.refuses x.request = true) :
    execPreemptReleaseHold cmd s = .next ((s.setHeld (clusterCores (maskClusters x.request.clmask)) false).finishCmd cmd 0 0) := by
  rw [execPreemptReleaseHold, State.preemptCmd_of_turn hc (by simp [hk]) hturn]
  exact if_neg hok

end

/-! ### The save (R372-R377, R385, R392) -/

theorem exec_contextSave (part : Nat) (s : State) : exec (.contextSave part) s = execContextSave part s := rfl

/-- Some victim teams drained (R372). -/
def State.drainVictims (s : State) (vs : List Team) : State := vs.foldl (fun u t => (u.withdraw t.id).drainTeam t.id) s

/-- The drain has raised a trap in a task of some victim teams (R385). -/
def State.rollsBack (s : State) (vs : List Team) : Bool := s.teams.any (fun t => t.rollback.isSome && vs.any (fun v => v.id == t.id))

theorem State.rollsBack_iff (s : State) (vs : List Team) :
    s.rollsBack vs = true ↔ ∃ t ∈ s.teams, t.rollback.isSome = true ∧ ∃ v ∈ vs, v.id = t.id := by
  simp [State.rollsBack]

/-- Drained victim teams saved, what no image holds written to the save area of the partition's owner, and the request over (R373-R377). -/
def State.saveVictims (s : State) (part : Nat) (p : Preempt) (vs : List Team) : State :=
  let ctx := s.contextOf s.nextId
  let owner := ((s.parts[part]?).map (fun (x : Partition) => x.owner)).getD 0
  let areas := (p.victims.filter (fun c => !s.imageFits c)).map (fun c =>
    (s.saveAt owner c, contextData s.freeCount (ctx c) ((s.teamsOn c).filter (fun t => t.hdr.level == 0))))
  let u : State := areas.foldl (fun u a => u.writeSave a.1 a.2)
    (vs.foldl (fun u t => u.saveVictim s.imageFits ctx t.id) { s with nextId := s.nextId + 1 })
  { u with preempts := u.preempts.filter (fun y => y.part != part) }

section
variable {s : State} {part : Nat} {p : Preempt} (hp : s.preempts.find? (fun y => y.part == part) = some p)
  (hready : ∀ t ∈ s.victimTeams p.victims, t.stoppedWhole = true ∧ s.pairHalted t = false)
include hp hready

/-- Where every victim team has stopped, a trap of the drain comes first, and else the teams are saved. -/
theorem execContextSave_ready :
    execContextSave part s =
      let vs := s.victimTeams p.victims
      let u := s.drainVictims vs
      if u.rollsBack vs then .next u
      else
        let u := u.saveVictims part p vs
        let u := if p.remove = 0 then (if p.hold then u.setHeld p.victims true else u) else u.removeClusters part p.remove
        .next (u.finishCmd p.command 0 0) := by
  have hall : ¬(!(s.victimTeams p.victims).all (fun t => t.stoppedWhole && !s.pairHalted t)) = true := by
    simpa using hready
  rw [execContextSave, hp]
  exact if_neg hall

theorem execContextSave_drained (hhit : (s.drainVictims (s.victimTeams p.victims)).rollsBack (s.victimTeams p.victims) = true) :
    execContextSave part s = .next (s.drainVictims (s.victimTeams p.victims)) :=
  (execContextSave_ready hp hready).trans (if_pos hhit)

theorem execContextSave_saved (hhit : ¬(s.drainVictims (s.victimTeams p.victims)).rollsBack (s.victimTeams p.victims) = true) :
    execContextSave part s =
      let u := (s.drainVictims (s.victimTeams p.victims)).saveVictims part p (s.victimTeams p.victims)
      .next ((if p.remove ≠ 0 then u.removeClusters part p.remove else if p.hold then u.setHeld p.victims true else u).finishCmd p.command 0 0) := by
  refine (execContextSave_ready hp hready).trans ((if_neg hhit).trans ?_)
  by_cases h0 : p.remove = 0 <;> simp [h0]

end

/-- Settles O43: placement and resume where they are due, each request refused or begun, the save by whether the drain raised a trap. -/
theorem placementAndPreemption : Obligations.PlacementAndPreemption := by
  intro s cmd gid tid part g t c w x p r placed first turn done bad begins vs drained hit ctx owner areas saved ready ended
  refine ⟨fun hg hlt hf hb => ?placed, fun ht hs hf hc => ?resumed, fun hc hk hturn hbad => ?vacateBad, fun hc hk hturn hok => ?vacate,
    fun hc hk hturn hbad => ?resizeBad, fun hc hk hturn hok => ?resize, fun hc hk hturn hbad => ?releaseBad, fun hc hk hturn hok => ?release,
    fun hp hready hhit => ?drains, fun hp hready hhit => ?saves⟩
  case placed => exact (exec_teamPlacement gid s).trans (execTeamPlacement_placed hg hlt hf hb)
  case resumed => exact (exec_teamResume tid s).trans (execTeamResume_stands ht hs hf hc)
  case vacateBad => exact (exec_preemptVacate cmd s).trans (execPreemptVacate_refused hc hturn hk hbad)
  case vacate =>
    rw [exec_preemptVacate, execPreemptVacate_begins hc hturn hk hok, State.beginPreempt_eq hc]
  case resizeBad => exact (exec_preemptResize cmd s).trans (execPreemptResize_refused hc hturn hk hbad)
  case resize =>
    rw [exec_preemptResize, execPreemptResize_begins hc hturn hk hok, State.beginPreempt_eq hc]
  case releaseBad => exact (exec_preemptReleaseHold cmd s).trans (execPreemptReleaseHold_refused hc hturn hk hbad)
  case release => exact (exec_preemptReleaseHold cmd s).trans (execPreemptReleaseHold_frees hc hturn hk hok)
  case drains => exact (exec_contextSave part s).trans (execContextSave_drained hp hready ((State.rollsBack_iff _ _).2 hhit))
  case saves => exact (exec_contextSave part s).trans (execContextSave_saved hp hready (mt (State.rollsBack_iff _ _).1 hhit))

end Sys2Proof.Machine
end

section
namespace Sys2Proof.Machine

/-! ### Rails and thermal steps (R426, R427) -/

theorem exec_railRaiseSettled (rail : Nat) (s : State) : exec (.railRaiseSettled rail) s = execRailRaiseSettled rail s := rfl
theorem exec_railLowerHoldExpiry (rail : Nat) (s : State) : exec (.railLowerHoldExpiry rail) s = execRailLowerHoldExpiry rail s := rfl
theorem exec_thermalStep (k : Nat) (celsius : Int) (s : State) : exec (.thermalStep k celsius) s = execThermalStep k celsius s := rfl
theorem exec_thermalShutdown (k : Nat) (s : State) : exec (.thermalShutdown k) s = execThermalShutdown k s := rfl
theorem exec_brownout (s : State) : exec .brownout s = execBrownout s := rfl
theorem exec_chargeRecordUpdate (k : Nat) (s : State) : exec (.chargeRecordUpdate k) s = execChargeRecordUpdate k s := rfl
theorem exec_l2Window (bank : Nat) (s : State) : exec (.l2Window bank) s = execL2Window bank s := rfl
theorem exec_powerUp (s : State) : exec .powerUp s = .next s.powerLost.bringUp := rfl
theorem exec_pfFlr (s : State) : exec .pfFlr s = execPfFlr s := rfl
theorem exec_vfFlr (v : Nat) (s : State) : exec (.vfFlr v) s = execVfFlr v s := rfl

section
variable {s : State} {rail : Nat} {r : Rail} (hr : s.rails[rail]? = some r)
include hr

theorem execRailRaiseSettled_due (h : r.raising = true) :
    execRailRaiseSettled rail s = .next (s.modRail rail (fun r => { r with mv := levelMv r.sought, raising := false })).revote := by
  simp only [execRailRaiseSettled, hr, h, if_true]

theorem execRailLowerHoldExpiry_due (h : r.hold = true) :
    execRailLowerHoldExpiry rail s = .next (s.modRail rail (fun r => { r with hold := false, falling := true })).revote := by
  simp only [execRailLowerHoldExpiry, hr, h, if_true]

end

theorem execThermalStep_due {s : State} {k : Nat} {celsius : Int} (hup : s.up = true) (hc : celsius < 125) (hk : k < 48) :
    execThermalStep k celsius s = .next (s.modCluster k (fun c =>
      { c with thermal := max (thermalUp celsius) (thermalFall celsius c.thermal) })).revote :=
  if_pos (by simp [hup, hc, hk])

/-! ### Ramps of the rails (R429, R430) -/

theorem State.setRails_setRails (s : State) (a b c d : Nat) : (s.setRails a b).setRails c d = s.setRails c d := by
  simp [State.setRails, Function.comp_def]

/-- A ramp comes to its last step. -/
theorem State.setRails_foldl (l : List (Nat × Nat)) (v : Nat × Nat) (s : State) :
    (l ++ [v]).foldl (fun s v => s.setRails v.1 v.2) s = s.setRails v.1 v.2 := by
  rw [State.setRails_ramp]
  induction l generalizing s with
  | nil => rfl
  | cons x l ih => rw [List.foldl_cons, ih, State.setRails_setRails]

theorem rampDown_last : rampDown = rampDown.take 38 ++ [(0, 0)] := by decide

theorem rampUp_last : rampUp = rampUp.take 38 ++ [(retentionMv, levelMv 6)] := by decide

/-- Power off leaves every clock stopped and every rail at 0 V. -/
theorem State.powerOff_eq (s : State) :
    s.powerOff = ({ s.clocksOff with
      rails := s.rails.map (fun r => { r with mv := min r.mv (levelMv 6), sought := 6, hold := false, raising := false, falling := false }) }
      : State).setRails 0 0 := by
  rw [State.powerOff, rampDown_last]
  exact State.setRails_foldl _ _ _

/-- Power lost leaves the trap log, the fuses and the firmware slots, and the rails risen again. -/
theorem State.powerLost_eq (s : State) :
    s.powerLost = ({ s.writeHead.blank with
      hm := { s.writeHead.blank.hm with brownout := false },
      boot := { slots := s.writeHead.blank.boot.slots, count := s.writeHead.blank.boot.count } } : State).setRails retentionMv (levelMv 6) := by
  rw [State.powerLost, rampUp_last]
  exact State.setRails_foldl _ _ _

/-! ### Heads of the trap log (R394, R398, R400) -/

theorem State.writeHead_log (s : State) : s.writeHead.hm.log = s.hm.log := by
  unfold State.writeHead
  split <;> rfl

theorem State.writeHead_seq (s : State) : s.writeHead.hm.seq = s.hm.seq := by
  unfold State.writeHead
  split <;> rfl

/-- The state of a part whose brownout record is logged. -/
def State.brownedOut (s : State) : State :=
  let u := s.commitRecord { cls := 5, outcome := 4 }
  { u with hm := { u.hm with brownout := true } }

theorem execBrownout_due {s : State} (h : s.hm.brownout = false) : execBrownout s = .next s.brownedOut := if_neg (by simp [h])

theorem State.brownedOut_seq {s : State} (h : s.hm.brownout = false) : s.brownedOut.hm.seq = s.hm.seq + 1 := s.commitRecord_seq _ h

/-- A brownout changes the Harbourmaster's own fields alone. -/
theorem State.brownedOut_rest (s : State) : { s.brownedOut with hm := s.hm } = s := by
  obtain ⟨h, he⟩ := s.commitRecord_eq { cls := 5, outcome := 4 }
  rw [State.brownedOut, he]

/-- The brownout record is the last. -/
theorem State.brownedOut_last (s : State) (x : LogRec) : s.brownedOut.commitRecord x = s.brownedOut := State.commitRecord_brownout _ x rfl

/-! ### Shutdown (R429) -/

/-- No team, card, core or bank keeps anything, and every cluster clock stands. -/
def State.Gone (u : State) : Prop :=
  u.teams = [] ∧ u.cards = [] ∧ u.cores = State.reset.cores ∧ u.banks = State.reset.banks ∧ ∀ c ∈ u.clusters, c.gated = true

theorem State.reset_gated : ∀ c ∈ State.reset.clusters, c.gated = true := fun _ hc => List.eq_of_mem_replicate hc ▸ rfl

theorem State.clocksOff_gated (s : State) : ∀ c ∈ s.clocksOff.clusters, c.gated = true := by
  intro c hc
  obtain ⟨k, -, rfl⟩ := List.mem_map.1 hc
  rfl

/-- What is left without power on a part that stays thermally down. -/
def State.blankDown (s : State) : State := { s.blank with hm := { s.blank.hm with thermalDown := true } }

theorem State.blankDown_rails (s : State) : s.blankDown.rails = s.rails := rfl
theorem State.blankDown_retention (s : State) : s.blankDown.retention = s.retention := rfl
theorem State.blankDown_seq (s : State) : s.blankDown.hm.seq = s.hm.seq := rfl

/-- The state of a part that its temperature has shut down. -/
def State.shutDown (s : State) (k : Nat) : State := (s.commitRecord { cls := 4, outcome := 4, core := 2 * k }).writeHead.powerOff.blankDown

theorem execThermalShutdown_due {s : State} {k : Nat} (h : s.hm.thermalDown = false) (hk : k < 48) :
    execThermalShutdown k s = .next (s.shutDown k) :=
  if_neg (by simp [h, hk])

theorem State.shutDown_up (s : State) (k : Nat) : (s.shutDown k).up = false := by
  rw [State.up, show (s.shutDown k).hm.thermalDown = true from rfl, Bool.not_true, Bool.and_false]

theorem State.shutDown_gone (s : State) (k : Nat) : (s.shutDown k).Gone := ⟨rfl, rfl, rfl, rfl, State.reset_gated⟩

/-- After the shutdown the rails stand where power off left them. -/
theorem State.shutDown_rails (s : State) (k : Nat) : (∀ r ∈ (s.shutDown k).rails, r.mv = 0) ∧ (s.shutDown k).retention = 0 := by
  rw [State.shutDown, State.blankDown_rails, State.blankDown_retention, State.powerOff_eq]
  exact ⟨State.setRails_mv _ _ _, rfl⟩

/-- The shutdown logs one record, unless the part is in a brownout. -/
theorem State.shutDown_seq {s : State} (k : Nat) (h : s.hm.brownout = false) : (s.shutDown k).hm.seq = s.hm.seq + 1 := by
  rw [State.shutDown, State.blankDown_seq, State.powerOff_eq]
  exact (State.writeHead_seq _).trans (s.commitRecord_seq _ h)

/-! ### The charge record (R215) -/

/-- A cluster cycle charges its own cluster. -/
theorem execChargeRecordUpdate_charges {s : State} {k : Nat} {c : Cluster} (hk : k < 48) (hc : s.clusters[k]? = some c) :
    ∃ u, execChargeRecordUpdate k s = .next u
      ∧ u.clusters[k]? = some { c with cr := c.cr + c.charge - Config.budgetB c.level, charge := 0 }
      ∧ ∀ j, j ≠ k → u.clusters[j]? = s.clusters[j]? := by
  refine ⟨_, if_neg (by simp [hk]), ?_, fun j hj => listModify_getElem?_ne s.clusters _ hj⟩
  exact (listModify_getElem?_self s.clusters k _).trans (by rw [hc, Option.map_some])

/-! ### The end of a window of the L2 (R257) -/

/-- Setting bits clears none. -/
theorem getLsbD_foldl_or {n i : Nat} {m : BitVec n} (l : List (BitVec n)) (h : m.getLsbD i = true) :
    (l.foldl (· ||| ·) m).getLsbD i = true := by
  induction l generalizing m with
  | nil => exact h
  | cons x l ih => exact ih (by rw [BitVec.getLsbD_or, h, Bool.true_or])

/-- Clearing bits sets none. -/
theorem getLsbD_of_foldl_and {n i : Nat} {m : BitVec n} (l : List (BitVec n)) (h : (l.foldl (· &&& ·) m).getLsbD i = true) :
    m.getLsbD i = true := by
  induction l generalizing m with
  | nil => exact h
  | cons x l ih =>
    have hm := ih h
    rw [BitVec.getLsbD_and, Bool.and_eq_true] at hm
    exact hm.1

/-- A window of many misses gates no way. -/
theorem Bank.windowEnd_many (b : Bank) {m : Nat} (h : 8192 ≤ m) :
    (b.windowEnd m).lines = b.lines ∧ ∀ w, b.ways.getLsbD w = true → (b.windowEnd m).ways.getLsbD w = true := by
  have hfew : ¬ m < 1024 := by omega
  simp only [Bank.windowEnd, hfew, h, decide_false, Bool.false_and, Bool.false_eq_true, if_false, if_true, true_and]
  intro w hw
  rw [← List.foldl_map (f := fun w => BitVec.ofNat 16 (2 ^ w)) (g := (· ||| ·))]
  exact getLsbD_foldl_or _ hw

/-- A window of few misses enables no way. -/
theorem Bank.windowEnd_few (b : Bank) {m : Nat} (h : m < 1024) (w : Nat) (hw : (b.windowEnd m).ways.getLsbD w = true) : b.ways.getLsbD w = true := by
  have hmany : ¬ 8192 ≤ m := by omega
  simp only [Bank.windowEnd, if_neg hmany] at hw
  split at hw
  · rw [Bank.gate, ← List.foldl_map (f := fun w => ~~~(BitVec.ofNat 16 (2 ^ w))) (g := (· &&& ·))] at hw
    exact getLsbD_of_foldl_and _ hw
  · exact hw

theorem execL2Window_due {s : State} {bank m : Nat} {rest : List Nat} {b : Bank} (hb : s.banks[bank]? = some b) (hw : b.windows = m :: rest) :
    execL2Window bank s = .next (s.modBank bank (fun b => { b.windowEnd m with windows := rest })) := by
  simp only [execL2Window, hb, hw]

/-! ### Bring-up (R430-R435) -/

/-- The firmware slots as at reset, under fuses that accept the factory's. -/
def State.PlainFirmware (s : State) : Prop :=
  s.boot.slots = State.reset.boot.slots ∧ s.fuses.rollback = 0 ∧ (s.fuses.lcs ≠ 2 ∨ s.fuses.owner = factoryOwner)

/-- The state in which the boot passes of a bring-up begin. -/
def State.atBoot (s : State) : State :=
  { (s.writeHead.clocksOff.setRails retentionMv (levelMv 6)) with hm := { s.writeHead.hm with thermalDown := false } }

theorem State.bringUp_eq (s : State) : s.bringUp = State.bootPass 4 s.atBoot := rfl

/-- Before the boot passes memory, the host's memory, the fuses and the firmware stand, and so does the log. -/
theorem State.atBoot_kept (s : State) :
    s.atBoot.mem = s.mem ∧ s.atBoot.hostMem = s.hostMem ∧ s.atBoot.fuses = s.fuses ∧ s.atBoot.boot = s.boot ∧ s.atBoot.hm.log = s.hm.log := by
  refine ⟨?_, ?_, ?_, ?_, s.writeHead_log⟩
  all_goals
    obtain ⟨h, he⟩ := s.writeHead_eq
    rw [State.atBoot, he]
    rfl

/-- The boot passes begin with every logic rail at level 6. -/
theorem State.atBoot_rails (s : State) : ∀ r ∈ s.atBoot.rails, r.mv = 550 := State.setRails_mv s.writeHead.clocksOff retentionMv (levelMv 6)

/-- Where no bundle is staged, the first step changes nothing. -/
theorem State.stageBundle_none {s : State} (h : s.mem.readNat 0 4 ≠ bundleMagic) : s.stageBundle = s := if_neg h

/-- Where no slot verifies, the boot halts before anything is wiped. -/
theorem State.bootPass_halts {s : State} (n : Nat) (hmem : s.mem.readNat 0 4 ≠ bundleMagic) (hv : ∀ x ∈ s.boot.slots, s.fuses.verifies x = false) :
    State.bootPass (n + 1) s = State.haltBoot { s with boot := { s.boot with err := 0 } } 1 := by
  rw [State.bootPass, State.stageBundle_none (s := { s with boot := { s.boot with err := 0 } }) hmem]
  exact if_pos (List.all_eq_true.2 fun x hx => by rw [hv x hx, Bool.not_false])

theorem Fuses.verifies_factory {f : Fuses} (h : f.lcs ≠ 2 ∨ f.owner = factoryOwner) : f.verifies { factory := true } = true := by
  rcases h with hl | ho
  · simp [Fuses.verifies, FwSlot.vendorSigned, lcsField, hl]
  · simp [Fuses.verifies, FwSlot.vendorSigned, FwSlot.ownerSigned, ho]

theorem Fuses.verifies_empty (f : Fuses) : f.verifies {} = false := rfl

/-- Of the slots as at reset the factory's may boot. -/
theorem State.PlainFirmware.bootSlots {s : State} (h : s.PlainFirmware) : s.bootSlots = [(0, { factory := true })] := by
  obtain ⟨hs, hr, hl⟩ := h
  simp [State.bootSlots, hs, hr, State.reset, Fuses.verifies_factory hl, Fuses.verifies_empty]

/-- With the firmware as at reset a boot pass wipes the part and is the last: the factory's bundle asks for no transition. -/
theorem State.PlainFirmware.bootPass {s : State} (n : Nat) (h : s.PlainFirmware) (hmem : s.mem.readNat 0 4 ≠ bundleMagic) :
    State.bootPass (n + 1) s = State.wiped { s with boot := { s.boot with err := 0, slot := 0 } } := by
  have hplain : State.PlainFirmware { s with boot := { s.boot with err := 0 } } := h
  have hsome : ¬(s.boot.slots.all fun x => !s.fuses.verifies x) = true := by
    simp [h.1, State.reset, Fuses.verifies_factory h.2.2]
  rw [State.bootPass, State.stageBundle_none (s := { s with boot := { s.boot with err := 0 } }) hmem]
  refine (if_neg hsome).trans ?_
  rw [hplain.bootSlots]
  rfl

/-- `u` is a part that has come up anew from `s`: running, everything wiped, its rails at level 6 and every register block at its reset value;
what stays is the log, the fuses and the host's memory. -/
def State.FreshFrom (s u : State) : Prop :=
  u.boot.phase = 4 ∧ u.mem = [] ∧ u.teams = [] ∧ u.cards = [] ∧ u.cmds = [] ∧ u.parts = State.reset.parts
    ∧ u.tenants = State.reset.tenants ∧ u.vfs = State.reset.vfs ∧ u.pfRegs = State.reset.pfRegs ∧ u.hm.log = s.hm.log
    ∧ u.fuses = s.fuses ∧ u.hostMem = s.hostMem ∧ u.retention = 750 ∧ ∀ r ∈ u.rails, r.mv = 550

/-- With the firmware as at reset and nothing staged the bring-up leaves a fresh part. -/
theorem State.PlainFirmware.bringUp {s : State} (h : s.PlainFirmware) (hmem : s.mem.readNat 0 4 ≠ bundleMagic) : s.FreshFrom s.bringUp := by
  obtain ⟨hm, hhost, hfuses, hboot, hlog⟩ := s.atBoot_kept
  have hplain : s.atBoot.PlainFirmware := by rwa [State.PlainFirmware, hfuses, hboot]
  rw [State.bringUp_eq, hplain.bootPass 3 (hm ▸ hmem)]
  refine ⟨rfl, rfl, rfl, rfl, rfl, rfl, rfl, rfl, rfl, hlog, hfuses, hhost, rfl, fun r hr => ?_⟩
  obtain ⟨x, hx, rfl⟩ := List.mem_map.1 hr
  exact s.atBoot_rails x hx

/-- Where power was lost memory is empty, nothing stands, and fuses, firmware slots, log and the host's memory are kept. -/
theorem State.powerLost_kept (s : State) :
    s.powerLost.mem = [] ∧ s.powerLost.hostMem = s.hostMem ∧ s.powerLost.fuses = s.fuses ∧ s.powerLost.boot.slots = s.boot.slots
      ∧ s.powerLost.hm.log = s.hm.log := by
  rw [State.powerLost_eq]
  refine ⟨rfl, ?_, ?_, ?_, s.writeHead_log⟩
  all_goals
    obtain ⟨h, he⟩ := s.writeHead_eq
    rw [he]
    rfl

theorem State.powerLost_unstaged (s : State) : s.powerLost.mem.readNat 0 4 ≠ bundleMagic := by
  rw [s.powerLost_kept.1]
  decide

/-- With the firmware as at reset power-up leaves a fresh part. -/
theorem State.PlainFirmware.powerUp {s : State} (h : s.PlainFirmware) : s.FreshFrom s.powerLost.bringUp := by
  obtain ⟨-, hhost, hfuses, hslots, hlog⟩ := s.powerLost_kept
  have hplain : s.powerLost.PlainFirmware := by rwa [State.PlainFirmware, hfuses, hslots]
  have hfresh := hplain.bringUp s.powerLost_unstaged
  rwa [State.FreshFrom, hlog, hfuses, hhost] at hfresh

/-- Where no slot verifies power-up halts with what power lost left. -/
theorem State.powerUp_halts {s : State} (hv : ∀ x ∈ s.boot.slots, s.fuses.verifies x = false) :
    s.powerLost.bringUp = State.haltBoot { s.powerLost.atBoot with boot := { s.powerLost.atBoot.boot with err := 0 } } 1 := by
  obtain ⟨-, -, hfuses, hslots, -⟩ := s.powerLost_kept
  obtain ⟨hm, -, hf, hb, -⟩ := s.powerLost.atBoot_kept
  rw [State.bringUp_eq]
  refine State.bootPass_halts 3 (hm ▸ s.powerLost_unstaged) ?_
  rw [hb, hf, hslots, hfuses]
  exact hv

/-- A boot that halts wipes nothing and starts nothing. -/
theorem State.Gone.halted {s : State} (h : s.Gone) (b : Boot) (err : Nat) : (State.haltBoot { s with boot := b } err).Gone := h

theorem State.halted_mem (s : State) (b : Boot) (err : Nat) : (State.haltBoot { s with boot := b } err).mem = s.mem := rfl

/-- Between the loss of power and the boot passes nothing stands. -/
theorem State.powerLost_gone (s : State) : s.powerLost.atBoot.Gone := by
  obtain ⟨h, he⟩ := s.powerLost.writeHead_eq
  rw [State.atBoot, he, State.powerLost_eq]
  exact ⟨rfl, rfl, rfl, rfl, s.powerLost.clocksOff_gated⟩

/-- Where no slot verifies, what power lost is gone and the clocks stand. -/
theorem State.powerUp_halts_gone {s : State} (hv : ∀ x ∈ s.boot.slots, s.fuses.verifies x = false) :
    s.powerLost.bringUp.mem = [] ∧ s.powerLost.bringUp.Gone := by
  rw [State.powerUp_halts hv, State.halted_mem, s.powerLost.atBoot_kept.1]
  exact ⟨s.powerLost_kept.1, s.powerLost_gone.halted _ _⟩

/-! ### Resets of the functions (R421) -/

theorem execPfFlr_due {s : State} (hp : 4 ≤ s.boot.phase) (ht : s.hm.thermalDown = false) : execPfFlr s = .next s.bringUp :=
  if_neg (by simp [hp, ht])

/-- The grids of a tenant ended, and its queues taken from the berths. -/
def State.dropTenant (s : State) (t : Nat) : State :=
  let u : State := (s.grids.filter (fun (g : Grid) => g.tenant == t)).foldl (fun (s : State) g => s.killGrid g.id 0) s
  { u with berths := u.berths.map (fun (b : Berth) => if b.queue.any (fun (q : Nat × Nat) => q.1 == t) then {} else b) }

theorem execVfFlr_due {s : State} {v : Nat} (h1 : 1 ≤ v) (h16 : v ≤ 16) (hup : s.up = true) :
    execVfFlr v s = .next ((s.dropTenant (v - 1)).modFn (.vf (v - 1)) (fun _ => {})) :=
  if_neg (by simp [hup, h16, Nat.ne_of_gt h1])

/-- Settles O49: each event where it is due; the bring-up by whether the factory's firmware boots or no slot verifies. -/
theorem powerEvents : Obligations.PowerEvents := by
  intro s k rail bank v m rest celsius r c b fresh plainFw killed dropped gone
  refine ⟨fun hr h => ?raise, fun hr h => ?lower, fun hup hc hk => ?step, fun ht hk => ?shutdown, fun hb => ?brownout, fun hk hc => ?charge,
    fun hb hw => ?window, exec_powerUp s, fun hp ht => ?pfFlr, fun hfw => ?powerUpFresh, fun hp ht hfw hmem => ?pfFlrFresh, fun hv => ?halts,
    fun h1 h16 hup => ?vfFlr⟩
  case raise => exact (exec_railRaiseSettled rail s).trans (execRailRaiseSettled_due hr h)
  case lower => exact (exec_railLowerHoldExpiry rail s).trans (execRailLowerHoldExpiry_due hr h)
  case step => exact (exec_thermalStep k celsius s).trans (execThermalStep_due hup hc hk)
  case shutdown =>
    obtain ⟨hrails, hret⟩ := s.shutDown_rails k
    exact ⟨s.shutDown k, (exec_thermalShutdown k s).trans (execThermalShutdown_due ht hk), rfl, s.shutDown_up k, s.shutDown_gone k, hrails, hret,
      State.shutDown_seq k⟩
  case brownout =>
    exact ⟨s.brownedOut, (exec_brownout s).trans (execBrownout_due hb), rfl, State.brownedOut_seq hb, s.brownedOut_rest, s.brownedOut_last⟩
  case charge =>
    obtain ⟨u, hu, hself, hother⟩ := execChargeRecordUpdate_charges hk hc
    refine ⟨u, (exec_chargeRecordUpdate k s).trans hu, _, hself, ?_, rfl, hother⟩
    dsimp only
    omega
  case window =>
    refine ⟨_, (exec_l2Window bank s).trans (execL2Window_due hb hw), { b.windowEnd m with windows := rest },
      (listModify_getElem?_self s.banks bank _).trans (by rw [hb, Option.map_some]), rfl, rfl, fun h1 h2 => ?_, b.windowEnd_many, b.windowEnd_few⟩
    rw [b.windowEnd_between m h1 h2]
    exact ⟨rfl, rfl⟩
  case pfFlr => exact (exec_pfFlr s).trans (execPfFlr_due hp ht)
  case powerUpFresh => exact ⟨_, exec_powerUp s, State.PlainFirmware.powerUp hfw⟩
  case pfFlrFresh => exact ⟨_, (exec_pfFlr s).trans (execPfFlr_due hp ht), State.PlainFirmware.bringUp hfw hmem⟩
  case halts =>
    have hhalt := State.powerUp_halts hv
    obtain ⟨hm, hgone⟩ := State.powerUp_halts_gone hv
    exact ⟨_, exec_powerUp s, by rw [hhalt]; rfl, by rw [hhalt]; rfl, by rw [hhalt]; rfl, hm, hgone⟩
  case vfFlr => exact (exec_vfFlr v s).trans (execVfFlr_due h1 h16 hup)

end Sys2Proof.Machine
end

section
namespace Sys2Proof.Machine

/-! ### Instructions by their effect (R336, R337) -/

/-- The meaning of an instruction is the issue of an effect. -/
def HasEffect (i : Instr) (eff : Iss → Eff) : Prop := ∀ s, exec i s = issue i eff s

section
variable {i : Instr} {s t : State} {q : Iss} {eff : Iss → Eff} {tr : Trap} {w : Wait} (he : HasEffect i eff) (h : Issues i s q)
include he h

/-- An unhindered instruction, where its effect stands. -/
theorem HasEffect.exec_ok (ht : eff q.counted = .ok t) : exec i s = .next t := (he s).trans (issue_of_ok h ht)

/-- An unhindered instruction, where its effect is a trap. -/
theorem HasEffect.exec_trap (ht : eff q.counted = .trap tr) : exec i s = .next (q.trapped tr) := (he s).trans (issue_of_trap h ht)

/-- An unhindered instruction, where its effect is to wait. -/
theorem HasEffect.exec_hold (ht : eff q.counted = .hold w) : exec i s = .next (q.heldBack w) := (he s).trans (issue_of_hold h ht)

end

/-- What an effect of an unhindered issue leaves: its state, the wait of the issuer, or its trap (R224, R336). -/
def Iss.outcome (q : Iss) : Eff → Host.Outcome State Fault Refusal
  | .ok t => .next t
  | .hold w => .next (q.heldBack w)
  | .trap tr => .next (q.trapped tr)

theorem issueWith_outcome {i : Instr} {ts : List Target} {s : State} {q : Iss} (h : IssuesTo i ts s q) {tg : Iss → List Target} (htg : tg q = ts)
    (eff : Iss → Eff) : issueWith i tg Iss.account eff s = q.outcome (eff q.counted) :=
  (issueWith_eq h tg htg eff).trans (by cases eff q.counted <;> rfl)

/-! ### Loads and stores as they issue (R240, R241, R244, R245, R248, R250) -/

section
variable {s : State} {fm : Form} {q : Iss} (h : s.issuer fm = some q)
include h

theorem Iss.counted_counter (path : Nat) : q.counted.g.counter path = q.g.counter path := by rw [Iss.counted_g h]; rfl
theorem Iss.counted_loadAccess : q.counted.loadAccess = q.loadAccess := by rw [(Iss.counted_eq h).1]; rfl
theorem Iss.counted_storeAccess : q.counted.storeAccess = q.storeAccess := by rw [(Iss.counted_eq h).1]; rfl

/-- A load in the terms of the issue before it was counted. -/
theorem Iss.counted_load (seg n : Nat) (disp : Code) (k : BitVec 4) :
    q.counted.load seg n disp k = q.counted.access (q.loadAccess seg n (disp.toInt * n) 0) k (q.pendingZeros (regsOf n)) := by
  rw [Iss.load, Iss.counted_loadAccess h, Iss.counted_pendingZeros h]

/-- A store in the terms of the issue before it was counted. -/
theorem Iss.counted_store (seg n : Nat) (disp : Code) (k : BitVec 4) :
    q.counted.store seg n disp k = q.counted.access (q.storeAccess seg n (disp.toInt * n) 0 false 0) k [] := by
  rw [Iss.store, Iss.counted_storeAccess h]

end

section
variable {q : Iss} {x : Access} {k : BitVec 4} {zeros : List PWrite} {s' : State} {parts : List Part}

theorem Iss.access_trap {tr : Trap} (hc : q.checked x = .error tr) : q.access x k zeros = .trap tr := by
  rw [Iss.access, hc]

/-- With room on its path, or with no lane in EXEC, an access that passes its checks goes in flight. -/
theorem Iss.access_enters (hc : q.checked x = .ok (s', parts)) (hroom : q.ex = 0 ∨ q.g.counter x.path < 63) :
    q.access x k zeros = .ok (q.enter s' x.path x.kind parts x.hint k zeros (q.ex == 0)) := by
  rw [Iss.access, hc]
  refine if_neg fun hfull => ?_
  obtain ⟨hex, hn⟩ := Bool.and_eq_true_iff.1 hfull
  exact hroom.elim (fun h0 => of_decide_eq_true hex h0) (Nat.not_lt.2 (of_decide_eq_true hn))

/-- A full counter holds an access with a lane in EXEC back. -/
theorem Iss.access_held (hc : q.checked x = .ok (s', parts)) (hex : q.ex ≠ 0) (hfull : 63 ≤ q.g.counter x.path) :
    q.access x k zeros = .hold .none := by
  rw [Iss.access, hc]
  exact if_pos (Bool.and_eq_true_iff.2 ⟨decide_eq_true hex, decide_eq_true hfull⟩)

end

/-- What an unhindered instruction comes to whose effect is an access. -/
theorem exec_access {i : Instr} {s : State} {q : Iss} {eff : Iss → Eff} {x : Access} {k : BitVec 4} {zeros : List PWrite}
    (h : Issues i s q) (he : HasEffect i eff) (hc : eff q.counted = q.counted.access x k zeros) :
    (∀ tr, q.counted.checked x = .error tr → exec i s = .next (q.trapped tr))
    ∧ (∀ s' parts, q.counted.checked x = .ok (s', parts) → q.ex = 0 ∨ q.g.counter x.path < 63 →
        exec i s = .next (q.counted.enter s' x.path x.kind parts x.hint k zeros (q.ex == 0)))
    ∧ (∀ s' parts, q.counted.checked x = .ok (s', parts) → q.ex ≠ 0 → 63 ≤ q.g.counter x.path → exec i s = .next (q.heldBack .none)) := by
  rw [← Iss.counted_counter h.reads, ← Iss.counted_ex h.reads]
  exact ⟨fun tr ht => he.exec_trap h (hc.trans (Iss.access_trap ht)),
    fun s' parts ho hroom => he.exec_ok h (hc.trans (Iss.access_enters ho hroom)),
    fun s' parts ho hex hfull => he.exec_hold h (hc.trans (Iss.access_held ho hex hfull))⟩

/-- The loads that name a displacement, with the space and the size of each (R248). -/
def loadForms : List ((Option Pfx → BitVec 4 → Code → Code → Code → Instr) × Nat × Nat) :=
  [(.ldGB, 0, 1), (.ldGH, 0, 2), (.ldGW, 0, 4), (.ldGD, 0, 8), (.ldGQ, 0, 16), (.ldSB, 1, 1), (.ldSH, 1, 2), (.ldSW, 1, 4), (.ldSD, 1, 8),
    (.ldSQ, 1, 16), (.ldCB, 2, 1), (.ldCH, 2, 2), (.ldCW, 2, 4), (.ldCD, 2, 8), (.ldCQ, 2, 16), (.ldLB, 3, 1), (.ldLH, 3, 2), (.ldLW, 3, 4),
    (.ldLD, 3, 8), (.ldLQ, 3, 16)]

/-- The stores that name a displacement, with the space and the size of each (R248). -/
def storeForms : List ((Option Pfx → BitVec 4 → Code → Code → Code → Instr) × Nat × Nat) :=
  [(.stGB, 0, 1), (.stGH, 0, 2), (.stGW, 0, 4), (.stGD, 0, 8), (.stGQ, 0, 16), (.stSB, 1, 1), (.stSH, 1, 2), (.stSW, 1, 4), (.stSD, 1, 8),
    (.stSQ, 1, 16), (.stLB, 3, 1), (.stLH, 3, 2), (.stLW, 3, 4), (.stLD, 3, 8), (.stLQ, 3, 16)]

section
variable (p : Option Pfx) (k : BitVec 4) (t a disp : Code)

theorem effect_load : ∀ z ∈ loadForms, HasEffect (z.1 p k t a disp) (fun q => q.load z.2.1 z.2.2 disp k) := by
  simp only [loadForms, List.forall_mem_cons, List.not_mem_nil, false_imp_iff, implies_true, and_true]
  and_intros
  all_goals exact fun _ => rfl

theorem effect_store : ∀ z ∈ storeForms, HasEffect (z.1 p k t a disp) (fun q => q.store z.2.1 z.2.2 disp k) := by
  simp only [storeForms, List.forall_mem_cons, List.not_mem_nil, false_imp_iff, implies_true, and_true]
  and_intros
  all_goals exact fun _ => rfl

theorem effect_ldv (g : BitVec 3) (w h : BitVec 2) : HasEffect (.ldv p k t a g w h)
    (fun q => q.access (q.loadAccess g.toNat (vWidthBytes w) 0 h.toNat) k (q.pendingZeros (vWidthRegs w))) := fun _ => rfl
theorem effect_stv (g : BitVec 3) (w h : BitVec 2) : HasEffect (.stv p k t a g w h)
    (fun q => q.access (q.storeAccess g.toNat (vWidthBytes w) 0 h.toNat false 0) k []) := fun _ => rfl

end

/-- Settles O25: each load is the access of its space and size, each store too, and an access goes in flight, is held back or traps. -/
theorem loadsAndStores : Obligations.LoadsAndStores := by
  intro s q p k t a disp g w h does
  refine ⟨fun z hz hi => exec_access hi (effect_load p k t a disp z hz) (Iss.counted_load hi.reads _ _ disp k),
    fun z hz hi => exec_access hi (effect_store p k t a disp z hz) (Iss.counted_store hi.reads _ _ disp k),
    fun hi => exec_access hi (effect_ldv p k t a g w h) ?_, fun hi => exec_access hi (effect_stv p k t a g w h) ?_⟩
  · rw [Iss.counted_loadAccess hi.reads, Iss.counted_pendingZeros hi.reads]
  · rw [Iss.counted_storeAccess hi.reads]

end Sys2Proof.Machine
end

section
namespace Sys2Proof.Machine

/-! ### DEBUG and the returns of the handler (R236, R355, R363) -/

theorem effect_trap (n : Code) : HasEffect (.trap n) (fun q => q.debug 3 n.toNat) := fun _ => rfl
theorem effect_halt : HasEffect .halt (fun q => q.debug 2 0) := fun _ => rfl
theorem effect_dbgbrk (n : Code) : HasEffect (.dbgbrk n) (fun q => if q.s.debuggerOn q.t.ctx then q.debug 1 n.toNat else .ok q.s) := fun _ => rfl
theorem effect_eret : HasEffect .eret (fun q => if q.f.jr.length = 0 then .trap (q.trap clsIllegal) else .ok (q.leave false false)) := fun _ => rfl
theorem effect_emret (lst : BitVec 1) : HasEffect (.emret lst) (fun q =>
    if q.f.jr.length = 0 then .trap (q.trap clsIllegal)
    else match (if lst = 1 then q.emretBad else none) with
      | some i => .trap (q.trapAt clsMemUe i)
      | none => .ok (q.leave true (lst == 1))) := fun _ => rfl

section
variable {s : State} {fm : Form} {q : Iss} (h : s.issuer fm = some q)
include h

theorem Iss.counted_debug (sub d : Nat) : q.counted.debug sub d = .trap { q.trap clsDebug with sub := sub, detail := d } := by
  rw [Iss.debug, Iss.counted_trap h]
theorem Iss.counted_ctx : q.counted.t.ctx = q.t.ctx := by rw [Iss.counted_t h]; rfl
theorem Iss.counted_emretBad : q.counted.emretBad = q.emretBad := by
  simp only [Iss.emretBad, Iss.counted_depth h, Iss.counted_mask h, Iss.counted_lane h, Iss.counted_lid h, Iss.counted_hdr h, Iss.counted_role h]
theorem Iss.counted_leave (em lst : Bool) :
    q.counted.leave em lst = ((((q.counted.modTeam (fun t => t.leaveHandler q.c.g q.c.f em lst)).endWaits
      q.c.team q.c.g).modGroup q.c.team q.c.g Group.fixSlots).stopIdle q.c.team) := by
  rw [Iss.leave, Iss.counted_c h]

end

/-- DBGBRK takes DEBUG where a debugger is attached, and else does nothing. -/
theorem exec_dbgbrk {s : State} {q : Iss} {n : Code} (h : Issues (.dbgbrk n) s q) :
    exec (.dbgbrk n) s = if q.counted.s.debuggerOn q.t.ctx then .next (q.trapped { q.trap clsDebug with sub := 1, detail := n.toNat })
      else .next q.counted.s := by
  have hctx := Iss.counted_ctx h.reads
  split
  · rename_i ha
    exact (effect_dbgbrk n).exec_trap h ((if_pos (hctx ▸ ha)).trans (Iss.counted_debug h.reads _ _))
  · rename_i ha
    exact (effect_dbgbrk n).exec_ok h (if_neg (hctx ▸ ha))

section
variable {s : State} {q : Iss} {lst : BitVec 1}

/-- In the handler ERET leaves it. -/
theorem exec_eret_leaves (h : Issues .eret s q) (hj : q.f.jr ≠ []) :
    exec .eret s = .next (q.counted.leave false false) := by
  refine effect_eret.exec_ok h (if_neg ?_)
  rwa [Iss.counted_depth h.reads, List.length_eq_zero_iff]

/-- In the handler EMRET leaves it, EMRET.l unless the register that it reads holds an uncorrectable error. -/
theorem exec_emret_leaves (h : Issues (.emret lst) s q) (hj : q.f.jr ≠ []) (hok : lst = 0 ∨ q.emretBad = none) :
    exec (.emret lst) s = .next (q.counted.leave true (lst == 1)) := by
  have hread : (if lst = 1 then q.emretBad else none) = none := by
    rcases hok with rfl | hnone
    · rfl
    · rw [hnone, ite_self]
  refine (effect_emret lst).exec_ok h ((if_neg ?_).trans ?_)
  · rwa [Iss.counted_depth h.reads, List.length_eq_zero_iff]
  · rw [Iss.counted_emretBad h.reads, hread]

/-- EMRET.l of a register with an uncorrectable error takes MEM_UE. -/
theorem exec_emret_error {i : Nat} (h : Issues (.emret 1) s q) (hj : q.f.jr ≠ []) (hbad : q.emretBad = some i) :
    exec (.emret 1) s = .next (q.trapped (q.trapAt clsMemUe i)) := by
  refine (effect_emret 1).exec_trap h ((if_neg ?_).trans ?_)
  · rwa [Iss.counted_depth h.reads, List.length_eq_zero_iff]
  · rw [Iss.counted_emretBad h.reads, if_pos rfl, hbad]
    exact congrArg Eff.trap (Iss.counted_trapAt h.reads _ _)

/-- Outside the handler either return is ILLEGAL. -/
theorem exec_eret_outside (h : Issues .eret s q) (hj : q.f.jr = []) : exec .eret s = .next (q.trapped (q.trap clsIllegal)) := by
  refine effect_eret.exec_trap h ((if_pos ?_).trans (by rw [Iss.counted_trap h.reads]))
  rw [Iss.counted_depth h.reads, hj, List.length_nil]

theorem exec_emret_outside (h : Issues (.emret lst) s q) (hj : q.f.jr = []) :
    exec (.emret lst) s = .next (q.trapped (q.trap clsIllegal)) := by
  refine (effect_emret lst).exec_trap h ((if_pos ?_).trans (by rw [Iss.counted_trap h.reads]))
  rw [Iss.counted_depth h.reads, hj, List.length_nil]

end

/-- Settles O31: the DEBUG traps as they stand, the returns by whether they stand inside the handler and, for EMRET.l, by what its register holds. -/
theorem debugAndHandlerReturns : Obligations.DebugAndHandlerReturns := by
  intro s q n lst debug attached leaves
  simp only [List.forall_mem_cons, List.not_mem_nil, false_imp_iff, implies_true, and_true]
  refine ⟨fun h => (effect_trap n).exec_trap h (Iss.counted_debug h.reads _ _), fun h => effect_halt.exec_trap h (Iss.counted_debug h.reads _ _),
    exec_dbgbrk, fun h hj => ?_, fun h hj hok => ?_, fun i => exec_emret_error, exec_eret_outside, exec_emret_outside⟩
  · rw [exec_eret_leaves h hj, Iss.counted_leave h.reads]
  · rw [exec_emret_leaves h hj hok, Iss.counted_leave h.reads]

end Sys2Proof.Machine
end

section
namespace Sys2Proof.Machine

/-! ### The operand window (R236, R353, R354) -/

section
variable {s : State} {fm : Form} {q : Iss} (h : s.issuer fm = some q)
include h

theorem Iss.counted_slotError (r : SlotReg) : q.counted.slotError r = q.slotError r := by
  have hue : q.counted.g.ue = q.g.ue := by rw [Iss.counted_g h]; rfl
  simp only [Iss.slotError, Iss.counted_depth h, Iss.counted_lane h, Iss.counted_lid h, Iss.counted_hdr h, Iss.counted_role h,
    Iss.counted_lanes h, Iss.counted_trapAt h, Iss.counted_trap h, hue]
theorem Iss.counted_slot (j k : Nat) : q.counted.slot j k = q.slot j k := by
  simp only [Iss.slot, Iss.counted_depth h, Iss.counted_hdr h, Iss.counted_role h]
theorem Iss.counted_bankedHit (r : SlotReg) : q.counted.bankedHit r = q.bankedHit r := by
  simp only [Iss.bankedHit, Frag.banked, Iss.counted_depth h]

end

/-- In the handler a slot names a register of the window's. -/
theorem Iss.slot_inside {q : Iss} {lv : JrLevel} {rest : List JrLevel} (hj : q.f.jr = lv :: rest) (j k : Nat) :
    q.slot j k = some (lv, slotReg (slotId lv.w k) j (q.t.hdr.budget q.g.role)) := by
  rw [Iss.slot, hj]

/-- Outside the handler there is no window. -/
theorem Iss.slot_outside {q : Iss} (hj : q.f.jr = []) (j k : Nat) : q.slot j k = none := by
  rw [Iss.slot, hj]

/-! #### WRD and WINFO -/

/-- The value in each lane of the register that a slot names, if it names one (R354). -/
def Iss.slotValue (q : Iss) (lv : JrLevel) : SlotReg → Option (Nat → Word)
  | .v n => some (fun i => (q.t.lane (q.lid i)).progV (q.t.hdr.budget q.g.role) q.f.jr.length n)
  | .q n => some (fun i => ((q.t.lane (q.lid i)).frame q.f.jr.length).q.get n)
  | .l n => some (fun i => ((q.t.lane (q.lid i)).frame q.f.jr.length).l.get n)
  | .s n => some (fun _ => q.g.s.get n)
  | .zero => some (fun _ => 0)
  | .laneix => some (fun i => BitVec.ofNat 32 i)
  | .imm => some (fun _ => lv.w.getD 2 0)
  | .bad => none

/-- What WRD comes to at a slot (R236, R354). -/
def Iss.windowRead (q : Iss) (lv : JrLevel) (r : SlotReg) : Eff :=
  match q.slotError r, q.slotValue lv r with
  | some tr, _ => .trap tr
  | none, some v => .ok (q.result v)
  | none, none => .trap (q.trap clsIllegal)

theorem effect_wrd (d : Code) (j slot : BitVec 2) : HasEffect (.wrd d j slot) (fun q =>
    match q.slot j.toNat slot.toNat with
    | none => .trap (q.trap clsIllegal)
    | some (lv, r) => q.windowRead lv r) := by
  intro s
  have he : exec (.wrd d j slot) s = execWrd d j slot s := rfl
  rw [he, execWrd]
  congr 1
  funext q
  cases q.slot j.toNat slot.toNat with
  | none => rfl
  | some x =>
    obtain ⟨lv, r⟩ := x
    cases he : q.slotError r <;> cases r <;> simp only [Iss.windowRead, Iss.slotValue, he]

theorem effect_winfo (d : Code) (ix : BitVec 3) : HasEffect (.winfo d ix) (fun q =>
    match q.f.jr with
    | [] => .trap (q.trap clsIllegal)
    | lv :: _ => .ok (q.result (fun _ => lv.w.getD ix.toNat 0))) := fun _ => rfl

theorem Iss.counted_slotValue {s : State} {fm : Form} {q : Iss} (h : s.issuer fm = some q) (lv : JrLevel) (r : SlotReg) :
    q.counted.slotValue lv r = q.slotValue lv r := by
  have hs : q.counted.g.s = q.g.s := by rw [Iss.counted_g h]; rfl
  cases r <;> simp only [Iss.slotValue, Iss.counted_depth h, Iss.counted_lane h, Iss.counted_lid h, Iss.counted_hdr h, Iss.counted_role h, hs]

section
variable {s : State} {q : Iss} {d : Code} {j slot : BitVec 2} {lv : JrLevel} {r : SlotReg} (h : Issues (.wrd d j slot) s q)
include h

/-- In the handler WRD comes to the read of its slot. -/
theorem counted_wrd (hs : q.slot j.toNat slot.toNat = some (lv, r)) :
    (match q.counted.slot j.toNat slot.toNat with
      | none => .trap (q.counted.trap clsIllegal)
      | some (lv, r) => q.counted.windowRead lv r) = q.counted.windowRead lv r := by
  rw [Iss.counted_slot h.reads, hs]

theorem exec_wrd_error (hs : q.slot j.toNat slot.toNat = some (lv, r)) {tr : Trap} (he : q.slotError r = some tr) :
    exec (.wrd d j slot) s = .next (q.trapped tr) := by
  refine (effect_wrd d j slot).exec_trap h ((counted_wrd h hs).trans ?_)
  rw [Iss.windowRead, Iss.counted_slotError h.reads, he]

theorem exec_wrd_value (hs : q.slot j.toNat slot.toNat = some (lv, r)) (he : q.slotError r = none) {v : Nat → Word} (hv : q.slotValue lv r = some v) :
    exec (.wrd d j slot) s = .next (q.counted.result v) := by
  refine (effect_wrd d j slot).exec_ok h ((counted_wrd h hs).trans ?_)
  rw [Iss.windowRead, Iss.counted_slotError h.reads, he, Iss.counted_slotValue h.reads, hv]

theorem exec_wrd_bad (hs : q.slot j.toNat slot.toNat = some (lv, r)) (he : q.slotError r = none) (hv : q.slotValue lv r = none) :
    exec (.wrd d j slot) s = .next (q.trapped (q.trap clsIllegal)) := by
  refine (effect_wrd d j slot).exec_trap h ((counted_wrd h hs).trans ?_)
  rw [Iss.windowRead, Iss.counted_slotError h.reads, he, Iss.counted_slotValue h.reads, hv]
  exact congrArg Eff.trap (Iss.counted_trap h.reads _)

theorem exec_wrd_outside (hj : q.f.jr = []) : exec (.wrd d j slot) s = .next (q.trapped (q.trap clsIllegal)) := by
  refine (effect_wrd d j slot).exec_trap h ?_
  rw [Iss.counted_slot h.reads, Iss.slot_outside hj]
  exact congrArg Eff.trap (Iss.counted_trap h.reads _)

end

section
variable {s : State} {q : Iss} {d : Code} {ix : BitVec 3} (h : Issues (.winfo d ix) s q)
include h

theorem exec_winfo_inside {lv : JrLevel} {rest : List JrLevel} (hj : q.f.jr = lv :: rest) :
    exec (.winfo d ix) s = .next (q.counted.result (fun _ => lv.w.getD ix.toNat 0)) := by
  refine (effect_winfo d ix).exec_ok h ?_
  rw [Iss.counted_depth h.reads, hj]

theorem exec_winfo_outside (hj : q.f.jr = []) : exec (.winfo d ix) s = .next (q.trapped (q.trap clsIllegal)) := by
  refine (effect_winfo d ix).exec_trap h ?_
  rw [Iss.counted_depth h.reads, hj]
  exact congrArg Eff.trap (Iss.counted_trap h.reads _)

end

/-! #### WWR -/

/-- The registers of its group that a write through a slot reaches in place (R52, R354). -/
def SlotReg.written (budget : Nat) : SlotReg → List Target
  | .v n => if budget - 16 ≤ n then [] else [.v n 1]
  | .s n => [.s n 1]
  | _ => []

/-- The registers that WWR writes (R52, R354). -/
def Iss.wwrTargets (q : Iss) (j slot : BitVec 2) : List Target :=
  match q.slot j.toNat slot.toNat with
  | some (_, r) => r.written (q.t.hdr.budget q.g.role)
  | none => []

/-- The lanes of EXEC keep the value in the result hold of the depth (R354). -/
def Iss.keepHold (q : Iss) : State :=
  q.modTeam (fun t => q.lanes.foldl (fun t i => t.modLane (q.lid i) (fun ln => ln.setHold q.f.jr.length (q.a i))) t)

/-- What WWR comes to at a slot that meets no banked window (R354). -/
def Iss.windowWrite (q : Iss) (lv : JrLevel) (slot : BitVec 2) (r : SlotReg) : Eff :=
  match r with
  | .v _ | .q _ => .ok (q.wwrLanes lv slot.toNat r)
  | .l n => if n = 0 && slot = 0 then .ok q.keepHold else .ok (q.wwrLanes lv slot.toNat r)
  | .zero => if slot = 0 then .ok q.keepHold else .ok q.s
  | .s n => (match q.lanes.head? with
    | some m => .ok (q.modGroup (fun g => g.setS n (q.a m)))
    | none => .ok q.s)
  | .laneix | .imm | .bad => .trap (q.trap clsIllegal)

/-- What WWR comes to (R354). -/
def Iss.wwr (q : Iss) (j slot : BitVec 2) : Eff :=
  match q.slot j.toNat slot.toNat with
  | none => .trap (q.trap clsIllegal)
  | some (lv, r) => if q.bankedHit r then .trap (q.trap clsLkhd) else q.windowWrite lv slot r

theorem exec_wwr (l : Option Word) (a : Code) (j slot : BitVec 2) (s : State) :
    exec (.wwr l a j slot) s = issueWith (.wwr l a j slot) (fun q => q.wwrTargets j slot) Iss.account (fun q => q.wwr j slot) s := by
  have he : exec (.wwr l a j slot) s = execWwr l a j slot s := rfl
  have htargets : ∀ q : Iss, q.wwrTargets j slot = (match q.slot j.toNat slot.toNat with
      | some (_, .v n) => if q.t.hdr.budget q.g.role - 16 ≤ n then [] else [.v n 1]
      | some (_, .s n) => [.s n 1]
      | _ => []) := by
    intro q
    rw [Iss.wwrTargets]
    cases q.slot j.toNat slot.toNat with
    | none => rfl
    | some x =>
      obtain ⟨lv, r⟩ := x
      cases r <;> rfl
  rw [he, execWwr]
  congr 1
  exact funext fun q => (htargets q).symm

theorem Iss.counted_keepHold {s : State} {fm : Form} {q : Iss} (h : s.issuer fm = some q) : q.counted.keepHold =
    q.counted.modTeam (fun t => q.lanes.foldl (fun t i => t.modLane (q.lid i) (fun ln => ln.setHold q.f.jr.length (q.a i))) t) := by
  simp only [Iss.keepHold, Iss.counted_lanes h, Iss.counted_lid h, Iss.counted_depth h, Iss.counted_a h]

section
variable {s : State} {q : Iss} {l : Option Word} {a : Code} {j slot : BitVec 2} {ts : List Target} (h : IssuesTo (.wwr l a j slot) ts s q)
include h

section
variable {lv : JrLevel} {r : SlotReg} (hs : q.slot j.toNat slot.toNat = some (lv, r)) (ht : r.written (q.t.hdr.budget q.g.role) = ts)
  (hb : q.bankedHit r = false)
include hs ht hb

/-- In the handler WWR comes to the write of its slot. -/
theorem exec_wwr_inside : exec (.wwr l a j slot) s = q.outcome (q.counted.windowWrite lv slot r) := by
  have htargets : q.wwrTargets j slot = ts := by rw [Iss.wwrTargets, hs]; exact ht
  have heff : q.counted.wwr j slot = q.counted.windowWrite lv slot r := by
    rw [Iss.wwr, Iss.counted_slot h.reads, hs]
    exact if_neg (by rw [Iss.counted_bankedHit h.reads, hb]; decide)
  rw [exec_wwr, issueWith_outcome h htargets, heff]

end

theorem exec_wwr_outside (hj : q.f.jr = []) (ht : ts = []) : exec (.wwr l a j slot) s = .next (q.trapped (q.trap clsIllegal)) := by
  have htargets : q.wwrTargets j slot = ts := by rw [Iss.wwrTargets, Iss.slot_outside hj, ht]
  have heff : q.counted.wwr j slot = .trap (q.trap clsIllegal) := by
    rw [Iss.wwr, Iss.counted_slot h.reads, Iss.slot_outside hj, Iss.counted_trap h.reads]
  rw [exec_wwr, issueWith_outcome h htargets, heff, Iss.outcome]

end

/-- Settles O32: WRD and WINFO by the value that the slot or the index names, WWR by the register that its slot names. -/
theorem operandWindow : Obligations.OperandWindow := by
  intro s q l d a j slot ix lv rest depth budget lane ill r reads hold
  refine ⟨fun hj => ?_, fun hj => ⟨fun h => exec_wrd_outside h hj, fun h => exec_winfo_outside h hj, fun h => exec_wwr_outside h hj rfl⟩⟩
  have hs : q.slot j.toNat slot.toNat = some (lv, r) := Iss.slot_inside hj _ _
  clear_value r
  refine ⟨fun h => ⟨fun tr => exec_wrd_error h hs, fun he => ?_⟩, fun h => exec_winfo_inside h hj, fun ts h hts hb => ?_⟩
  · have value : ∀ v, q.slotValue lv r = some v → reads v := fun v => exec_wrd_value h hs he
    have named : ∀ r', r = r' → q.slotValue lv r = q.slotValue lv r' := fun _ => congrArg (q.slotValue lv)
    exact ⟨fun n hr => value _ (named _ hr), fun n hr => value _ (named _ hr), fun n hr => value _ (named _ hr), fun n hr => value _ (named _ hr),
      fun hr => value _ (named _ hr), fun hr => value _ (named _ hr), fun hr => value _ (named _ hr), fun hr => exec_wrd_bad h hs he (named _ hr)⟩
  · have hx := exec_wwr_inside h hs (by subst hts; cases r <;> rfl) hb
    have hhold : q.counted.keepHold = hold := Iss.counted_keepHold h.reads
    refine ⟨fun n hr => ?_, ?_, fun hr => ?_, fun n m hr hm => ?_, fun n hr hm => ?_, fun hr => ?_⟩
    · obtain rfl | rfl | ⟨rfl, hn⟩ := hr
      · exact hx
      · exact hx
      · refine hx.trans (congrArg q.outcome (if_neg fun hc => ?_))
        obtain ⟨h0, hslot⟩ := Bool.and_eq_true_iff.1 hc
        exact hn.elim (fun h => h (of_decide_eq_true h0)) (fun h => h (of_decide_eq_true hslot))
    · rintro ⟨rfl, rfl⟩
      exact hx.trans (congrArg Host.Outcome.next hhold)
    · subst hr
      rw [hx, Iss.windowWrite, hhold]
      split <;> rfl
    · subst hr
      rw [hx, Iss.windowWrite, Iss.counted_lanes h.reads, hm, Iss.counted_a h.reads]
      rfl
    · subst hr
      rw [hx, Iss.windowWrite, Iss.counted_lanes h.reads, hm]
      rfl
    · have hill : q.counted.trap clsIllegal = q.trap clsIllegal := Iss.counted_trap h.reads _
      change _ = Host.Outcome.next (q.trapped (q.trap clsIllegal))
      rw [← hill]
      obtain rfl | rfl | rfl := hr <;> exact hx

end Sys2Proof.Machine
end

section
namespace Sys2Proof.Machine

/-! ### LDMB (R314) -/

/-- The block of an LDMB goes in flight: its window holds every register of the block (R52, R314). -/
def Iss.putBlock (q : Iss) (k : BitVec 4) (path fmt : Nat) (s : State) (parts : List Part) (empty : Bool) : State :=
  (q.enter s path (.block (blockFirst (q.fm.at .d)) (blockRegs fmt q.g.count) (mfImage 32 fmt)) parts 0 k [] empty).modGroup q.c.team q.c.g
    (fun g => g.modWindow q.g.nextId (fun w => { w with dst := q.blockTarget fmt, whole := true }))

/-- LDMB of a block that fits the registers, for the lowest lane of EXEC (R240, R314). -/
def Iss.loadBlock (q : Iss) (k : BitVec 4) (sp : BitVec 1) (fmt : Nat) : Eff :=
  match q.lanes.head? with
  | none => .ok (q.putBlock k sp.toNat fmt q.s [] true)
  | some m =>
    let off : Int := Int.ofNat (q.a64 m).toNat
    if imageSegFails (q.segOf sp.toNat).limit (mfImage 32 fmt) off then .trap { q.trapAt clsSeg m with addr := BitVec.ofInt 64 off }
    else
      let va := q.formed sp.toNat off m
      match q.imageParts (q.lid m) va (sp == 1) q.s (List.range (mfImage 32 fmt / 8)) with
      | (s, .error (v, e)) => .trap (s.tookBy q.c.team (q.xlateTrap m v e .load))
      | (s, .ok parts) =>
        match (if sp = 1 then none else q.dataTrap true false [(q.lid m, va)]) with
        | some t => .trap (s.tookBy q.c.team t)
        | none => if q.g.full sp.toNat then .hold .none else .ok (q.putBlock k sp.toNat fmt s parts false)

/-- The registers of the block fit the budget, and do not meet its address pair (R52, R314). -/
def Iss.blockFits (q : Iss) (fmt : Nat) : Prop :=
  let block := (blockFirst (q.fm.at .d), blockRegs fmt q.g.count)
  block.1 + block.2 ≤ q.t.hdr.budget q.g.role
    ∧ ¬(1 < block.2 ∧ spansMeet block (blockFirst q.opA, 2) = true ∧ block ≠ (blockFirst q.opA, 2))

section
variable {s : State} {fm : Form} {q : Iss} (h : s.issuer fm = some q)
include h

theorem Iss.counted_at (p : Pos) : q.counted.fm.at p = q.fm.at p := by rw [Iss.counted_fm h]
theorem Iss.counted_blockTarget (fmt : Nat) : q.counted.blockTarget fmt = q.blockTarget fmt := by
  rw [Iss.blockTarget, Iss.counted_at h, Iss.counted_count h, Iss.blockTarget]
theorem Iss.counted_putBlock (k : BitVec 4) (path fmt : Nat) (u : State) (parts : List Part) (empty : Bool) :
    q.counted.putBlock k path fmt u parts empty =
      (q.counted.enter u path (.block (blockFirst (q.fm.at .d)) (blockRegs fmt q.g.count) (mfImage 32 fmt)) parts 0 k [] empty).modGroup
        q.c.team q.c.g (fun g => g.modWindow q.counted.g.nextId (fun w => { w with dst := q.blockTarget fmt, whole := true })) := by
  rw [Iss.putBlock, Iss.counted_at h, Iss.counted_count h, Iss.counted_c h, Iss.counted_blockTarget h]
theorem Iss.counted_blockFits (fmt : Nat) : q.counted.blockFits fmt ↔ q.blockFits fmt := by
  simp only [Iss.blockFits, Iss.counted_at h, Iss.counted_count h, Iss.counted_hdr h, Iss.counted_role h, Iss.counted_opA h]
theorem Iss.counted_formed (k : Nat) (off : Int) (i : Nat) : q.counted.formed k off i = q.formed k off i := by
  simp only [Iss.formed, Iss.counted_segOf h, Iss.counted_lid h]

end

section
variable {s s1 : State} {q : Iss} {k : BitVec 4} {t a : Code} {sp : BitVec 1} {fmt : BitVec 5}
  (h : IssuesTo (.ldmb k t a sp fmt) (q.blockTarget fmt.toNat) s q) (hfits : q.blockFits fmt.toNat)
include h hfits

theorem exec_ldmb : exec (.ldmb k t a sp fmt) s = q.outcome (q.counted.loadBlock k sp fmt.toNat) := by
  have he : exec (.ldmb k t a sp fmt) s = execLdmb k t a sp fmt s := rfl
  obtain ⟨hbudget, hapart⟩ := (Iss.counted_blockFits h.reads _).2 hfits
  rw [he, execLdmb]
  refine (issueWith_outcome (tg := fun q => q.blockTarget fmt.toNat) h rfl _).trans (congrArg q.outcome ?_)
  refine (if_neg (Nat.not_lt.2 hbudget)).trans ((if_neg ?_).trans rfl)
  simpa [and_assoc] using hapart

/-- With no lane in EXEC only the window opens. -/
theorem exec_ldmb_empty (hex : q.ex = 0) :
    exec (.ldmb k t a sp fmt) s = .next (q.counted.putBlock k sp.toNat fmt.toNat q.counted.s [] true) := by
  have hl : q.counted.lanes.head? = none := by
    rw [Iss.counted_lanes h.reads, Iss.lanes, hex]
    rfl
  rw [exec_ldmb h hfits, Iss.loadBlock, hl]
  rfl

/-- For the lowest lane of EXEC an image that passes its checks goes in flight. -/
theorem exec_ldmb_enters {m : Nat} {parts : List Part} (hm : q.lanes.head? = some m)
    (hseg : imageSegFails (q.segOf sp.toNat).limit (mfImage 32 fmt.toNat) (Int.ofNat (q.a64 m).toNat) = false)
    (hparts : q.counted.imageParts (q.lid m) (q.formed sp.toNat (Int.ofNat (q.a64 m).toNat) m) (sp == 1) q.counted.s
      (List.range (mfImage 32 fmt.toNat / 8)) = (s1, .ok parts))
    (hdata : sp = 1 ∨ q.counted.dataTrap true false [(q.lid m, q.formed sp.toNat (Int.ofNat (q.a64 m).toNat) m)] = none)
    (hroom : q.g.counter sp.toNat < 63) :
    exec (.ldmb k t a sp fmt) s = .next (q.counted.putBlock k sp.toNat fmt.toNat s1 parts false) := by
  have hmatch : (if sp = 1 then none
      else q.counted.dataTrap true false [(q.lid m, q.formed sp.toNat (Int.ofNat (q.a64 m).toNat) m)]) = none := by
    obtain rfl | hnone := hdata
    · rfl
    · rw [hnone, ite_self]
  have hfull : q.counted.g.full sp.toNat = false := by
    rw [Group.full, Iss.counted_counter h.reads]
    exact decide_eq_false (Nat.not_le.2 hroom)
  rw [exec_ldmb h hfits, Iss.loadBlock, Iss.counted_lanes h.reads, hm]
  simp only [Iss.counted_segOf h.reads, Iss.counted_a64 h.reads, Iss.counted_lid h.reads, Iss.counted_formed h.reads, hseg, hparts, hmatch, hfull,
    Bool.false_eq_true, if_false, Iss.outcome]

end

/-! ### MSTART (R315, R326) -/

/-- The B block of a format in the registers from one on, with its tag (R313, R326). -/
def Iss.block (q : Iss) (fmt first : Nat) : Staging :=
  { bytes := Cells.setRange [] 0 ((List.range (mfImage 32 fmt)).map (q.t.blockByte q.g first)), tag := some fmt }

/-- The team has a stream, the control word is legal and the block's registers fit the budget (R315). -/
def Iss.mstartLegal (q : Iss) : Prop :=
  q.t.body.stream.isSome = true ∧ bitsOf (q.uni .b) 4 0 ≠ 0 ∧ q.uni .b &&& ~~~0x31F = 0
    ∧ blockFirst q.opA + blockRegs (bitsOf (q.uni .b) 4 0) q.g.count ≤ q.t.hdr.budget q.g.role

/-- The state after an MSTART into a buffer of a unit: the block is copied and the window opened (R315). -/
def Iss.started (q : Iss) (k : BitVec 4) (u : BitVec 1) : State :=
  (q.modTeam (fun t => t.modStream (fun st =>
    { st with b := listModify st.b (4 * u.toNat + bitsOf (q.uni .b) 9 8) (fun _ => q.block (bitsOf (q.uni .b) 4 0) (blockFirst q.opA)) }))).modGroup
      q.c.team q.c.g (fun g => { (g.openWindow q.c.f (q.plainWindow k)) with nextId := g.nextId + 1 })

/-- What MSTART comes to. -/
def Iss.mstart (q : Iss) (k : BitVec 4) (u : BitVec 1) : Eff :=
  if q.t.body.stream.isNone || bitsOf (q.uni .b) 4 0 = 0 || q.uni .b &&& ~~~0x31F != 0
      || q.t.hdr.budget q.g.role < blockFirst q.opA + blockRegs (bitsOf (q.uni .b) 4 0) q.g.count then .trap (q.trap clsIllegal)
  else match q.blockError (blockFirst q.opA) (blockRegs (bitsOf (q.uni .b) 4 0) q.g.count) with
  | some t => .trap t
  | none => .ok (q.started k u)

theorem effect_mstart (l : Option Word) (k : BitVec 4) (u : BitVec 1) (a b : Code) : HasEffect (.mstart l k u a b) (fun q => q.mstart k u) :=
  fun _ => rfl
theorem effect_maccRd (l : Option Word) (d a : Code) : HasEffect (.maccRd l d a) (fun q =>
    match q.t.body.stream with
    | none => .trap (q.trap clsIllegal)
    | some st => .ok (q.result (fun i => st.acc.get (accIndex (q.a i))))) := fun _ => rfl
theorem effect_maccWr (l : Option Word) (a b : Code) : HasEffect (.maccWr l a b) (fun q =>
    match q.t.body.stream with
    | none => .trap (q.trap clsIllegal)
    | some _ =>
      let s := q.modTeam (fun t => t.modStream (fun st =>
        { st with acc := q.accOrder.foldl (fun c i => c.set (accIndex (q.a i)) (q.b i)) st.acc }))
      .ok { s with freeCount := s.freeCount + 1 }) := fun _ => rfl

section
variable {s : State} {fm : Form} {q : Iss} (h : s.issuer fm = some q)
include h

theorem Iss.counted_stream : q.counted.t.body.stream = q.t.body.stream := by rw [Iss.counted_t h]; rfl
theorem Iss.counted_blockError (first n : Nat) : q.counted.blockError first n = q.blockError first n := by
  simp only [Iss.blockError, Group.exist, Iss.counted_count h, Iss.counted_lane h, Iss.counted_lid h, Iss.counted_trapAt h]
theorem Iss.counted_block (fmt first : Nat) : q.counted.block fmt first = q.block fmt first := by
  rw [(Iss.counted_eq h).1]; rfl
theorem Iss.counted_mstartLegal : q.counted.mstartLegal ↔ q.mstartLegal := by
  simp only [Iss.mstartLegal, Iss.counted_stream h, Iss.counted_uni h, Iss.counted_opA h, Iss.counted_count h, Iss.counted_hdr h, Iss.counted_role h]
theorem Iss.counted_started (k : BitVec 4) (u : BitVec 1) : q.counted.started k u =
    (q.counted.modTeam (fun t => t.modStream (fun st =>
      { st with b := listModify st.b (4 * u.toNat + bitsOf (q.uni .b) 9 8) (fun _ => q.block (bitsOf (q.uni .b) 4 0) (blockFirst q.opA)) }))).modGroup
        q.c.team q.c.g (fun g => { (g.openWindow q.c.f (q.counted.plainWindow k)) with nextId := g.nextId + 1 }) := by
  simp only [Iss.started, Iss.counted_uni h, Iss.counted_opA h, Iss.counted_block h, Iss.counted_c h]

end

theorem Iss.mstart_of_legal {q : Iss} (hl : q.mstartLegal) (k : BitVec 4) (u : BitVec 1) : q.mstart k u =
    match q.blockError (blockFirst q.opA) (blockRegs (bitsOf (q.uni .b) 4 0) q.g.count) with
    | some t => .trap t
    | none => .ok (q.started k u) := by
  obtain ⟨hs, hf, hc, hr⟩ := hl
  refine if_neg fun hbad => ?_
  simp only [Bool.or_eq_true, decide_eq_true_eq, bne_iff_ne, Option.isNone_iff_eq_none] at hbad
  obtain ((hn | h0) | hctl) | hlt := hbad
  · exact Option.isSome_iff_ne_none.1 hs hn
  · exact hf h0
  · exact hctl hc
  · exact Nat.not_lt.2 hr hlt

section
variable {s : State} {q : Iss} {l : Option Word} {k : BitVec 4} {u : BitVec 1} {a b d : Code}

/-- A legal MSTART copies its block, or meets an uncorrectable error in it. -/
theorem exec_mstart_starts (h : Issues (.mstart l k u a b) s q) (hl : q.mstartLegal)
    (he : q.blockError (blockFirst q.opA) (blockRegs (bitsOf (q.uni .b) 4 0) q.g.count) = none) :
    exec (.mstart l k u a b) s = .next (q.counted.started k u) := by
  refine (effect_mstart l k u a b).exec_ok h ((Iss.mstart_of_legal ((Iss.counted_mstartLegal h.reads).2 hl) k u).trans ?_)
  rw [Iss.counted_blockError h.reads, Iss.counted_opA h.reads, Iss.counted_uni h.reads, Iss.counted_count h.reads, he]

theorem exec_mstart_error {tr : Trap} (h : Issues (.mstart l k u a b) s q) (hl : q.mstartLegal)
    (he : q.blockError (blockFirst q.opA) (blockRegs (bitsOf (q.uni .b) 4 0) q.g.count) = some tr) :
    exec (.mstart l k u a b) s = .next (q.trapped tr) := by
  refine (effect_mstart l k u a b).exec_trap h ((Iss.mstart_of_legal ((Iss.counted_mstartLegal h.reads).2 hl) k u).trans ?_)
  rw [Iss.counted_blockError h.reads, Iss.counted_opA h.reads, Iss.counted_uni h.reads, Iss.counted_count h.reads, he]

/-- Without a stream MSTART and both words of MACC are ILLEGAL. -/
theorem exec_mstart_streamless (h : Issues (.mstart l k u a b) s q) (hs : q.t.body.stream = none) :
    exec (.mstart l k u a b) s = .next (q.trapped (q.trap clsIllegal)) := by
  refine (effect_mstart l k u a b).exec_trap h ((if_pos ?_).trans (congrArg Eff.trap (Iss.counted_trap h.reads _)))
  simp [Iss.counted_stream h.reads, hs]

theorem exec_maccRd_streamless (h : Issues (.maccRd l d a) s q) (hs : q.t.body.stream = none) :
    exec (.maccRd l d a) s = .next (q.trapped (q.trap clsIllegal)) := by
  refine (effect_maccRd l d a).exec_trap h ?_
  rw [Iss.counted_stream h.reads, hs]
  exact congrArg Eff.trap (Iss.counted_trap h.reads _)

theorem exec_maccWr_streamless (h : Issues (.maccWr l a b) s q) (hs : q.t.body.stream = none) :
    exec (.maccWr l a b) s = .next (q.trapped (q.trap clsIllegal)) := by
  refine (effect_maccWr l a b).exec_trap h ?_
  rw [Iss.counted_stream h.reads, hs]
  exact congrArg Eff.trap (Iss.counted_trap h.reads _)

/-- MACC.RD reads the word that each lane of EXEC names. -/
theorem exec_maccRd {st : Stream} (h : Issues (.maccRd l d a) s q) (hs : q.t.body.stream = some st) :
    exec (.maccRd l d a) s = .next (q.counted.result (fun i => st.acc.get (accIndex (q.a i)))) := by
  refine (effect_maccRd l d a).exec_ok h ?_
  rw [Iss.counted_stream h.reads, hs, ← Iss.counted_a h.reads]

/-- MACC.WR writes the words that the lanes of EXEC name, in their order. -/
theorem exec_maccWr {st : Stream} (h : Issues (.maccWr l a b) s q) (hs : q.t.body.stream = some st) :
    let r := q.counted.modTeam (fun t => t.modStream (fun st =>
      { st with acc := q.counted.accOrder.foldl (fun c i => c.set (accIndex (q.a i)) (q.b i)) st.acc }))
    exec (.maccWr l a b) s = .next { r with freeCount := r.freeCount + 1 } := by
  refine (effect_maccWr l a b).exec_ok h ?_
  rw [Iss.counted_stream h.reads, hs, ← Iss.counted_a h.reads, ← Iss.counted_b h.reads]

end

/-- Settles O38: LDMB by whether a lane takes part, MSTART by what its block holds, MACC by whether the team has a stream. -/
theorem matrixGroupInstructions : Obligations.MatrixGroupInstructions := by
  intro s q l k t a b d sp u fmt m s1 parts st c first n size put room off ctl bf base block
  simp only [List.forall_mem_cons, List.not_mem_nil, false_imp_iff, implies_true, and_true]
  refine ⟨fun h hr hex => ?_, fun h hr hm hseg hparts hdata hroom => ?_, fun h hs hf hc hb he => ?_, fun tr h hs hf hc hb he => ?_,
    exec_maccRd, exec_maccWr, exec_mstart_streamless, exec_maccRd_streamless, exec_maccWr_streamless⟩
  · exact (exec_ldmb_empty h hr hex).trans (congrArg Host.Outcome.next (Iss.counted_putBlock h.reads ..))
  · exact (exec_ldmb_enters h hr hm hseg hparts hdata hroom).trans (congrArg Host.Outcome.next (Iss.counted_putBlock h.reads ..))
  · exact (exec_mstart_starts h ⟨hs, hf, hc, hb⟩ he).trans (congrArg Host.Outcome.next (Iss.counted_started h.reads k u))
  · exact exec_mstart_error h ⟨hs, hf, hc, hb⟩ he

end Sys2Proof.Machine
end

section
namespace Sys2Proof.Machine

/-! ### What the issue of an access leaves alone (R241, R245, R336) -/

/-- What the issue of an access keeps of its team: lanes, scratchpad, and of its group S registers, MR, segments and flags. -/
def Team.kept (gi : Nat) (t : Team) : List Lane × Cells 8 × Option (Cells 32 × Word × List Seg × Nat) :=
  (t.body.lanes, t.body.scratch, (t.body.groups[gi]?).map (fun g => (g.s, g.mr, g.seg, g.flags)))

/-- `u` differs from `s` in no byte of memory, in no other team, and in nothing of the team that the issue of an access keeps. -/
structure State.AccessFrame (tid gi : Nat) (s u : State) : Prop where
  memory : ∀ n, u.physByte n = s.physByte n
  others : ∀ n, n ≠ tid → u.team? n = s.team? n
  team : (u.team? tid).map (Team.kept gi) = (s.team? tid).map (Team.kept gi)

/-- A change of the group that keeps S registers, MR, segments and flags does not show. -/
theorem Team.kept_modGroup {f : Group → Group} (hf : ∀ g, (f g).s = g.s ∧ (f g).mr = g.mr ∧ (f g).seg = g.seg ∧ (f g).flags = g.flags)
    (gi k : Nat) (t : Team) : (t.modGroup k f).kept gi = t.kept gi := by
  simp only [Team.kept, Team.modGroup_body_lanes, Team.modGroup_body_scratch, Team.modGroup_body_groups, listModify_getElem?]
  split
  · cases t.body.groups[gi]? with
    | none => rfl
    | some g =>
      obtain ⟨hs, hmr, hseg, hfl⟩ := hf g
      simp only [Option.map_some, hs, hmr, hseg, hfl]
  · rfl

namespace State.AccessFrame
variable {tid gi : Nat} {s u v : State}

theorem refl (s : State) : State.AccessFrame tid gi s s := ⟨fun _ => rfl, fun _ _ => rfl, rfl⟩

theorem trans (h : State.AccessFrame tid gi s u) (h' : State.AccessFrame tid gi u v) : State.AccessFrame tid gi s v :=
  ⟨fun n => (h'.memory n).trans (h.memory n), fun n hn => (h'.others n hn).trans (h.others n hn), h'.team.trans h.team⟩

/-- A change beside memory and the teams. -/
theorem beside (hm : u.mem = s.mem) (hh : u.hostMem = s.hostMem) (ht : u.teams = s.teams) : State.AccessFrame tid gi s u :=
  have hteam : ∀ n, u.team? n = s.team? n := fun n => by rw [State.team?, ht, State.team?]
  ⟨fun n => by rw [State.physByte, hm, hh, State.physByte], fun n _ => hteam n, by rw [hteam]⟩

/-- A change of the team that keeps these. -/
theorem modTeam (s : State) {f : Team → Team} (hid : ∀ t, (f t).id = t.id) (hk : ∀ t, (f t).kept gi = t.kept gi) :
    State.AccessFrame tid gi s (s.modTeam tid f) := by
  have hf : ∀ t : Team, t.id = tid → (f t).id = tid := fun t ht => (hid t).trans ht
  refine ⟨fun _ => rfl, fun n hn => State.team?_modTeam_ne _ _ _ hf hn, ?_⟩
  rw [State.team?_modTeam_self _ _ _ hf, Option.map_map]
  exact congrArg (Option.map · (s.team? tid)) (funext hk)

/-- A page walk. -/
theorem walk (h : s.WalkFrame u) : State.AccessFrame tid gi s u :=
  beside (congrArg State.mem h.rest :) (congrArg State.hostMem h.rest :) (congrArg State.teams h.rest :)

end State.AccessFrame

/-- A lookup changes no more than a walk may, where the team stands on no core too. -/
theorem State.lookup_frame (s : State) (core : Option Nat) (ten ctx va : Nat) : s.WalkFrame (s.lookup core ten ctx va).1 := by
  cases core with
  | some n => exact s.lookup_walkFrame n ten ctx va
  | none =>
    have hs := State.WalkFrame.refl s
    unfold State.lookup
    dsimp only [Option.bind_none]
    split
    · exact hs
    · split <;> exact hs.touchWalk _ _ _

theorem State.translate_frame (s : State) (core : Option Nat) (ten ctx va : Nat) (a : Acc) : s.WalkFrame (s.translate core ten ctx va a).1 := by
  have hl := s.lookup_frame core ten ctx va
  unfold State.translate
  split
  · exact State.WalkFrame.refl s
  · generalize s.lookup core ten ctx va = r at hl ⊢
    obtain ⟨u, x | e⟩ := r
    · exact hl
    · dsimp only
      split <;> exact hl

section
variable {tid gi : Nat}

theorem State.translateSpan_accessFrame (s : State) (core : Option Nat) (ten ctx va n : Nat) (a : Acc) :
    State.AccessFrame tid gi s (s.translateSpan core ten ctx va n a).1 := by
  have hfirst := s.translate_frame core ten ctx va a
  unfold State.translateSpan
  generalize s.translate core ten ctx va a = r at hfirst ⊢
  obtain ⟨u, e | ⟨pa, mt⟩⟩ := r
  · exact .walk hfirst
  · dsimp only
    split
    · exact .walk hfirst
    · have hsecond := u.translate_frame core ten ctx (va + (4096 - va % 4096)) a
      generalize u.translate core ten ctx (va + (4096 - va % 4096)) a = r at hsecond ⊢
      obtain ⟨v, e | ⟨pa2, mt2⟩⟩ := r <;> exact (State.AccessFrame.walk hfirst).trans (.walk hsecond)

theorem State.keepTook_accessFrame (s : State) {t : Team} (ht : t.id = tid) (p : Part) : State.AccessFrame tid gi s (s.keepTook t p) := by
  unfold State.keepTook
  split
  · rw [ht]
    exact .modTeam s (fun _ => rfl) (fun _ => rfl)
  · exact .refl s

theorem State.place_accessFrame (s : State) {t : Team} (ht : t.id = tid) (one : Bool) (lid ix va n d d2 : Nat) (a : Acc) :
    State.AccessFrame tid gi s (s.place t one lid ix va n d d2 a).1 := by
  have hspan := s.translateSpan_accessFrame (tid := tid) (gi := gi) t.core? t.tenant t.ctx va n a
  unfold State.place
  split
  · exact .refl s
  · generalize s.translateSpan t.core? t.tenant t.ctx va n a = r at hspan ⊢
    obtain ⟨u, e | loc⟩ := r
    · exact hspan
    · exact hspan.trans (u.keepTook_accessFrame ht _)

theorem State.laneParts_accessFrame {t : Team} (ht : t.id = tid) (lid va n : Nat) (scratch : Bool) (a : Acc) (x : Nat × Nat) (l : List (Nat × Nat))
    (s : State) : State.AccessFrame tid gi s (s.laneParts t lid va n scratch a x l).1 := by
  induction l generalizing s with
  | nil => exact .refl s
  | cons y rest ih =>
    obtain ⟨ix, m⟩ := y
    unfold State.laneParts
    dsimp only
    split
    · have hrest := ih s
      generalize s.laneParts t lid va n scratch a x rest = r at hrest ⊢
      obtain ⟨u, e | l⟩ := r <;> exact hrest
    · have hplace := s.place_accessFrame (gi := gi) ht false lid ix (va + 8 * ix) m (x.1 / 2 ^ (64 * ix) % 2 ^ (8 * m)) x.2 a
      generalize s.place t false lid ix (va + 8 * ix) m (x.1 / 2 ^ (64 * ix) % 2 ^ (8 * m)) x.2 a = r at hplace ⊢
      obtain ⟨u, e | p⟩ := r
      · exact hplace
      · dsimp only
        have hrest := ih u
        generalize u.laneParts t lid va n scratch a x rest = r at hrest ⊢
        obtain ⟨v, e | l⟩ := r <;> exact hplace.trans hrest

theorem Iss.allParts_accessFrame {q : Iss} (hq : q.t.id = tid) (x : Access) (l : List Nat) (s : State) :
    State.AccessFrame tid gi s (q.allParts x s l).1 := by
  induction l generalizing s with
  | nil => exact .refl s
  | cons i rest ih =>
    have hlane := State.laneParts_accessFrame (gi := gi) hq (q.lid i) (q.formed x.seg (q.offset x.disp i) i) x.size (x.seg == 1)
      ⟨accessKind x.ld x.wr, x.wr, x.size⟩ (x.data i) (pieces x.size) s
    unfold Iss.allParts
    dsimp only
    generalize s.laneParts q.t (q.lid i) (q.formed x.seg (q.offset x.disp i) i) x.size (x.seg == 1)
      ⟨accessKind x.ld x.wr, x.wr, x.size⟩ (x.data i) (pieces x.size) = r at hlane ⊢
    obtain ⟨u, e | l⟩ := r
    · exact hlane
    · dsimp only
      have hrest := ih u
      generalize q.allParts x u rest = r at hrest ⊢
      obtain ⟨v, e | l⟩ := r <;> exact hlane.trans hrest

theorem Iss.lineParts_accessFrame (q : Iss) (disp : Int) (l : List Nat) (s : State) : State.AccessFrame tid gi s (q.lineParts disp s l).1 := by
  induction l generalizing s with
  | nil => exact .refl s
  | cons i rest ih =>
    have hline := s.translate_frame q.t.core? q.t.tenant q.t.ctx (q.formed 0 (q.offset disp i) i) ⟨.load, false, 1⟩
    unfold Iss.lineParts
    dsimp only
    split
    · exact ih s
    · generalize s.translate q.t.core? q.t.tenant q.t.ctx (q.formed 0 (q.offset disp i) i) ⟨.load, false, 1⟩ = r at hline ⊢
      obtain ⟨u, e | ⟨pa, mt⟩⟩ := r <;> exact (State.AccessFrame.walk hline).trans (ih u)

theorem State.takeVersion_accessFrame (s : State) (pa : Nat) : State.AccessFrame tid gi s (s.takeVersion tid pa) := by
  have hteam : State.AccessFrame tid gi s
      (s.modTeam tid (fun t => { t with versions := t.versions ++ [{ line := pa / 256, written := 0, data := [] }] })) :=
    .modTeam s (fun _ => rfl) (fun _ => rfl)
  unfold State.takeVersion
  dsimp only
  split <;> exact hteam.trans (.beside rfl rfl rfl)

theorem State.takeLines_accessFrame (s : State) (l : List (Part × Nat)) : State.AccessFrame tid gi s (s.takeLines tid l).1 := by
  induction l generalizing s with
  | nil => exact .refl s
  | cons y rest ih =>
    obtain ⟨p, line⟩ := y
    unfold State.takeLines
    split
    · exact .refl s
    · split
      · exact ih s
      · dsimp only
        split
        · exact .refl s
        · exact (s.takeVersion_accessFrame (line * 256)).trans (ih _)

theorem State.takeFor_accessFrame (s : State) {t : Team} (ht : t.id = tid) (w : List (Part × Nat)) :
    State.AccessFrame tid gi s (s.takeFor t w).1 := by
  unfold State.takeFor
  split
  · exact .refl s
  · rw [ht]
    exact s.takeLines_accessFrame w

theorem State.telNote_accessFrame (s : State) {t : Team} (ht : t.id = tid) (e : TelEvent) : State.AccessFrame tid gi s (s.telNote t e) := by
  unfold State.telNote
  split
  · rw [ht]
    exact .modTeam s (fun _ => rfl) (fun _ => rfl)
  · exact .refl s

theorem State.telltaleStore_accessFrame (s : State) {t : Team} (ht : t.id = tid) (g : Nat) (pc : DWord) (op : OpKind) (parts : List Part) :
    State.AccessFrame tid gi s (s.telltaleStore t g pc op parts) := by
  have hnote := s.telNote_accessFrame (gi := gi) ht
  unfold State.telltaleStore
  extract_lets cas e
  split
  · exact hnote e
  · split
    · exact (hnote e).trans (.beside rfl rfl rfl)
    · rename_i p hp
      extract_lets e' s'
      have hs' : State.AccessFrame tid gi s s' := by
        unfold s'
        split
        · exact hnote e'
        · split
          · exact hnote e
          · rw [ht]
            exact (hnote e).trans (.modTeam _ (fun _ => rfl) (fun _ => rfl))
      exact hs'.trans (.beside rfl rfl rfl)

/-- The checks of an access that passes them leave all this alone. -/
theorem Iss.checked_accessFrame {q : Iss} (hq : q.t.id = tid) {x : Access} {s' : State} {parts : List Part} (hc : q.checked x = .ok (s', parts)) :
    State.AccessFrame tid gi q.s s' := by
  have hparts := q.allParts_accessFrame (gi := gi) hq x q.lanes q.s
  unfold Iss.checked at hc
  split at hc
  · cases hc
  · generalize q.allParts x q.s q.lanes = r at hparts hc
    obtain ⟨u, tr | l⟩ := r
    · cases hc
    · dsimp only at hc
      split at hc
      · cases hc
      · split at hc
        · have htake := u.takeFor_accessFrame (gi := gi) hq (partLines l)
          generalize u.takeFor q.t (partLines l) = r at htake hc
          obtain ⟨v, _ | ⟨p, addr⟩⟩ := r <;> cases hc
          exact (hparts.trans htake).trans (v.telltaleStore_accessFrame hq ..)
        · cases hc
          exact hparts

end

/-! ### The traps of an access raise no flag (R161, R336) -/

theorem Iss.segTrap_flags {q : Iss} {k n : Nat} {disp : Int} {tr : Trap} (h : q.segTrap k n disp = some tr) : tr.flags = 0 := by
  obtain ⟨i, -, rfl⟩ := Option.map_eq_some_iff.1 h
  rfl

theorem Iss.dataTrap_flags {q : Iss} {ld wr : Bool} {vas : List (Nat × Nat)} {tr : Trap} (h : q.dataTrap ld wr vas = some tr) : tr.flags = 0 := by
  obtain ⟨m, -, rfl⟩ := Option.map_eq_some_iff.1 h
  rfl

/-- A trap chosen by a check is that check's own or a later one's. -/
theorem trap_of_ite {c : Prop} [Decidable c] {own tr : Trap} {later : Option Trap} (h : (if c then some own else later) = some tr) :
    own = tr ∨ later = some tr := by
  split at h
  · exact .inl (Option.some.inj h)
  · exact .inr h

theorem Iss.scopeTrap_flags {q : Iss} {sc : Nat} {atomic : Bool} {tr : Trap} (h : q.scopeTrap sc atomic = some tr) : tr.flags = 0 := by
  unfold Iss.scopeTrap at h
  obtain rfl | h := trap_of_ite h
  · rfl
  · obtain rfl | h := trap_of_ite h
    · rfl
    · cases h

theorem Iss.allParts_flags {q : Iss} {x : Access} {l : List Nat} {s s' : State} {tr : Trap} (h : q.allParts x s l = (s', .error tr)) : tr.flags = 0 := by
  induction l generalizing s with
  | nil => cases h
  | cons i rest ih =>
    unfold Iss.allParts at h
    dsimp only at h
    split at h
    · cases h; rfl
    · split at h
      · cases h
      · rename_i u l hlane hr
        exact ih h

theorem Iss.checked_flags {q : Iss} {x : Access} {tr : Trap} (h : q.checked x = .error tr) : tr.flags = 0 := by
  unfold Iss.checked at h
  split at h
  · rename_i hs
    cases h
    exact Iss.segTrap_flags hs
  · split at h
    · rename_i hp
      cases h
      exact Iss.allParts_flags hp
    · split at h
      · rename_i hd
        cases h
        have hflags := Iss.dataTrap_flags hd
        exact hflags
      · split at h
        · split at h <;> cases h
          rfl
        · cases h

/-! ### The effects of these instructions -/

/-- An effect that stores nothing yet: a wait, a trap that raises no flag, or a state that differs in nothing that an access keeps. -/
inductive Iss.StoresNothing (q : Iss) : Eff → Prop where
  | ok {t : State} (h : State.AccessFrame q.c.team q.c.g q.s t) : q.StoresNothing (.ok t)
  | hold (w : Wait) : q.StoresNothing (.hold w)
  | trap {tr : Trap} (h : tr.flags = 0) : q.StoresNothing (.trap tr)

/-- Putting an access in flight changes windows, flight and hang count of its group. -/
theorem Iss.enter_accessFrame (q : Iss) (s : State) (path : Nat) (kind : OpKind) (parts : List Part) (hint : Nat) (k : BitVec 4)
    (zeros : List PWrite) (empty : Bool) : State.AccessFrame q.c.team q.c.g s (q.enter s path kind parts hint k zeros empty) := by
  refine .modTeam s (fun _ => rfl) (Team.kept_modGroup (fun g => ?_) _ _)
  cases empty <;> exact ⟨rfl, rfl, rfl, rfl⟩

theorem Iss.storesNothing_access {q : Iss} (hq : q.t.id = q.c.team) (x : Access) (k : BitVec 4) (zeros : List PWrite) :
    q.StoresNothing (q.access x k zeros) := by
  unfold Iss.access
  split
  · rename_i hc
    exact .trap (Iss.checked_flags hc)
  · rename_i hc
    split
    · exact .hold _
    · exact .ok ((Iss.checked_accessFrame hq hc).trans (q.enter_accessFrame ..))

theorem Iss.storesNothing_cache (q : Iss) (f path : Nat) (disp : Code) (k : BitVec 4) : q.StoresNothing (q.cache f path disp k) := by
  have hlines := q.lineParts_accessFrame (tid := q.c.team) (gi := q.c.g) (disp.toInt * 256) q.lanes q.s
  unfold Iss.cache
  split
  · exact .hold _
  · refine .ok (State.AccessFrame.trans ?_ (q.enter_accessFrame ..))
    split
    · exact .refl _
    · exact hlines

theorem Iss.storesNothing_redm {q : Iss} (hq : q.t.id = q.c.team) (n : Nat) (sc : BitVec 3) (op k : BitVec 4) :
    q.StoresNothing (q.redm n sc op k) := by
  unfold Iss.redm
  split
  · exact .trap rfl
  · split
    · rename_i hs
      exact .trap (Iss.scopeTrap_flags hs)
    · exact Iss.storesNothing_access hq ..

/-! ### From the count of the issue to its outcome -/

theorem Iss.counted_accessFrame {s : State} {fm : Form} {q : Iss} (h : s.issuer fm = some q) :
    State.AccessFrame q.c.team q.c.g q.s q.counted.s := by
  have hteam : State.AccessFrame q.c.team q.c.g q.s (q.s.modTeam q.c.team q.countTeam) :=
    .modTeam _ (fun _ => rfl) (fun t => Team.kept_modGroup (f := q.countGroup) (fun _ => ⟨rfl, rfl, rfl, rfl⟩) _ _ t)
  obtain ⟨co, cl, hcharge⟩ := (q.s.modTeam q.c.team q.countTeam).chargeIssue_eq q.t q.g q.fm q.ex
  rw [(Iss.counted_eq h).1, Iss.account_eq, hcharge]
  exact hteam.trans (.beside rfl rfl rfl)

theorem Iss.heldBack_accessFrame (q : Iss) (w : Wait) : State.AccessFrame q.c.team q.c.g q.s (q.heldBack w) := by
  have hcur : State.AccessFrame q.c.team q.c.g q.s { q.s with cur := none } := .beside rfl rfl rfl
  refine hcur.trans (.modTeam _ (fun _ => rfl) (fun t => Team.kept_modGroup (fun g => ?_) _ _ t))
  exact ⟨rfl, rfl, rfl, rfl⟩

/-- A trap that raises no flag changes no more than its team's traps. -/
theorem Team.afterTrap_kept (t : Team) (s : State) {tr : Trap} (htr : tr.flags = 0) (gi : Nat) : (t.afterTrap s tr).kept gi = t.kept gi := by
  unfold Team.afterTrap
  extract_lets u
  have hu : u.kept gi = t.kept gi := by
    refine Team.kept_modGroup (fun g => ?_) gi tr.g { t with took := tr.took }
    split <;> simp [htr]
  split
  · refine Eq.trans (Team.kept_modGroup (fun g => ?_) gi tr.g u) hu
    split <;> simp
  · exact hu

theorem Iss.trapped_accessFrame (q : Iss) {tr : Trap} (htr : tr.flags = 0) : State.AccessFrame q.c.team q.c.g q.s (q.trapped tr) := by
  have hcur : State.AccessFrame q.c.team q.c.g q.s { q.s with cur := none, nextId := q.s.nextId + 1 } := .beside rfl rfl rfl
  rw [Iss.trapped, State.takeTrap_eq]
  exact hcur.trans (.modTeam _ (fun t => t.afterTrap_id _ _) (fun t => t.afterTrap_kept _ htr _))

/-- An instruction whose effect stores nothing yet, as its issue leaves memory and the teams. -/
theorem HasEffect.accessFrame {i : Instr} {eff : Iss → Eff} {s t : State} {q : Iss} (he : HasEffect i eff)
    (hn : ∀ q : Iss, q.t.id = q.c.team → q.StoresNothing (eff q)) (h : Issues i s q) (ht : exec i s = .next t) :
    State.AccessFrame q.c.team q.c.g q.s t := by
  have hid : q.counted.t.id = q.counted.c.team := by
    obtain ⟨-, -, hteam, -⟩ := State.issuer_eq_some.1 h.reads
    have hq := State.team?_id hteam
    rw [Iss.counted_t h.reads, Iss.counted_c h.reads]
    exact hq
  have hs := hn q.counted hid
  rw [he, issue_eq h] at ht
  cases hs' : eff q.counted with
  | ok u =>
    rw [hs'] at hs ht
    cases ht
    cases hs with
    | ok hu =>
      rw [Iss.counted_c h.reads] at hu
      exact (Iss.counted_accessFrame h.reads).trans hu
  | hold w =>
    rw [hs'] at ht
    cases ht
    exact q.heldBack_accessFrame w
  | trap tr =>
    rw [hs'] at hs ht
    cases ht
    cases hs with
    | trap htr => exact q.trapped_accessFrame htr

/-- The team and the group that an access leaves, in terms of those that issued it. -/
theorem State.AccessFrame.found {tid gi : Nat} {s u : State} (h : State.AccessFrame tid gi s u) {t : Team} {g : Group} (ht : s.team? tid = some t)
    (hg : t.body.groups[gi]? = some g) :
    ∃ t' g', u.team? tid = some t' ∧ t'.body.groups[gi]? = some g' ∧ t'.body.lanes = t.body.lanes ∧ t'.body.scratch = t.body.scratch
      ∧ g'.s = g.s ∧ g'.mr = g.mr ∧ g'.seg = g.seg ∧ g'.flags = g.flags := by
  obtain ⟨t', ht', hk⟩ := Option.map_eq_some_iff.1 (h.team.trans (congrArg (Option.map (Team.kept gi)) ht))
  simp only [Team.kept, Prod.mk.injEq, hg, Option.map_some] at hk
  obtain ⟨hlanes, hscratch, hgroup⟩ := hk
  obtain ⟨g', hg', hkept⟩ := Option.map_eq_some_iff.1 hgroup
  simp only [Prod.mk.injEq] at hkept
  obtain ⟨hs, hmr, hseg, hflags⟩ := hkept
  exact ⟨t', g', ht', hg', hlanes, hscratch, hs, hmr, hseg, hflags⟩

/-- An instruction whose effect stores nothing yet. -/
def StoresNothingYet (i : Instr) : Prop :=
  ∃ eff : Iss → Eff, HasEffect i eff ∧ ∀ q : Iss, q.t.id = q.c.team → q.StoresNothing (eff q)

section
variable (p : Option Pfx) (k op : BitVec 4) (r a disp : Code) (g sc : BitVec 3) (w h : BitVec 2)

theorem effect_prf : HasEffect (.prf k a disp) (fun q => q.cache 0 0 disp k) := fun _ => rfl
theorem effect_cwb : HasEffect (.cwb k a disp) (fun q => q.cache 1 2 disp k) := fun _ => rfl
theorem effect_cinv : HasEffect (.cinv k a disp) (fun q => q.cache 2 2 disp k) := fun _ => rfl
theorem effect_redmGW : HasEffect (.redmGW p k r a sc op) (fun q => q.redm 4 sc op k) := fun _ => rfl
theorem effect_redmGD : HasEffect (.redmGD p k r a sc op) (fun q => q.redm 8 sc op k) := fun _ => rfl

theorem storesNothingYet_load : ∀ i ∈ loadForms.map (fun z => z.1 p k r a disp), StoresNothingYet i :=
  List.forall_mem_map.2 fun z hz => ⟨_, effect_load p k r a disp z hz, fun _ hq => Iss.storesNothing_access hq _ _ _⟩

theorem storesNothingYet_store : ∀ i ∈ storeForms.map (fun z => z.1 p k r a disp), StoresNothingYet i :=
  List.forall_mem_map.2 fun z hz => ⟨_, effect_store p k r a disp z hz, fun _ hq => Iss.storesNothing_access hq _ _ _⟩

/-- LDV, STV, cache control and REDM store nothing yet. -/
theorem storesNothingYet_other : ∀ i ∈ ([.ldv p k r a g w h, .stv p k r a g w h, .prf k a disp, .cwb k a disp, .cinv k a disp,
    .redmGW p k r a sc op, .redmGD p k r a sc op] : List Instr), StoresNothingYet i := by
  simp only [List.forall_mem_cons, List.not_mem_nil, false_imp_iff, implies_true, and_true]
  exact ⟨⟨_, effect_ldv p k r a g w h, fun _ hq => Iss.storesNothing_access hq _ _ _⟩,
    ⟨_, effect_stv p k r a g w h, fun _ hq => Iss.storesNothing_access hq _ _ _⟩,
    ⟨_, effect_prf k a disp, fun q _ => q.storesNothing_cache _ _ _ _⟩, ⟨_, effect_cwb k a disp, fun q _ => q.storesNothing_cache _ _ _ _⟩,
    ⟨_, effect_cinv k a disp, fun q _ => q.storesNothing_cache _ _ _ _⟩,
    ⟨_, effect_redmGW p k op r a sc, fun _ hq => Iss.storesNothing_redm hq _ _ _ _⟩,
    ⟨_, effect_redmGD p k op r a sc, fun _ hq => Iss.storesNothing_redm hq _ _ _ _⟩⟩

end

/-- Settles O53: each instruction named is an access, cache control or REDM, whose effect stores nothing yet; a wait, a trap and the count of
the issue leave the rest. -/
theorem memoryAtIssue : Obligations.MemoryAtIssue := by
  intro s t q p k op r a disp g sc w h i hi hq ht
  have hstores : StoresNothingYet i := by
    have hi : i ∈ (loadForms.map (fun z => z.1 p k r a disp) ++ storeForms.map (fun z => z.1 p k r a disp)) ++ [.ldv p k r a g w h,
        .stv p k r a g w h, .prf k a disp, .cwb k a disp, .cinv k a disp, .redmGW p k r a sc op, .redmGD p k r a sc op] := hi
    obtain (hl | hs) | ho := (List.mem_append.1 hi).imp_left List.mem_append.1
    · exact storesNothingYet_load p k r a disp i hl
    · exact storesNothingYet_store p k r a disp i hs
    · exact storesNothingYet_other p k op r a disp g sc w h i ho
  obtain ⟨eff, he, hn⟩ := hstores
  obtain ⟨-, -, hteam, hgroup, -, hstate, -⟩ := State.issuer_eq_some.1 hq.reads
  rw [← hstate] at hteam
  have hframe := he.accessFrame hn hq ht
  exact ⟨hframe.memory, hframe.others, hframe.found hteam hgroup⟩

end Sys2Proof.Machine
end

section
namespace Sys2Proof.Machine

/-! ### Cache control and accesses of a trailing core (R251, R388) -/

/-- A trailing core's cache control asks for no line (R388). -/
theorem Iss.cache_trailing {q : Iss} {f path : Nat} {disp : Code} {k : BitVec 4} (hl : q.t.lead.isSome = true)
    (hroom : q.g.counter path < 63) :
    q.cache f path disp k = .ok (q.enter q.s path (.cache f) [] 0 k [] (q.ex == 0)) := by
  have hfull : q.g.full path = false := decide_eq_false (Nat.not_le.2 hroom)
  simp only [Iss.cache, hfull, Bool.and_false, Bool.false_eq_true, if_false, hl, if_true]

/-- PRF of a trailing core goes in flight without a part. -/
theorem exec_prf_trailing {s : State} {q : Iss} {k : BitVec 4} {a disp : Code} (h : Issues (.prf k a disp) s q) (hl : q.t.lead.isSome = true)
    (hroom : q.g.counter 0 < 63) :
    exec (.prf k a disp) s = .next (q.counted.enter q.counted.s 0 (.cache 0) [] 0 k [] (q.ex == 0)) := by
  have hlead : q.counted.t.lead.isSome = true := by rw [Iss.counted_t h.reads]; exact hl
  rw [← Iss.counted_ex h.reads]
  exact (effect_prf k a disp).exec_ok h (Iss.cache_trailing hlead (by rwa [Iss.counted_counter h.reads]))

/-- The trailing side of a checked pair on core 0, with lane 0 taking part; its leading side brought nothing. -/
def trailingTeam : Team :=
  { (newTeam wordGrid 0 32 0).modGroup 0 (fun g => g.setTriple 8 1) with
      place := .core 0, pairSlot := some 0, lead := some { parts := [], fault := none } }

/-- A part at reset but for that team, which issues, and for a CACHED page at address 0 in the core's TLB. -/
def trailingState : State :=
  { State.reset with
      teams := [trailingTeam], cur := some branchCur,
      cores := [{ tlb := [{ ctx := 1, vpage := 0, size := 12, ppage := 0x40, w := true, x := false, mt := .cached }] }] }

/-- The form of PRF of the line at ZERO. -/
def prefetchForm : Form :=
  { major := 0x6B, flds := [{ cls := .srcN 2, code := 0x74, pos := .a }], pfx := none, dagger := none, ddagger := false, noXb := true, lk := some 0,
    lk15 := true, valOk := true, lit := none }

/-- PRF as the first fragment of the trailing team issues it. -/
def prefetchIss : Iss :=
  let s := trailingState.atIssue (.prf 0 0x74 0) branchCur
  let t := (s.team? 0).getD trailingTeam
  let g := (t.body.groups[0]?).getD { role := 0, first := 0, count := 0, pipe := 0 }
  let f := (g.frags[0]?).getD { mask := 0, pc := 0 }
  { c := branchCur, s := s, t := t, g := g, f := f, fm := prefetchForm, ex := execMask t g f none }

theorem prefetchIss_issues : Issues (.prf 0 0x74 0) trailingState prefetchIss where
  form := rfl
  issuer := by decide +kernel
  reads := State.issuer_eq_some.2 ⟨rfl, rfl, by decide +kernel, by decide +kernel, by decide +kernel, rfl, rfl, rfl⟩
  noBreakpoint := by decide +kernel
  legal := by decide +kernel
  apart := rfl
  sound := by decide +kernel
  closed := by decide +kernel

/-- The parts of every access in flight. -/
def State.partsInFlight (s : State) : List (List Part) :=
  s.teams.flatMap (fun t => t.body.groups.flatMap (fun g => g.flight.map (·.parts)))

/-- Refutes O27: cache control of a trailing core asks for no line (R388), and the statement does not leave it out; the line of lane 0 of PRF
translates to a CACHED page, and no part of it goes in flight. -/
theorem not_cacheControlAndWaits : ¬ Obligations.CacheControlAndWaits := by
  intro h
  obtain ⟨hcache, -⟩ := h trailingState prefetchIss none 0 0x74 0 0
  have hroom : prefetchIss.g.counter 0 < 63 := by decide +kernel
  have hstated := hcache (.prf, 0, 0) (by simp) prefetchIss_issues (.inr hroom)
  have hstates := Host.Outcome.next.inj ((exec_prf_trailing prefetchIss_issues (by decide +kernel) hroom).symm.trans hstated)
  exact absurd (congrArg State.partsInFlight hstates) (by decide +kernel)

/-- A part in the scratchpad, which the leading core is said to have brought. -/
def scratchPart : Part := { lid := 0, ix := 0, scratch := true, va := 0, pa := 0, mt := .uncached, cut := 1, pa2 := 0, size := 1, data := 0, data2 := 0 }

/-- The trailing core as an issuer whose leading core brought that part. -/
def ledIss : Iss := { prefetchIss with t := { prefetchIss.t with lead := some { parts := [scratchPart], fault := none } } }

/-- A load of the byte at address 0 through SG0. -/
def byteAccess : Access := { seg := 0, size := 1, disp := 0, ld := true, wr := false, path := 0, kind := .load .zero 1 false }

theorem ledIss_checked : ledIss.checked byteAccess = .ok (ledIss.s, [scratchPart]) := rfl

/-- Refutes O26: a trailing core's request is answered with the leading core's part (R388), wherever that lies, and the statement, which is about
every issuer, asks nothing of the parts that the leading core brought; where such a part is marked as the scratchpad's, so is the part of a load
through SG0. -/
theorem not_accessParts : ¬ Obligations.AccessParts := by
  intro h
  obtain ⟨-, hparts⟩ := h ledIss byteAccess ledIss.s [scratchPart]
  obtain ⟨-, hplaces⟩ := hparts ledIss_checked
  exact absurd (congrArg (List.map (fun p => p.2.2.2.2.1)) hplaces) (by decide +kernel)

end Sys2Proof.Machine
end

section
namespace Sys2Proof.Machine

/-! ### The scope an access asks for (R267, R272, R274) -/

/-- Under MR.DET a scope above .team takes DET_SCOPE. -/
theorem Iss.scopeTrap_det {q : Iss} {sc : Nat} (hdet : mrDet q.g.mr = true ∧ 1 < sc) (atomic : Bool) :
    q.scopeTrap sc atomic = some (q.trap clsDet) :=
  if_pos (by simpa using hdet)

/-- The scopes that a tenant and a level do not admit (R267, R272, R274). -/
def Iss.scopeDenied (q : Iss) (ten : Tenant) (sc : Nat) (atomic : Bool) : Prop :=
  (sc = 5 ∧ ten.hvScope.testBit (if atomic then 1 else 0) = false) ∨ (atomic = true ∧ q.t.hdr.level ≠ 0 ∧ 1 < sc)

/-- Else a scope that is denied takes SCOPE_DENIED. -/
theorem Iss.scopeTrap_denied {q : Iss} {ten : Tenant} {sc : Nat} {atomic : Bool} (hten : q.s.tenants[q.t.tenant]? = some ten)
    (hdet : ¬(mrDet q.g.mr = true ∧ 1 < sc)) (hden : q.scopeDenied ten sc atomic) : q.scopeTrap sc atomic = some (q.trap clsScope) := by
  rw [Iss.scopeTrap, hten]
  refine (if_neg (by simpa using hdet)).trans (if_pos ?_)
  simpa [Iss.scopeDenied, and_assoc] using hden

section
variable {s : State} {fm : Form} {q : Iss} (h : s.issuer fm = some q)
include h

theorem Iss.counted_tenant : q.counted.t.tenant = q.t.tenant := by rw [Iss.counted_t h]; rfl
theorem Iss.counted_atomAccess : q.counted.atomAccess = q.atomAccess := by rw [(Iss.counted_eq h).1]; rfl

/-- DET_SCOPE in the terms of the issue before it was counted. -/
theorem Iss.counted_scopeTrap_det {sc : Nat} (hdet : mrDet q.g.mr = true ∧ 1 < sc) (atomic : Bool) :
    q.counted.scopeTrap sc atomic = some (q.trap clsDet) :=
  (Iss.scopeTrap_det (by rwa [Iss.counted_mr h]) atomic).trans (congrArg some (Iss.counted_trap h _))

/-- SCOPE_DENIED in the terms of the issue before it was counted. -/
theorem Iss.counted_scopeTrap_denied {ten : Tenant} {sc : Nat} {atomic : Bool} (hten : q.counted.s.tenants[q.t.tenant]? = some ten)
    (hdet : ¬(mrDet q.g.mr = true ∧ 1 < sc)) (hden : q.scopeDenied ten sc atomic) :
    q.counted.scopeTrap sc atomic = some (q.trap clsScope) := by
  refine (Iss.scopeTrap_denied (ten := ten) ?_ ?_ ?_).trans (congrArg some (Iss.counted_trap h _))
  · rwa [Iss.counted_tenant h]
  · rwa [Iss.counted_mr h]
  · rwa [Iss.scopeDenied, Iss.counted_hdr h]

end

/-! ### Scoped accesses (R275-R280) -/

/-- An access of a scope: the trap of its scope, else the access, with what follows at once where a lane takes part (R274, R276). -/
def Iss.scopedAccess (q : Iss) (sc : Nat) (atomic : Bool) (x : Access) (k : BitVec 4) (zeros : List PWrite) (after : State → State) : Eff :=
  match q.scopeTrap sc atomic with
  | some t => .trap t
  | none =>
    match q.access x k zeros with
    | .ok s => if q.ex = 0 then .ok s else .ok (after s)
    | r => r

/-- The state in which the group sees no older L1 copy, from scope .clu up (R265, R276). -/
def State.renewedFor (s : State) (tid gi : Nat) (sc : BitVec 3) : State := if 2 ≤ sc.toNat then s.renewL1 tid gi else s

section
variable {q : Iss} {sc : Nat} {atomic : Bool} {x : Access} {k : BitVec 4} {zeros : List PWrite} {after : State → State}

theorem Iss.scopedAccess_trap {tr : Trap} (hs : q.scopeTrap sc atomic = some tr) : q.scopedAccess sc atomic x k zeros after = .trap tr := by
  rw [Iss.scopedAccess, hs]

/-- Where the scope is admitted and the checks pass, the access goes in flight, and what follows is done where a lane takes part. -/
theorem Iss.scopedAccess_enters {s' : State} {parts : List Part} (hs : q.scopeTrap sc atomic = none) (hc : q.checked x = .ok (s', parts))
    (hroom : q.ex = 0 ∨ q.g.counter x.path < 63) :
    q.scopedAccess sc atomic x k zeros after =
      .ok (if q.ex = 0 then q.enter s' x.path x.kind parts x.hint k zeros (q.ex == 0)
        else after (q.enter s' x.path x.kind parts x.hint k zeros (q.ex == 0))) := by
  rw [Iss.scopedAccess, hs, Iss.access_enters hc hroom]
  exact (apply_ite Eff.ok ..).symm

/-- A scoped access that nothing follows is the trap of its scope, else the access. -/
theorem Iss.scopedAccess_id : q.scopedAccess sc atomic x k zeros id =
    match q.scopeTrap sc atomic with
    | some t => .trap t
    | none => q.access x k zeros := by
  rw [Iss.scopedAccess]
  cases q.scopeTrap sc atomic with
  | some t => rfl
  | none => cases q.access x k zeros <;> simp

end

section
variable {q : Iss} {seg n : Nat} {sc : BitVec 3} {disp op k : BitVec 4}

theorem Iss.acquire_eq : q.acquire seg n sc disp k =
    q.scopedAccess sc.toNat false (q.loadAccess seg n (disp.toInt * n) 0) k (q.pendingZeros (regsOf n))
      (fun s => (s.renewedFor q.c.team q.c.g sc).performNow q.c.team q.c.g q.g.nextId) := rfl

theorem Iss.releaseSt_eq : q.releaseSt seg n sc disp k =
    q.scopedAccess sc.toNat false (q.storeAccess seg n (disp.toInt * n) 0 true sc.toNat) k [] id := Iss.scopedAccess_id.symm

theorem Iss.atom_untyped (hty : atomicTypeOk op.toNat q.etype = false) : q.atom seg n sc op k = .trap (q.trap clsIllegal) :=
  if_pos (by simp [hty])

theorem Iss.atom_eq (hty : atomicTypeOk op.toNat q.etype = true) : q.atom seg n sc op k =
    q.scopedAccess sc.toNat true (q.atomAccess seg n sc op true) k (q.pendingZeros (regsOf n))
      (fun s => (s.performNow q.c.team q.c.g q.g.nextId).renewedFor q.c.team q.c.g sc) := if_neg (by simp [hty])

theorem Iss.redm_untyped (hty : atomicTypeOk op.toNat q.etype = false) : q.redm n sc op k = .trap (q.trap clsIllegal) :=
  if_pos (by simp [hty])

theorem Iss.redm_eq (hty : atomicTypeOk op.toNat q.etype = true) : q.redm n sc op k =
    q.scopedAccess sc.toNat true (q.atomAccess 0 n sc op false) k [] id := (if_neg (by simp [hty])).trans Iss.scopedAccess_id.symm

end

/-! ### The forms that name a scope (R273) -/

/-- A form of an access that names a scope, with an atomic's operation or a displacement. -/
abbrev ScopedForm := Option Pfx → BitVec 4 → Code → Code → BitVec 3 → BitVec 4 → Instr

/-- The acquire loads, with the space and the size of each (R276). -/
def acquireForms : List (ScopedForm × Nat × Nat) := [(.ldGAcqW, 0, 4), (.ldGAcqD, 0, 8), (.ldSAcqW, 1, 4), (.ldSAcqD, 1, 8)]
/-- The release stores, with the space and the size of each (R276). -/
def releaseForms : List (ScopedForm × Nat × Nat) := [(.stGRelW, 0, 4), (.stGRelD, 0, 8), (.stSRelW, 1, 4), (.stSRelD, 1, 8)]
/-- The forms of ATOM, with the space and the size of each (R277). -/
def atomForms : List (ScopedForm × Nat × Nat) := [(.atomGW, 0, 4), (.atomGD, 0, 8), (.atomSW, 1, 4), (.atomSD, 1, 8)]
/-- The forms of REDM, with the size of each (R280). -/
def redmForms : List (ScopedForm × Nat) := [(.redmGW, 4), (.redmGD, 8)]

section
variable (p : Option Pfx) (k : BitVec 4) (t a : Code) (sc : BitVec 3) (disp op : BitVec 4)

theorem effect_fence : HasEffect (.fence sc) (fun q =>
    match q.scopeTrap sc.toNat false with
    | some t => .trap t
    | none => .ok ((q.s.flushGroup q.c.team q.c.g).renewedFor q.c.team q.c.g sc)) := fun _ => rfl

theorem effect_acquire : ∀ z ∈ acquireForms, HasEffect (z.1 p k t a sc disp) (fun q => q.acquire z.2.1 z.2.2 sc disp k) := by
  simp only [acquireForms, List.forall_mem_cons, List.not_mem_nil, false_imp_iff, implies_true, and_true]
  and_intros
  all_goals exact fun _ => rfl

theorem effect_release : ∀ z ∈ releaseForms, HasEffect (z.1 p k t a sc disp) (fun q => q.releaseSt z.2.1 z.2.2 sc disp k) := by
  simp only [releaseForms, List.forall_mem_cons, List.not_mem_nil, false_imp_iff, implies_true, and_true]
  and_intros
  all_goals exact fun _ => rfl

theorem effect_atom : ∀ z ∈ atomForms, HasEffect (z.1 p k t a sc op) (fun q => q.atom z.2.1 z.2.2 sc op k) := by
  simp only [atomForms, List.forall_mem_cons, List.not_mem_nil, false_imp_iff, implies_true, and_true]
  and_intros
  all_goals exact fun _ => rfl

theorem effect_redm : ∀ z ∈ redmForms, HasEffect (z.1 p k t a sc op) (fun q => q.redm z.2 sc op k) := by
  simp only [redmForms, List.forall_mem_cons, List.not_mem_nil, false_imp_iff, implies_true, and_true]
  exact ⟨effect_redmGW p k op t a sc, effect_redmGD p k op t a sc⟩

end

/-- What an unhindered instruction comes to whose effect is a scoped access, where its scope is admitted and its checks pass. -/
theorem exec_scopedAccess {i : Instr} {s s' : State} {q : Iss} {eff : Iss → Eff} {sc : Nat} {atomic : Bool} {x : Access} {k : BitVec 4}
    {zeros : List PWrite} {after : State → State} {parts : List Part} (h : Issues i s q) (he : HasEffect i eff)
    (hx : eff q.counted = q.counted.scopedAccess sc atomic x k zeros after) (hs : q.counted.scopeTrap sc atomic = none)
    (hc : q.counted.checked x = .ok (s', parts)) (hroom : q.ex = 0 ∨ q.g.counter x.path < 63) :
    let e := q.counted.enter s' x.path x.kind parts x.hint k zeros (q.ex == 0)
    exec i s = .next (if q.ex = 0 then e else after e) := by
  rw [← Iss.counted_counter h.reads, ← Iss.counted_ex h.reads] at hroom
  rw [← Iss.counted_ex h.reads]
  exact he.exec_ok h (hx.trans (Iss.scopedAccess_enters hs hc hroom))

section
variable {s : State} {q : Iss} {p : Option Pfx} {k : BitVec 4} {t a : Code} {sc : BitVec 3} {disp op : BitVec 4}

/-- FENCE where its scope is admitted. -/
theorem exec_fence (h : Issues (.fence sc) s q) (hs : q.counted.scopeTrap sc.toNat false = none) :
    exec (.fence sc) s = .next ((q.counted.s.flushGroup q.c.team q.c.g).renewedFor q.c.team q.c.g sc) := by
  refine (effect_fence sc).exec_ok h ?_
  rw [hs, Iss.counted_c h.reads]

/-- An acquire load in the terms of the issue before it was counted. -/
theorem Iss.counted_acquire {fm : Form} (h : s.issuer fm = some q) (seg n : Nat) : q.counted.acquire seg n sc disp k =
    q.counted.scopedAccess sc.toNat false (q.loadAccess seg n (disp.toInt * n) 0) k (q.pendingZeros (regsOf n))
      (fun u => (u.renewedFor q.c.team q.c.g sc).performNow q.c.team q.c.g q.counted.g.nextId) := by
  rw [Iss.acquire_eq, Iss.counted_loadAccess h, Iss.counted_pendingZeros h, Iss.counted_c h]

/-- A release store in the terms of the issue before it was counted. -/
theorem Iss.counted_release {fm : Form} (h : s.issuer fm = some q) (seg n : Nat) : q.counted.releaseSt seg n sc disp k =
    q.counted.scopedAccess sc.toNat false (q.storeAccess seg n (disp.toInt * n) 0 true sc.toNat) k [] id := by
  rw [Iss.releaseSt_eq, Iss.counted_storeAccess h]

/-- An ATOM of an admitted type in the terms of the issue before it was counted. -/
theorem Iss.counted_atom {fm : Form} (h : s.issuer fm = some q) (hty : atomicTypeOk op.toNat q.etype = true) (seg n : Nat) :
    q.counted.atom seg n sc op k =
      q.counted.scopedAccess sc.toNat true (q.atomAccess seg n sc op true) k (q.pendingZeros (regsOf n))
        (fun u => (u.performNow q.c.team q.c.g q.counted.g.nextId).renewedFor q.c.team q.c.g sc) := by
  rw [Iss.atom_eq (by rwa [Iss.counted_etype h]), Iss.counted_atomAccess h, Iss.counted_pendingZeros h, Iss.counted_c h]

/-- A REDM of an admitted type in the terms of the issue before it was counted. -/
theorem Iss.counted_redm {fm : Form} (h : s.issuer fm = some q) (hty : atomicTypeOk op.toNat q.etype = true) (n : Nat) :
    q.counted.redm n sc op k = q.counted.scopedAccess sc.toNat true (q.atomAccess 0 n sc op false) k [] id := by
  rw [Iss.redm_eq (by rwa [Iss.counted_etype h]), Iss.counted_atomAccess h]

end

/-- Settles O28: each is the scoped access of its space and size, with what follows it at once, and FENCE by its two parts. -/
theorem scopedAccesses : Obligations.ScopedAccesses := by
  intro s q p k t a sc disp op renewed now enters
  refine ⟨exec_fence, fun z hz h hs s' parts hc hroom => ?_, fun z hz h hs s' parts hc hroom => ?_, fun z hz hty h hs s' parts hc hroom => ?_,
    fun z hz hty h hs s' parts hc hroom => ?_⟩
  · exact exec_scopedAccess h (effect_acquire p k t a sc disp z hz) (Iss.counted_acquire h.reads _ _) hs hc hroom
  · exact exec_scopedAccess h (effect_release p k t a sc disp z hz) (Iss.counted_release h.reads _ _) hs hc hroom
  · exact exec_scopedAccess h (effect_atom p k t a sc op z hz) (Iss.counted_atom h.reads hty _ _) hs hc hroom
  · exact exec_scopedAccess h (effect_redm p k t a sc op z hz) (Iss.counted_redm h.reads hty _) hs hc hroom

/-! ### Instructions that ask for a scope, and atomics (R274, R278) -/

/-- The instruction takes the trap of its scope, where its issuer satisfies `due`. -/
def AsksScope (i : Instr) (sc : Nat) (atomic : Bool) (due : Iss → Prop) : Prop :=
  ∃ eff : Iss → Eff, HasEffect i eff ∧ ∀ (q : Iss) (tr : Trap), due q → q.scopeTrap sc atomic = some tr → eff q = .trap tr

/-- The instruction is ILLEGAL where its operation does not admit the element type. -/
def AsksType (i : Instr) (op : Nat) : Prop :=
  ∃ eff : Iss → Eff, HasEffect i eff ∧ ∀ q : Iss, atomicTypeOk op q.etype = false → eff q = .trap (q.trap clsIllegal)

section
variable {i : Instr} {s : State} {q : Iss} {sc : Nat} {atomic : Bool} {due : Iss → Prop}

theorem AsksScope.exec_trap {tr : Trap} (hi : AsksScope i sc atomic due) (h : Issues i s q) (hd : due q.counted)
    (ht : q.counted.scopeTrap sc atomic = some tr) : exec i s = .next (q.trapped tr) :=
  have ⟨_, he, htrap⟩ := hi
  he.exec_trap h (htrap _ _ hd ht)

theorem AsksType.exec_illegal {op : Nat} (hi : AsksType i op) (h : Issues i s q) (hty : atomicTypeOk op q.etype = false) :
    exec i s = .next (q.trapped (q.trap clsIllegal)) := by
  obtain ⟨_, he, htrap⟩ := hi
  refine he.exec_trap h ((htrap _ ?_).trans (congrArg Eff.trap (Iss.counted_trap h.reads _)))
  rwa [Iss.counted_etype h.reads]

end

section
variable (p : Option Pfx) (k : BitVec 4) (t a : Code) (sc : BitVec 3) (disp op : BitVec 4)

theorem fence_asksScope : AsksScope (.fence sc) sc.toNat false (fun _ => True) :=
  ⟨_, effect_fence sc, fun q tr _ ht => by rw [ht]⟩

theorem acquire_asksScope : ∀ z ∈ acquireForms, AsksScope (z.1 p k t a sc disp) sc.toNat false (fun _ => True) :=
  fun z hz => ⟨_, effect_acquire p k t a sc disp z hz, fun _ _ _ ht => Iss.acquire_eq.trans (Iss.scopedAccess_trap ht)⟩

theorem release_asksScope : ∀ z ∈ releaseForms, AsksScope (z.1 p k t a sc disp) sc.toNat false (fun _ => True) :=
  fun z hz => ⟨_, effect_release p k t a sc disp z hz, fun _ _ _ ht => Iss.releaseSt_eq.trans (Iss.scopedAccess_trap ht)⟩

theorem atom_asksScope : ∀ z ∈ atomForms, AsksScope (z.1 p k t a sc op) sc.toNat true (fun q => atomicTypeOk op.toNat q.etype = true) :=
  fun z hz => ⟨_, effect_atom p k t a sc op z hz, fun _ _ hty ht => (Iss.atom_eq hty).trans (Iss.scopedAccess_trap ht)⟩

theorem redm_asksScope : ∀ z ∈ redmForms, AsksScope (z.1 p k t a sc op) sc.toNat true (fun q => atomicTypeOk op.toNat q.etype = true) :=
  fun z hz => ⟨_, effect_redm p k t a sc op z hz, fun _ _ hty ht => (Iss.redm_eq hty).trans (Iss.scopedAccess_trap ht)⟩

theorem atom_asksType : ∀ z ∈ atomForms, AsksType (z.1 p k t a sc op) op.toNat :=
  fun z hz => ⟨_, effect_atom p k t a sc op z hz, fun _ => Iss.atom_untyped⟩

theorem redm_asksType : ∀ z ∈ redmForms, AsksType (z.1 p k t a sc op) op.toNat :=
  fun z hz => ⟨_, effect_redm p k t a sc op z hz, fun _ => Iss.redm_untyped⟩

/-- FENCE and the acquire and release forms on GLOBAL ask for their scope. -/
theorem ordered_asksScope : ∀ i ∈ ([.fence sc, .ldGAcqW p k t a sc disp, .ldGAcqD p k t a sc disp, .stGRelW p k t a sc disp,
    .stGRelD p k t a sc disp] : List Instr), AsksScope i sc.toNat false (fun _ => True) := by
  have hacq := acquire_asksScope p k t a sc disp
  have hrel := release_asksScope p k t a sc disp
  simp only [acquireForms, releaseForms, List.forall_mem_cons, List.not_mem_nil, false_imp_iff, implies_true, and_true] at hacq hrel ⊢
  obtain ⟨hacqW, hacqD, -⟩ := hacq
  obtain ⟨hrelW, hrelD, -⟩ := hrel
  exact ⟨fence_asksScope sc, hacqW, hacqD, hrelW, hrelD⟩

/-- The atomics on GLOBAL ask for their scope once their type is admitted. -/
theorem atomic_asksScope : ∀ i ∈ ([.atomGW p k t a sc op, .atomGD p k t a sc op, .redmGW p k t a sc op, .redmGD p k t a sc op] : List Instr),
    AsksScope i sc.toNat true (fun q => atomicTypeOk op.toNat q.etype = true) := by
  have hatom := atom_asksScope p k t a sc op
  have hredm := redm_asksScope p k t a sc op
  simp only [atomForms, redmForms, List.forall_mem_cons, List.not_mem_nil, false_imp_iff, implies_true, and_true] at hatom hredm ⊢
  obtain ⟨hatomW, hatomD, -⟩ := hatom
  exact ⟨hatomW, hatomD, hredm⟩

/-- Every atomic asks for its type. -/
theorem atomic_asksType : ∀ i ∈ ([.atomGW p k t a sc op, .atomGD p k t a sc op, .redmGW p k t a sc op, .redmGD p k t a sc op,
    .atomSW p k t a sc op, .atomSD p k t a sc op] : List Instr), AsksType i op.toNat := by
  have hatom := atom_asksType p k t a sc op
  have hredm := redm_asksType p k t a sc op
  simp only [atomForms, redmForms, List.forall_mem_cons, List.not_mem_nil, false_imp_iff, implies_true, and_true] at hatom hredm ⊢
  obtain ⟨hatomW, hatomD, hscratch⟩ := hatom
  obtain ⟨hredmW, hredmD⟩ := hredm
  exact ⟨hatomW, hatomD, hredmW, hredmD, hscratch⟩

end

/-- Settles O29: the traps of a scope in their order, and the type of an atomic before them. -/
theorem scopeAndTypeTraps : Obligations.ScopeAndTypeTraps := by
  intro s q p k t a sc disp op ten hten det denied ordered atomics
  have hord := ordered_asksScope p k t a sc disp
  have hat := atomic_asksScope p k t a sc op
  have typed : ∀ {i}, Issues i s q → atomicTypeOk op.toNat q.etype = true → atomicTypeOk op.toNat q.counted.etype = true :=
    fun h hty => by rwa [Iss.counted_etype h.reads]
  have hden : ∀ {atomic}, denied atomic → q.scopeDenied ten sc.toNat atomic :=
    Or.imp_left (And.imp_left fun hsc => congrArg BitVec.toNat hsc)
  refine ⟨fun i hi h hd => ?_, fun i hi h hd hn => ?_, fun i hi h hty => ?_, fun i hi h hty hd => ?_, fun i hi h hty hd hn => ?_⟩
  · exact (hord i hi).exec_trap h trivial (Iss.counted_scopeTrap_det h.reads hd _)
  · exact (hord i hi).exec_trap h trivial (Iss.counted_scopeTrap_denied h.reads hten hd (hden hn))
  · exact (atomic_asksType p k t a sc op i hi).exec_illegal h hty
  · exact (hat i hi).exec_trap h (typed h hty) (Iss.counted_scopeTrap_det h.reads hd _)
  · exact (hat i hi).exec_trap h (typed h hty) (Iss.counted_scopeTrap_denied h.reads hten hd (hden hn))

end Sys2Proof.Machine
end

section
namespace Sys2Proof.Machine

/-! ### Instructions of a chain (R290, R388) -/

/-- An effect on chain k: the trap of a chain that cannot be read, `blind` on a trailing core whose leading one read none, else what `read` makes of
the chain's place (R290, R388). -/
def Iss.onChain (q : Iss) (k : Nat) (blind : Eff) (read : State → Loc → Eff) : Eff :=
  match q.ccb k with
  | .error (some t) => .trap t
  | .error none => blind
  | .ok (s, ccb) => read s ccb

section
variable {q : Iss} {k : Nat} {blind : Eff} {read : State → Loc → Eff}

theorem Iss.onChain_trap {tr : Trap} (hc : q.ccb k = .error (some tr)) : q.onChain k blind read = .trap tr := by
  unfold Iss.onChain
  rw [hc]
theorem Iss.onChain_blind (hc : q.ccb k = .error none) : q.onChain k blind read = blind := by
  unfold Iss.onChain
  rw [hc]
theorem Iss.onChain_read {s : State} {ccb : Loc} (hc : q.ccb k = .ok (s, ccb)) : q.onChain k blind read = read s ccb := by
  unfold Iss.onChain
  rw [hc]

end

section
variable {s : State} {fm : Form} {q : Iss} (h : s.issuer fm = some q)
include h

theorem Iss.counted_levelNow : q.counted.t.levelNow = q.t.levelNow := by rw [Iss.counted_t h]; rfl
theorem Iss.counted_telNote (u : State) (e : TelEvent) : u.telNote q.counted.t e = u.telNote q.t e := by rw [Iss.counted_t h]; rfl
theorem Iss.counted_telCard : q.counted.telCard = q.telCard := by rw [(Iss.counted_eq h).1]; rfl
theorem Iss.counted_telPair : q.counted.telPair = q.telPair := by rw [(Iss.counted_eq h).1]; rfl
theorem Iss.counted_drained : q.counted.g.drained = q.g.drained := by rw [Iss.counted_g h]; rfl

end

/-! ### ECARD (R289) -/

/-- The place of a half card in CARD space, for a chain whose CCB is at a place (R289). -/
def State.halfOffset (s : State) (ccb : Loc) (slot h : Nat) : Nat := s.ccbRing ccb + 128 * slot + 64 * h

/-- The store of the half card of the lanes of EXEC, m the lowest, into a chain's ring (R289). -/
def Iss.storeHalf (q : Iss) (k : BitVec 4) (h m : Nat) (s : State) (ccb : Loc) : Eff :=
  if 2 ^ s.ccbLog2 ccb ≤ (q.uni .b).toNat || segFails (q.segOf 5).limit 64 (Int.ofNat (s.halfOffset ccb (q.uni .b).toNat h)) then
    .trap (s.tookBy q.c.team { q.trapAt clsSeg m with addr := BitVec.ofNat 64 (s.halfOffset ccb (q.uni .b).toNat h) })
  else
    let va := (q.segOf 5).base.toNat + s.halfOffset ccb (q.uni .b).toNat h
    match q.cardParts (q.lid m) va s (List.range 8) with
    | (s, .error (v, e)) => .trap (s.tookBy q.c.team (q.xlateTrap m v e .store))
    | (s, .ok parts) =>
      match q.dataTrap false true (q.lanes.map (fun i => (q.lid i, va))) with
      | some t => .trap (s.tookBy q.c.team t)
      | none => q.append s k parts

/-- What ECARD comes to. -/
def Iss.ecard (q : Iss) (k : BitVec 4) (h : BitVec 1) (c : BitVec 4) : Eff :=
  match q.lanes.head? with
  | none => .ok (q.enter q.s 4 .card [] 0 k [] true)
  | some m => q.onChain c.toNat (q.append q.s k (q.blindCard m (q.uni .b).toNat h.toNat)) (q.storeHalf k h.toNat m)

theorem effect_ecard (l : Option Word) (k : BitVec 4) (h : BitVec 1) (c : BitVec 4) (a b : Code) :
    HasEffect (.ecard l k h c a b) (fun q => q.ecard k h c) := fun _ => rfl

/-- The state in which a half card is told to Telltale and in flight (R245, R289, R389). -/
def Iss.appended (q : Iss) (k : BitVec 4) (s : State) (parts : List Part) : State :=
  q.counted.enter (s.telNote q.t (q.telCard (cardLanes parts))) 4 .card parts 0 k [] false

section
variable {s : State} {q : Iss}

/-- With room on path 4 a half card that has passed its checks goes in flight. -/
theorem Iss.counted_append {fm : Form} (h : s.issuer fm = some q) (hroom : q.g.counter 4 < 63) (u : State) (k : BitVec 4) (parts : List Part) :
    q.counted.append u k parts = .ok (q.appended k u parts) := by
  have hfull : q.counted.g.full 4 = false := by
    rw [Group.full, Iss.counted_counter h]
    exact decide_eq_false (Nat.not_le.2 hroom)
  simp only [Iss.append, hfull, Bool.false_eq_true, if_false, Iss.counted_telNote h, Iss.counted_telCard h, Iss.appended]

/-- A half card inside the ring whose store passes its checks goes in flight. -/
theorem Iss.counted_storeHalf {fm : Form} {k : BitVec 4} {hf m : Nat} {s1 s2 : State} {ccb : Loc} {parts : List Part} (h : s.issuer fm = some q)
    (hslot : (q.uni .b).toNat < 2 ^ s1.ccbLog2 ccb)
    (hseg : segFails (q.segOf 5).limit 64 (Int.ofNat (s1.halfOffset ccb (q.uni .b).toNat hf)) = false)
    (hparts : q.counted.cardParts (q.lid m) ((q.segOf 5).base.toNat + s1.halfOffset ccb (q.uni .b).toNat hf) s1 (List.range 8) = (s2, .ok parts))
    (hdata : q.counted.dataTrap false true
      (q.lanes.map (fun i => (q.lid i, (q.segOf 5).base.toNat + s1.halfOffset ccb (q.uni .b).toNat hf))) = none)
    (hroom : q.g.counter 4 < 63) :
    q.counted.storeHalf k hf m s1 ccb = .ok (q.appended k s2 parts) := by
  rw [Iss.storeHalf, Iss.counted_uni h, Iss.counted_segOf h, Iss.counted_lid h, Iss.counted_lanes h, hseg, Bool.or_false,
    if_neg (by simpa using hslot)]
  simp only [hparts, hdata]
  exact Iss.counted_append h hroom s2 k parts

variable {l : Option Word} {k : BitVec 4} {hf : BitVec 1} {c : BitVec 4} {a b : Code} {m : Nat}

/-- With no lane in EXEC only the window of ECARD opens. -/
theorem exec_ecard_empty (h : Issues (.ecard l k hf c a b) s q) (hex : q.ex = 0) :
    exec (.ecard l k hf c a b) s = .next (q.counted.enter q.counted.s 4 .card [] 0 k [] true) := by
  have hl : q.counted.lanes.head? = none := by
    rw [Iss.counted_lanes h.reads, Iss.lanes, hex]
    rfl
  refine (effect_ecard l k hf c a b).exec_ok h ?_
  rw [Iss.ecard, hl]

/-- With a lane in EXEC, m the lowest, ECARD is an instruction of its chain. -/
theorem Iss.counted_ecard {fm : Form} (h : s.issuer fm = some q) (hm : q.lanes.head? = some m) : q.counted.ecard k hf c =
    q.counted.onChain c.toNat (q.counted.append q.counted.s k (q.counted.blindCard m (q.uni .b).toNat hf.toNat))
      (q.counted.storeHalf k hf.toNat m) := by
  rw [Iss.ecard, Iss.counted_lanes h, hm, Iss.counted_uni h]

end

/-! ### ETAIL (R290, R292) -/

/-- The cards of a chain that the task's earlier ETAILs keep, at levels 1 and 2 (R292). -/
def Iss.cardsKept (q : Iss) (ccb : Loc) : Nat := if q.t.levelNow = 0 then 0 else q.t.deferredCards ccb

/-- The group's earlier accesses performed, and the chain with its count told to Telltale (R290, R389). -/
def Iss.cardsTold (q : Iss) (c : BitVec 4) (s : State) : State :=
  (s.flushGroup q.c.team q.c.g).telNote q.t (q.telCard [q.telPair c.toNat (q.uni .a).toNat])

/-- The publication of cards from a position of a chain (R290). -/
def Iss.publication (q : Iss) (c : BitVec 4) (ccb : Loc) (start id : Nat) (cards : List (List Word)) : Publication :=
  { id := id, owner := .chain c.toNat ccb, tenant := q.t.tenant, part := q.t.part, ctx := q.t.ctx, cards := cards, start := start, seg := q.segOf 5,
    det := mrDet q.g.mr, site := some (q.trap clsIllegal) }

/-- Cards deferred to the commit (R292). -/
def Iss.deferCards (q : Iss) (c : BitVec 4) (ccb : Loc) (s : State) (cards : List (List Word)) : State :=
  s.modTeam q.c.team (fun t => { t with deferred := t.deferred ++ [.etail c.toNat ccb cards] })

/-- Cards in a publication that the fragment waits for (R290). -/
def Iss.publishNow (q : Iss) (c : BitVec 4) (ccb : Loc) (start : Nat) (s : State) (cards : List (List Word)) : State :=
  ({ s with pubs := s.pubs ++ [q.publication c ccb start s.nextId cards], nextId := s.nextId + 1 } : State).modGroup q.c.team q.c.g
    (fun g => g.modFrag q.c.f (fun f => { f with wait := .etail s.nextId q.c.addr }))

/-- The cards of an ETAIL published, or deferred at levels 1 and 2 (R290, R292). -/
def Iss.published (q : Iss) (c : BitVec 4) (ccb : Loc) (start : Nat) (s : State) (cards : List (List Word)) : State :=
  if q.t.levelNow ≠ 0 then q.deferCards c ccb (q.cardsTold c s) cards else q.publishNow c ccb start (q.cardsTold c s) cards

/-- ETAIL on a chain whose CCB is at a place: the trap of its step 2, or the cards published (R290). -/
def Iss.publishOn (q : Iss) (c : BitVec 4) (s : State) (ccb : Loc) : Eff :=
  let start := s.ccbTail ccb + q.cardsKept ccb
  match q.cardsFor s ccb c.toNat start (q.cardsKept ccb) (q.uni .a).toNat with
  | (s, .error t) => .trap (s.tookBy q.c.team t)
  | (s, .ok cards) =>
    if q.t.levelNow ≠ 0 then .ok (q.deferCards c ccb (q.cardsTold c s) cards) else .ok (q.publishNow c ccb start (q.cardsTold c s) cards)

/-- What ETAIL comes to. -/
def Iss.etail (q : Iss) (c : BitVec 4) : Eff :=
  if !q.g.drained then .hold .none
  else if (q.uni .a).toNat = 0 then .ok q.s
  else q.onChain c.toNat (.ok (q.cardsTold c q.s)) (q.publishOn c)

theorem effect_etail (l : Option Word) (c : BitVec 4) (a : Code) : HasEffect (.etail l c a) (fun q => q.etail c) := fun _ => rfl

/-- Step 2 of an ETAIL with room in the ring, an engine, slots that can be read and legal cards gives the cards (R290). -/
theorem State.etailRead_cards {s s2 : State} {core : Option Nat} {ten ctx : Nat} {seg : Seg} {ccb : Loc} {chain start m n : Nat} {det : Bool}
    {site : Trap} {slots : List (Nat × Except SlotErr (List Word))} (hroom : m + n ≤ 2 ^ s.ccbLog2 ccb) (hengines : s.chainEngines ccb ten ≠ [])
    (hslots : State.readSlots core ten ctx seg ccb s ((List.range n).map (start + ·)) = (s2, slots)) (hread : slotError slots = none)
    (hlegal : cardsFault (s.ccbClass ccb) det (s.sysord ten) (cardsRead slots) = none) :
    s.etailRead core ten ctx seg ccb chain start m n det site = (s2, .ok ((cardsRead slots).map (·.2))) := by
  unfold State.etailRead
  rw [if_neg (by simpa using ⟨hroom, hengines⟩)]
  simp only [hslots, hlegal, hread]

section
variable {q : Iss} {s : State} {ccb : Loc} {chain start m n : Nat}

theorem Iss.cardsFor_leading (hl : q.t.lead = none) : q.cardsFor s ccb chain start m n =
    s.etailRead q.t.core? q.t.tenant q.t.ctx (q.segOf 5) ccb chain start m n (mrDet q.g.mr) (q.trap clsIllegal) := by
  unfold Iss.cardsFor
  rw [hl]

/-- On a trailing core step 2 is answered as the leading one's was. -/
theorem Iss.cardsFor_answered {ld : Lead} (hl : q.t.lead = some ld) (hf : ld.fault = none) : q.cardsFor s ccb chain start m n = (s, .ok []) := by
  unfold Iss.cardsFor
  simp only [hl, hf]

theorem Iss.cardsFor_refused {ld : Lead} {tr : Trap} (hl : q.t.lead = some ld) (hf : ld.fault = some tr) :
    q.cardsFor s ccb chain start m n = (s, .error (tr.echo (q.trap clsIllegal))) := by
  unfold Iss.cardsFor
  simp only [hl, hf]

end

section
variable {s : State} {fm : Form} {q : Iss} (h : s.issuer fm = some q)
include h

theorem Iss.counted_cardsFor : q.counted.cardsFor = q.cardsFor := by rw [(Iss.counted_eq h).1]; rfl
theorem Iss.counted_cardsKept : q.counted.cardsKept = q.cardsKept := by rw [(Iss.counted_eq h).1]; rfl
theorem Iss.counted_deferCards : q.counted.deferCards = q.deferCards := by rw [(Iss.counted_eq h).1]; rfl
theorem Iss.counted_publishNow : q.counted.publishNow = q.publishNow := by rw [(Iss.counted_eq h).1]; rfl
theorem Iss.counted_cardsTold : q.counted.cardsTold = q.cardsTold := by rw [(Iss.counted_eq h).1]; rfl

/-- Cards that step 2 gives are published. -/
theorem Iss.counted_publishOn {c : BitVec 4} {s1 s2 : State} {ccb : Loc} {cards : List (List Word)}
    (hc : q.cardsFor s1 ccb c.toNat (s1.ccbTail ccb + q.cardsKept ccb) (q.cardsKept ccb) (q.uni .a).toNat = (s2, .ok cards)) :
    q.counted.publishOn c s1 ccb = .ok (q.published c ccb (s1.ccbTail ccb + q.cardsKept ccb) s2 cards) := by
  simp only [Iss.publishOn, Iss.counted_cardsFor h, Iss.counted_cardsKept h, Iss.counted_uni h, hc, Iss.counted_levelNow h,
    Iss.counted_deferCards h, Iss.counted_publishNow h, Iss.counted_cardsTold h]
  exact (apply_ite Eff.ok ..).symm

/-- The trap of step 2 is ETAIL's. -/
theorem Iss.counted_publishOn_trap {c : BitVec 4} {s1 s2 : State} {ccb : Loc} {tr : Trap}
    (hc : q.cardsFor s1 ccb c.toNat (s1.ccbTail ccb + q.cardsKept ccb) (q.cardsKept ccb) (q.uni .a).toNat = (s2, .error tr)) :
    q.counted.publishOn c s1 ccb = .trap (s2.tookBy q.c.team tr) := by
  simp only [Iss.publishOn, Iss.counted_cardsFor h, Iss.counted_cardsKept h, Iss.counted_uni h, hc, Iss.counted_c h]

/-- An ETAIL of n > 0 with drained counters is an instruction of its chain. -/
theorem Iss.counted_etail {c : BitVec 4} (hd : q.g.drained = true) (hn : (q.uni .a).toNat ≠ 0) :
    q.counted.etail c = q.counted.onChain c.toNat (.ok (q.cardsTold c q.counted.s)) (q.counted.publishOn c) := by
  unfold Iss.etail
  rw [Iss.counted_drained h, Iss.counted_uni h, Iss.counted_cardsTold h, hd, if_neg hn]
  rfl

end

section
variable {s : State} {q : Iss} {l : Option Word} {c : BitVec 4} {a : Code} (h : Issues (.etail l c a) s q)
include h

/-- ETAIL waits for its group's counters. -/
theorem exec_etail_held (hd : q.g.drained = false) : exec (.etail l c a) s = .next (q.heldBack .none) := by
  refine (effect_etail l c a).exec_hold h (if_pos ?_)
  rw [Iss.counted_drained h.reads, hd]
  rfl

/-- ETAIL of no card has no effect. -/
theorem exec_etail_zero (hd : q.g.drained = true) (hn : (q.uni .a).toNat = 0) : exec (.etail l c a) s = .next q.counted.s := by
  refine (effect_etail l c a).exec_ok h ((if_neg ?_).trans (if_pos ?_))
  · rw [Iss.counted_drained h.reads, hd]
    exact Bool.false_ne_true
  · rwa [Iss.counted_uni h.reads]

end

/-! ### ESEQ and EWAIT (R296, R297) -/

/-- The distance from a chain's tail to a number, modulo 2^32 (R297). -/
def State.pastTail (s : State) (ccb : Loc) (n : Nat) : Nat := (n + 2 ^ 32 - s.ccbTail ccb % 2 ^ 32) % 2 ^ 32

/-- EWAIT for a number on a chain whose CCB is at a place (R265, R297). -/
def Iss.waitOnChain (q : Iss) (n : Nat) (s : State) (ccb : Loc) : Eff :=
  if q.t.levelNow ≠ 0 && decide (1 ≤ s.pastTail ccb n) && decide (s.pastTail ccb n < 2 ^ 31) then .trap (s.tookBy q.c.team (q.trap clsIllegal))
  else if seqReached (s.ccbSeq ccb) n then .ok ((s.renewL1 q.c.team q.c.g).modGroup q.c.team q.c.g (fun g => { g with hang := 0 }))
  else .ok (((s.modGroup q.c.team q.c.g (fun g => g.modFrag q.c.f (fun f => { f with wait := .ewait ccb n }))).modGroup q.c.team q.c.g
    Group.fixSlots).stopIdle q.c.team)

theorem effect_eseq (d : Code) (sel : BitVec 2) (c : BitVec 4) : HasEffect (.eseq d sel c) (fun q =>
    q.onChain c.toNat (.hold .none) (fun s ccb => .ok ({ q with s := s }.result64 (fun _ => s.eseqValue ccb sel.toNat)))) := fun _ => rfl
theorem effect_ewait (l : Option Word) (a : Code) (c : BitVec 4) : HasEffect (.ewait l a c) (fun q =>
    q.onChain c.toNat (.hold .none) (q.waitOnChain (q.uni .a).toNat)) := fun _ => rfl

/-- At levels 1 and 2 the number of an EWAIT that lies past the tail, where its cards are still to come (R297). -/
def Iss.waitsPast (q : Iss) (n : Nat) (s : State) (ccb : Loc) : Prop :=
  q.t.levelNow ≠ 0 ∧ 1 ≤ s.pastTail ccb n ∧ s.pastTail ccb n < 2 ^ 31

section
variable {s s1 : State} {fm : Form} {q : Iss} {ccb : Loc} {n : Nat} (h : s.issuer fm = some q)
include h

theorem Iss.counted_waitsPast : (q.counted.t.levelNow ≠ 0 && decide (1 ≤ s1.pastTail ccb n) && decide (s1.pastTail ccb n < 2 ^ 31)) = true ↔
    q.waitsPast n s1 ccb := by
  simp [Iss.waitsPast, Iss.counted_levelNow h, and_assoc]

theorem Iss.counted_waitOnChain_past (hp : q.waitsPast n s1 ccb) :
    q.counted.waitOnChain n s1 ccb = .trap (s1.tookBy q.c.team (q.trap clsIllegal)) := by
  rw [Iss.waitOnChain, if_pos ((Iss.counted_waitsPast h).2 hp), Iss.counted_trap h, Iss.counted_c h]

theorem Iss.counted_waitOnChain_reached (hp : ¬q.waitsPast n s1 ccb) (hr : seqReached (s1.ccbSeq ccb) n = true) :
    q.counted.waitOnChain n s1 ccb = .ok ((s1.renewL1 q.c.team q.c.g).modGroup q.c.team q.c.g (fun g => { g with hang := 0 })) := by
  rw [Iss.waitOnChain, if_neg (mt (Iss.counted_waitsPast h).1 hp), if_pos hr, Iss.counted_c h]

theorem Iss.counted_waitOnChain_waits (hp : ¬q.waitsPast n s1 ccb) (hr : seqReached (s1.ccbSeq ccb) n = false) :
    q.counted.waitOnChain n s1 ccb = .ok (((s1.modGroup q.c.team q.c.g (fun g => g.modFrag q.c.f (fun f => { f with wait := .ewait ccb n }))).modGroup
      q.c.team q.c.g Group.fixSlots).stopIdle q.c.team) := by
  rw [Iss.waitOnChain, if_neg (mt (Iss.counted_waitsPast h).1 hp), if_neg (by simp [hr]), Iss.counted_c h]

end

/-! ### What an instruction of a chain comes to -/

/-- The effect, on an issuer, is one on chain k: `blind` where a trailing core's leading one read none, else `read` (R290, R388). -/
def OnChain (i : Instr) (q : Iss) (k : Nat) (blind : Eff) (read : State → Loc → Eff) : Prop :=
  ∃ eff : Iss → Eff, HasEffect i eff ∧ eff q.counted = q.counted.onChain k blind read

section
variable {i : Instr} {s : State} {q : Iss} {k : Nat} {blind : Eff} {read : State → Loc → Eff} (hi : OnChain i q k blind read) (h : Issues i s q)
include hi h

theorem OnChain.exec_trap {tr : Trap} (hc : q.counted.ccb k = .error (some tr)) : exec i s = .next (q.trapped tr) :=
  have ⟨_, he, hq⟩ := hi
  he.exec_trap h (hq.trans (Iss.onChain_trap hc))

theorem OnChain.exec_blind (hc : q.counted.ccb k = .error none) : exec i s = q.outcome blind := by
  obtain ⟨_, he, hq⟩ := hi
  refine (he s).trans ((issueWith_outcome h rfl _).trans (congrArg q.outcome ?_))
  rw [hq, Iss.onChain_blind hc]

theorem OnChain.exec_read {s1 : State} {ccb : Loc} (hc : q.counted.ccb k = .ok (s1, ccb)) : exec i s = q.outcome (read s1 ccb) := by
  obtain ⟨_, he, hq⟩ := hi
  refine (he s).trans ((issueWith_outcome h rfl _).trans (congrArg q.outcome ?_))
  rw [hq, Iss.onChain_read hc]

end

section
variable {s : State} {q : Iss} {l : Option Word} {k : BitVec 4} {hf : BitVec 1} {c : BitVec 4} {a b d : Code} {sel : BitVec 2} {m : Nat}

theorem ecard_onChain (h : Issues (.ecard l k hf c a b) s q) (hm : q.lanes.head? = some m) : OnChain (.ecard l k hf c a b) q c.toNat
    (q.counted.append q.counted.s k (q.counted.blindCard m (q.uni .b).toNat hf.toNat)) (q.counted.storeHalf k hf.toNat m) :=
  ⟨_, effect_ecard l k hf c a b, Iss.counted_ecard h.reads hm⟩

theorem etail_onChain (h : Issues (.etail l c a) s q) (hd : q.g.drained = true) (hn : (q.uni .a).toNat ≠ 0) :
    OnChain (.etail l c a) q c.toNat (.ok (q.cardsTold c q.counted.s)) (q.counted.publishOn c) :=
  ⟨_, effect_etail l c a, Iss.counted_etail h.reads hd hn⟩

theorem eseq_onChain (q : Iss) : OnChain (.eseq d sel c) q c.toNat (.hold .none)
    (fun u ccb => .ok ({ q.counted with s := u }.result64 (fun _ => u.eseqValue ccb sel.toNat))) :=
  ⟨_, effect_eseq d sel c, rfl⟩

theorem ewait_onChain (h : Issues (.ewait l a c) s q) :
    OnChain (.ewait l a c) q c.toNat (.hold .none) (q.counted.waitOnChain (q.uni .a).toNat) :=
  ⟨_, effect_ewait l a c, by rw [Iss.counted_uni h.reads]⟩

end

/-- Settles O36: each is an instruction of its chain, so what reading the chain gives decides it; then ECARD by its store, ETAIL by its step 2,
EWAIT by where the number lies. -/
theorem cardInstructions : Obligations.CardInstructions := by
  intro s q l k h c a b d sel ld tr s1 s2 ccb parts m slots n slot off kept start cards past pub told published appended publishes
  have outcome : ∀ {e e' : Eff}, e = e' → q.outcome e = q.outcome e' := congrArg q.outcome
  simp only [List.forall_mem_cons, List.not_mem_nil, false_imp_iff, implies_true, and_true]
  refine ⟨exec_ecard_empty, fun hi hm hc hslot hseg hparts hdata hroom => ?_, fun hi hm hc hroom => ?_, fun hi hex hc => ?_,
    exec_etail_zero, exec_etail_held, fun ⟨hi, hd, hn⟩ hc hl hroom hengines hslots hread hlegal => ?_, fun ⟨hi, hd, hn⟩ hc hl hr => ?_,
    fun ⟨hi, hd, hn⟩ hc hl hf => ?_, fun ⟨hi, hd, hn⟩ hc hl hf => ?_, fun ⟨hi, hd, hn⟩ hc => ?_, fun ⟨hi, hd, hn⟩ hc => ?_,
    ⟨fun hi => ⟨(eseq_onChain q).exec_blind hi, (eseq_onChain q).exec_trap hi⟩,
      fun hi => ⟨(ewait_onChain hi).exec_blind hi, (ewait_onChain hi).exec_trap hi⟩⟩,
    fun hi => (eseq_onChain q).exec_read hi, fun hi hc hp => ?_, fun hi hc hp hr => ?_, fun hi hc hp hr => ?_⟩
  · exact ((ecard_onChain hi hm).exec_read hi hc).trans (outcome (Iss.counted_storeHalf hi.reads hslot hseg hparts hdata hroom))
  · exact ((ecard_onChain hi hm).exec_blind hi hc).trans (outcome (Iss.counted_append hi.reads hroom ..))
  · obtain ⟨m, hm⟩ := maskList_head?_of_ne_zero hex
    exact (ecard_onChain hi hm).exec_trap hi hc
  · exact ((etail_onChain hi hd hn).exec_read hi hc).trans (outcome (Iss.counted_publishOn hi.reads
      ((Iss.cardsFor_leading hl).trans (State.etailRead_cards hroom hengines hslots hread hlegal))))
  · exact ((etail_onChain hi hd hn).exec_read hi hc).trans (outcome (Iss.counted_publishOn_trap hi.reads ((Iss.cardsFor_leading hl).trans hr)))
  · exact ((etail_onChain hi hd hn).exec_read hi hc).trans (outcome (Iss.counted_publishOn hi.reads (Iss.cardsFor_answered hl hf)))
  · exact ((etail_onChain hi hd hn).exec_read hi hc).trans (outcome (Iss.counted_publishOn_trap hi.reads (Iss.cardsFor_refused hl hf)))
  · exact (etail_onChain hi hd hn).exec_blind hi hc
  · exact (etail_onChain hi hd hn).exec_trap hi hc
  · exact ((ewait_onChain hi).exec_read hi hc).trans (outcome (Iss.counted_waitOnChain_past hi.reads hp))
  · exact ((ewait_onChain hi).exec_read hi hc).trans (outcome (Iss.counted_waitOnChain_reached hi.reads hp hr))
  · exact ((ewait_onChain hi).exec_read hi hc).trans (outcome (Iss.counted_waitOnChain_waits hi.reads hp hr))

end Sys2Proof.Machine
end

section
namespace Sys2Proof.Machine

/-! ### GRAPH and GCOND (R292, R302, R303) -/

/-- The group's earlier accesses performed, and the graph or condition word with its value told to Telltale (R302, R303, R389). -/
def Iss.walkerTold (q : Iss) (s : State) : State :=
  (s.flushGroup q.c.team q.c.g).telNote q.t (q.telCard [q.telPair (q.uni .a).toNat (q.uni .b).toNat])

/-- What the walker is told only at the commit (R292). -/
def Iss.deferToCommit (q : Iss) (x : Deferred) (s : State) : State :=
  s.modTeam q.c.team (fun t => { t with deferred := t.deferred ++ [x] })

/-- What an instruction for the walker comes to, `missing` where its number names nothing: its trap, the deferred x at levels 1 and 2, and
what it does at once at level 0 (R292, R302, R303). -/
def Iss.toWalker (q : Iss) (s : State) (missing : Prop) [Decidable missing] (x : Deferred) (now : State → Eff) : Eff :=
  if missing then .trap (q.trap clsIllegal)
  else if mrDet q.g.mr then .trap (q.trap clsDet)
  else if q.t.levelNow ≠ 0 then .ok (q.deferToCommit x (q.walkerTold s))
  else now (q.walkerTold s)

section
variable {q : Iss} {s : State} {missing : Prop} [Decidable missing] {x : Deferred} {now : State → Eff}

theorem Iss.toWalker_illegal (hm : missing) : q.toWalker s missing x now = .trap (q.trap clsIllegal) := if_pos hm
theorem Iss.toWalker_det (hm : ¬missing) (hd : mrDet q.g.mr = true) : q.toWalker s missing x now = .trap (q.trap clsDet) :=
  (if_neg hm).trans (if_pos hd)
theorem Iss.toWalker_defers (hm : ¬missing) (hd : ¬mrDet q.g.mr = true) (hl : q.t.levelNow ≠ 0) :
    q.toWalker s missing x now = .ok (q.deferToCommit x (q.walkerTold s)) := (if_neg hm).trans ((if_neg hd).trans (if_pos hl))
theorem Iss.toWalker_now (hm : ¬missing) (hd : ¬mrDet q.g.mr = true) (hl : q.t.levelNow = 0) :
    q.toWalker s missing x now = now (q.walkerTold s) := (if_neg hm).trans ((if_neg hd).trans (if_neg (not_not_intro hl)))

end

/-- A graph is loaded in the partition, as the leading core was told where there is one (log 17). -/
def Iss.graphLoaded (q : Iss) (p : Partition) (n : Nat) : Prop :=
  match q.t.lead with
  | some ld => ld.trapped clsIllegal = none
  | none => ∃ r ∈ p.graphs, r.num = n

/-- The model's check of a GRAPH refuses the graphs that are not loaded, and no other. -/
theorem Iss.graphUnknown_iff (q : Iss) (p : Partition) (n : Nat) : (!q.graphKnown p n) = true ↔ ¬q.graphLoaded p n := by
  unfold Iss.graphKnown Iss.graphLoaded
  cases q.t.lead with
  | some ld => simp [Option.isSome_iff_ne_none]
  | none => simp

/-- A start of a graph queued, or held back where the queue has no room (R302). -/
def Iss.queueStart (q : Iss) (p : Partition) (s : State) : Eff :=
  if p.startsFull then .hold .none
  else .ok (s.modPart q.t.part (fun p => { p with starts := p.starts ++ [(q.uni .a, q.uni .b)] }))

theorem Iss.queueStart_room {q : Iss} {p : Partition} (hroom : p.starts.length < 16) (s : State) : q.queueStart p s =
    .ok (s.modPart q.t.part (fun p => { p with starts := p.starts ++ [(q.uni .a, q.uni .b)] })) := if_neg (by simpa [Partition.startsFull] using hroom)
theorem Iss.queueStart_full {q : Iss} {p : Partition} (hfull : 16 ≤ p.starts.length) (s : State) : q.queueStart p s = .hold .none :=
  if_pos (by simpa [Partition.startsFull] using hfull)

/-- A condition word written (R303). -/
def Iss.writeCond (q : Iss) (s : State) : State :=
  s.modPart q.t.part (fun p => { p with cond := p.cond.set (q.uni .a).toNat (q.uni .b) })

theorem effect_graph (l : Option Word) (a b : Code) : HasEffect (.graph l a b) (fun q =>
    let p := (q.s.parts[q.t.part]?).getD {}
    q.toWalker q.s (!q.graphKnown p (q.uni .a).toNat) (.graph (q.uni .a) (q.uni .b)) (q.queueStart p)) := fun _ => rfl
theorem effect_gcond (l : Option Word) (a b : Code) : HasEffect (.gcond l a b) (fun q =>
    q.toWalker q.s (256 ≤ (q.uni .a).toNat) (.gcond (q.uni .a) (q.uni .b)) (fun s => .ok (q.writeCond s))) := fun _ => rfl

section
variable {s : State} {fm : Form} {q : Iss} (h : s.issuer fm = some q)
include h

theorem Iss.counted_toWalker : @Iss.toWalker q.counted = @Iss.toWalker q := by
  funext s missing _ x now
  have hd : q.counted.deferToCommit = q.deferToCommit := by rw [(Iss.counted_eq h).1]; rfl
  have ht : q.counted.walkerTold = q.walkerTold := by rw [(Iss.counted_eq h).1]; rfl
  unfold Iss.toWalker
  rw [Iss.counted_trap h, Iss.counted_trap h, Iss.counted_mr h, Iss.counted_levelNow h, hd, ht]
theorem Iss.counted_graphKnown : q.counted.graphKnown = q.graphKnown := by rw [(Iss.counted_eq h).1]; rfl
theorem Iss.counted_queueStart : q.counted.queueStart = q.queueStart := by rw [(Iss.counted_eq h).1]; rfl
theorem Iss.counted_writeCond : q.counted.writeCond = q.writeCond := by rw [(Iss.counted_eq h).1]; rfl
theorem Iss.counted_part : q.counted.t.part = q.t.part := by rw [Iss.counted_t h]; rfl

end

section
variable {s : State} {q : Iss} {l : Option Word} {a b : Code}

/-- GRAPH in the terms of the issue before it was counted, p the partition. -/
theorem exec_graph {p : Partition} (h : Issues (.graph l a b) s q) (hp : q.counted.s.parts[q.t.part]? = some p) :
    exec (.graph l a b) s = q.outcome (q.toWalker q.counted.s (!q.graphKnown p (q.uni .a).toNat) (.graph (q.uni .a) (q.uni .b)) (q.queueStart p)) := by
  refine (effect_graph l a b s).trans ((issueWith_outcome h rfl _).trans (congrArg q.outcome ?_))
  simp only [Iss.counted_part h.reads, hp, Option.getD_some, Iss.counted_toWalker h.reads, Iss.counted_graphKnown h.reads, Iss.counted_uni h.reads,
    Iss.counted_queueStart h.reads]

/-- GCOND in the terms of the issue before it was counted. -/
theorem exec_gcond (h : Issues (.gcond l a b) s q) :
    exec (.gcond l a b) s = q.outcome (q.toWalker q.counted.s (256 ≤ (q.uni .a).toNat) (.gcond (q.uni .a) (q.uni .b)) (fun u => .ok (q.writeCond u))) := by
  refine (effect_gcond l a b s).trans ((issueWith_outcome h rfl _).trans (congrArg q.outcome ?_))
  simp only [Iss.counted_toWalker h.reads, Iss.counted_uni h.reads, Iss.counted_writeCond h.reads]

end

/-- Settles O37: each is an instruction for the walker, so its number, DET and the level decide it; then GRAPH by the room in the queue. -/
theorem graphInstructions : Obligations.GraphInstructions := by
  intro s q l a b p hp u v loaded det f defer
  have outcome : ∀ {e e' : Eff}, e = e' → q.outcome e = q.outcome e' := congrArg q.outcome
  have unknown : (!q.graphKnown p u.toNat) = true ↔ ¬loaded := q.graphUnknown_iff p u.toNat
  have known : loaded → ¬(!q.graphKnown p u.toNat) = true := fun hk hu => unknown.1 hu hk
  refine ⟨fun hi hk => ?_, fun hi hk hd => ?_, fun hi hk hd hl => ?_, fun hi hk hd hl hroom => ?_, fun hi hk hd hl hfull => ?_,
    fun hi hn => ?_, fun hi hn hd => ?_, fun hi hn hd => ?_⟩
  · exact (exec_graph hi hp).trans (outcome (Iss.toWalker_illegal (unknown.2 hk)))
  · exact (exec_graph hi hp).trans (outcome (Iss.toWalker_det (known hk) hd))
  · exact (exec_graph hi hp).trans (outcome (Iss.toWalker_defers (known hk) hd hl))
  · exact (exec_graph hi hp).trans (outcome ((Iss.toWalker_now (known hk) hd hl).trans (Iss.queueStart_room hroom _)))
  · exact (exec_graph hi hp).trans (outcome ((Iss.toWalker_now (known hk) hd hl).trans (Iss.queueStart_full hfull _)))
  · exact (exec_gcond hi).trans (outcome (Iss.toWalker_illegal hn))
  · exact (exec_gcond hi).trans (outcome (Iss.toWalker_det (Nat.not_le.2 hn) hd))
  · by_cases hl : q.t.levelNow = 0
    · rw [if_neg (not_not_intro hl)]
      exact (exec_gcond hi).trans (outcome (Iss.toWalker_now (Nat.not_le.2 hn) hd hl))
    · rw [if_pos hl]
      exact (exec_gcond hi).trans (outcome (Iss.toWalker_defers (Nat.not_le.2 hn) hd hl))

end Sys2Proof.Machine
end

section
namespace Sys2Proof.Machine

/-! ### Acceptance (R290, R291) -/

section
variable {s u : State} {p : Publication}

theorem execCardAcceptance_taken {cards : List (List Word)} (hp : s.nextPub [] s.pubs = some p) (hc : s.pubCards p = (u, .ok cards)) :
    execCardAcceptance s = .next ((cards.foldl (fun v w => v.acceptCard p w)
      ({ u with pubs := u.pubs.filter (fun y => y.id != p.id) } : State)).endEtail p.id) := by
  simp only [execCardAcceptance, hp, hc]

theorem execCardAcceptance_trapped {tr : Trap} (hp : s.nextPub [] s.pubs = some p) (hc : s.pubCards p = (u, .error tr)) :
    execCardAcceptance s = .next (({ u with pubs := u.pubs.filter (fun y => y.id != p.id) } : State).trapEtail p.id tr) := by
  simp only [execCardAcceptance, hp, hc]

/-- Cards that no ETAIL of level 0 publishes are not read again (R291). -/
theorem State.pubCards_of_no_site (hp : p.site = none) : s.pubCards p = (s, .ok p.cards) := by
  unfold State.pubCards
  rw [hp]
  cases p.owner <;> rfl

/-- Cards of a chain whose TAIL stands where they were read are not read again (log 29). -/
theorem State.pubCards_of_tail {k : Nat} {ccb : Loc} (ho : p.owner = .chain k ccb) (ht : s.ccbTail ccb = p.start) :
    s.pubCards p = (s, .ok p.cards) := by
  unfold State.pubCards
  rw [ho]
  cases p.site with
  | none => rfl
  | some site => exact if_pos ht

end

/-! ### Dispatch (R294) -/

theorem execCardDispatch_picked {s : State} {c : Card} {e : Nat} (h : s.tenantOrder.findSome? s.pickCard = some (c, e)) :
    execCardDispatch s = .next { (s.modCard c.id (fun c => { c with engine := some e })) with engineRR := (c.tenant + 1) % 17 } := by
  simp only [execCardDispatch, h]

/-! ### A card's engine (R287, R294, R295, R298) -/

section
variable {s : State} {c : Card} {card e : Nat} (hc : s.cards.find? (fun c => c.id == card) = some c)
include hc

/-- A ready card that its chain's failure overtook completes without effect. -/
theorem execCardCompletion_overtaken (he : c.engine = none) (hready : c.edges = []) (hover : s.errPosOf c.owner < c.pos) :
    execCardCompletion card s = .next (s.completeCard c 0) := by
  simp only [execCardCompletion, hc, he]
  exact if_pos (by simp [Card.ready, State.overtaken, he, hready, hover])

/-- What the engine of a running card comes to. -/
theorem execCardCompletion_runs {u : State} (he : c.engine = some e) (hh : c.held = none)
    (hu : (State.engineRun (cardBytes c.words + 4) s card e).outcome c = some u) : execCardCompletion card s = .next u := by
  have hr : c.runs = some e := by simp [Card.runs, hh, he]
  simp only [execCardCompletion, hc, he, hr, Option.bind_some, hu]

/-- An engine that has nothing left to do at its first step has moved every byte. -/
theorem State.engineRun_of_over {u : State} (hs : s.engineStep c e = .over u) (n : Nat) : State.engineRun (n + 1) s card e = .over u := by
  simp only [State.engineRun, hc, hs]

end

/-- A COPY, FILL or strided card that has moved every byte is over. -/
theorem State.engineStep_moved {s : State} {c : Card} (hop : cardOp c.words ∈ [1, 2, 3]) (hm : cardBytes c.words ≤ c.moved) (e : Nat) :
    s.engineStep c e = .over s := by
  have hlt : ¬c.moved < cardBytes c.words := Nat.not_lt.2 hm
  simp only [List.mem_cons, List.not_mem_nil, or_false] at hop
  obtain hop | hop | hop := hop <;> simp [State.engineStep, hop, hlt]

section
variable {s : State} {c : Card} {va : Nat} {err : XErr}

theorem State.cardError_fault_fails (h : err.served = none ∨ ∃ k, c.owner = .command k) : s.cardError c (.fault va err) = s.failCard c 2 := by
  simp only [State.cardError]
  obtain h | ⟨k, h⟩ := h
  · rw [h]
  · rw [h]
    cases err.served <;> rfl

theorem State.cardError_fault_held {stage : Nat} (hs : err.served = some stage) (ho : ∀ k, c.owner ≠ .command k) :
    s.cardError c (.fault va err) =
      (s.modCard c.id (fun c => { c with held := some stage })).pushReport (reportTo c.tenant (some stage)) (c.faultBytes va err) := by
  simp only [State.cardError]
  rw [hs]
  cases hown : c.owner with
  | command k => exact absurd hown (ho k)
  | chain k ccb => rfl
  | walker p => rfl

end

/-- The ring of a fault that a stage's owner serves (R350, R415). -/
theorem reportTo_some (ten stage : Nat) : reportTo ten (some stage) = if stage = 2 then .pf else .vf ten := by
  simp only [reportTo, Option.some.injEq]

/-! ### Quay links (R304, R420) -/

section
variable {s : State} {port : Nat}

theorem execQuaySendArrival_up {tag : Nat} (hu : s.portUp port = true) (ht : tag < 2 ^ 32) (bytes : List Byte) :
    execQuaySendArrival port tag bytes s = .next (s.modPort port (fun q => { q with arrived := q.arrived ++ [(tag, bytes)] })) :=
  if_pos (by simpa [hu] using ht)

theorem execQuayLinkDown_up (hu : s.portUp port = true) : execQuayLinkDown port s =
    .next (((s.modPort port (fun q => { q with up := false, arrived := [] })).cards.filter
      (fun c => c.engine == some port && cardClass c.words == some 3)).foldl (fun u c => u.failCard c 5)
        (s.modPort port (fun q => { q with up := false, arrived := [] }))) :=
  if_neg (by simp [hu])

theorem execQuayLinkUp_down (hu : s.portUp port = false) (hp : port < 2) :
    execQuayLinkUp port s = .next (s.modPort port (fun q => { q with up := true })) :=
  if_neg (by simp [hu, hp])

end

/-- Settles O45: acceptance by what reading the cards gives, a card by what its engine's run comes to, each event of a link where it is due. -/
theorem cardEvents : Obligations.CardEvents := by
  intro s u p c e card port tag va bytes err stage cards tr link mine up fails less runs run
  have comes : ∀ {v : State}, runs → run.outcome c = some v → exec (.cardCompletion card) s = .next v :=
    fun ⟨hc, he, hh⟩ hv => execCardCompletion_runs hc he hh hv
  have failsWith : ∀ {x : CardErr}, runs → run = .fails u x → exec (.cardCompletion card) s = .next (u.cardError c x) :=
    fun hr hx => comes hr (by rw [hx]; rfl)
  refine ⟨execCardAcceptance_taken, execCardAcceptance_trapped, ?pubCards, execCardDispatch_picked, execCardCompletion_overtaken,
    fun hr hop hm => ?moved, fun hr hx => comes hr (by rw [hx]; rfl), fun n hr hx => failsWith hr hx, fun hr hx hf => ?failed,
    fun hr hx hs ho => ?held, fun hu ht => execQuaySendArrival_up hu ht bytes, execQuayLinkDown_up, execQuayLinkUp_down⟩
  case pubCards =>
    rintro (hsite | ⟨k, ccb, ho, ht⟩)
    · exact State.pubCards_of_no_site hsite
    · exact State.pubCards_of_tail ho ht
  case moved =>
    have hover : run = .over s := State.engineRun_of_over hr.1 (State.engineStep_moved hop hm e) _
    exact comes hr (by rw [hover]; rfl)
  case failed => exact (failsWith hr hx).trans (congrArg _ (State.cardError_fault_fails hf))
  case held =>
    rw [failsWith hr hx, State.cardError_fault_held hs ho, reportTo_some]

end Sys2Proof.Machine
end

section
namespace Sys2Proof.Machine

/-! ### GRLOAD (R299, R413) -/

/-- A GRLOAD that Pilot takes: a number below 64 of a graph that is not running, and 1 to 4,096 nodes (R299). -/
def Partition.takesGraph (p : Partition) (num len : Nat) : Prop := num < 64 ∧ 1 ≤ len ∧ len ≤ 4096 ∧ p.runOf num = none

/-- The node records of the bytes of a graph (R299). -/
def graphNodes (len : Nat) (l : List Byte) : List (List Word) := (List.range len).map (fun i => ((wordsOf l).drop (8 * i)).take 8)

section
variable {s u : State} {cmd : Nat} {x : Command} {p : Partition} {l : List Byte}

/-- The model's check of a GRLOAD refuses what Pilot does not take, and nothing else. -/
theorem Partition.takesGraph_iff (hp : s.parts[x.part]? = some p) (num len : Nat) :
    (decide (64 ≤ num) || decide (len = 0) || decide (4096 < len) || ((s.parts[x.part]?).bind (fun p => p.runOf num)).isSome) = false ↔
      p.takesGraph num len := by
  simp [hp, Partition.takesGraph, Nat.one_le_iff_ne_zero, and_assoc]

variable (hc : s.cmdOf cmd 0x09 = some x) (hp : s.parts[x.part]? = some p)
include hc hp

theorem execGrload_refused (ht : ¬p.takesGraph (recArg x.words 0) (recArg x.words 2)) : execGrload cmd s = .next (s.finishCmd cmd 7 0) := by
  simp only [execGrload, hc]
  exact if_pos (eq_true_of_ne_false (mt (Partition.takesGraph_iff hp _ _).1 ht))

variable (ht : p.takesGraph (recArg x.words 0) (recArg x.words 2))
include ht

theorem execGrload_untranslated (hr : s.readVa x.tenant x.ctx (recArg x.words 1) (32 * recArg x.words 2) = (u, none)) :
    execGrload cmd s = .next (u.finishCmd cmd 8 0) := by
  simp only [execGrload, hc, hr]
  exact if_neg (ne_true_of_eq_false ((Partition.takesGraph_iff hp _ _).2 ht))

variable (hr : s.readVa x.tenant x.ctx (recArg x.words 1) (32 * recArg x.words 2) = (u, some l))
include hr

theorem execGrload_illegal (hn : ∃ y ∈ graphNodes (recArg x.words 2) l, nodeOk (graphNodes (recArg x.words 2) l) y = false) :
    execGrload cmd s = .next (u.finishCmd cmd 7 0) := by
  simp only [execGrload, hc, hr]
  refine (if_neg (ne_true_of_eq_false ((Partition.takesGraph_iff hp _ _).2 ht))).trans (if_pos ?_)
  rw [Bool.not_eq_true', List.all_eq_false]
  exact hn.imp (fun _ h => ⟨h.1, ne_true_of_eq_false h.2⟩)

theorem execGrload_loaded (hn : ∀ y ∈ graphNodes (recArg x.words 2) l, nodeOk (graphNodes (recArg x.words 2) l) y = true) :
    execGrload cmd s = .next ((u.modPart x.part (fun p => { p with graphs := p.graphs.filter (fun g => g.num != recArg x.words 0)
      ++ [{ num := recArg x.words 0, ctx := x.ctx, nodes := graphNodes (recArg x.words 2) l }] })).finishCmd cmd 0 0) := by
  simp only [execGrload, hc, hr]
  refine (if_neg (ne_true_of_eq_false ((Partition.takesGraph_iff hp _ _).2 ht))).trans (if_neg ?_)
  rw [Bool.not_eq_true', Bool.not_eq_false, List.all_eq_true]
  exact hn

end

/-! ### Starts (R301, R302) -/

section
variable {s : State} {cmd : Nat} {x : Command} {p : Partition} (hc : s.cmdOf cmd 0x0A = some x) (hp : s.parts[x.part]? = some p)
include hc hp

theorem execGrstart_unloaded (hg : ∀ g ∈ p.graphs, g.num ≠ recArg x.words 0) : execGrstart cmd s = .next (s.finishCmd cmd 7 0) := by
  simp only [execGrstart, hc, hp, Option.getD_some]
  exact if_pos (by simpa using hg)

theorem execGrstart_queued (hg : ∃ g ∈ p.graphs, g.num = recArg x.words 0) (hroom : p.starts.length < 16) :
    execGrstart cmd s = .next ((s.modPart x.part (fun p =>
      { p with starts := p.starts ++ [(BitVec.ofNat 32 (recArg x.words 0), BitVec.ofNat 32 (recArg x.words 1))] })).finishCmd cmd 0 0) := by
  simp only [execGrstart, hc, hp, Option.getD_some]
  exact (if_neg (by simpa using hg)).trans (if_neg (by simpa [Partition.startsFull] using hroom))

end

/-- The oldest start begins where its graph does not run (log 55). -/
theorem execGraphStart_begins {s : State} {part : Nat} {p : Partition} {g aw : Word} {rest : List (Word × Word)} (hp : s.parts[part]? = some p)
    (hstarted : p.started = true) (hs : p.starts = (g, aw) :: rest) (hrun : p.runOf g.toNat = none) :
    execGraphStart part s = .next (s.modPart part (fun p =>
      { p with starts := rest, cond := p.cond.set 0 aw, wErrPos := BitVec.allOnes 64, ready := p.ready ++ [(g.toNat, 0)],
               runs := p.runs ++ [{ graph := g.toNat, arg := aw, running := [], arrivals := [], error := false }] })) := by
  simp only [execGraphStart, hp, hs]
  exact if_neg (by simp [hstarted, hrun])

/-! ### Nodes (R300, R301) -/

/-- The context of a graph of the partition. -/
def Partition.graphCtx (p : Partition) (graph : Nat) : Nat := ((p.graphs.find? (fun g => g.num == graph)).map (·.ctx)).getD 0

/-- The oldest ready node taken up by its graph's run, the walker's order left with `more` (R300, R301). -/
def State.runNode (s : State) (part graph n : Nat) (more : List (Nat × Nat)) : State :=
  (s.modPart part (fun p => { p with ready := more })).modPart part
    (fun p => p.modRun graph (fun r => { r with running := r.running ++ [n] }))

/-- A node readies a successor (R300). -/
def Partition.readies (p : Partition) (graph y : Nat) : Partition := (p.addReady graph [y]).modRun graph id

/-- What a node of the other kinds does to its partition (R300). -/
def Partition.actNode (p : Partition) (graph n : Nat) (w : List Word) : Partition :=
  let k := nodeKind w
  let cond := p.cond.get (nodeCond w)
  let p := if k = 6 then { p with cond := p.cond.set (nodeCond w) (BitVec.ofNat 32 (nodeWord w 2)) } else p
  if k = 4 then p.arrive graph n (nodeNpred w) (nodeSucc0 w)
  else p.readies graph (if (k = 2 || k = 3) && cond ≠ 0 then nodeSucc1 w else nodeSucc0 w)

section
variable {p : Partition} {graph n : Nat} {w : List Word}

/-- A branch or while node readies the successor that its condition word picks. -/
theorem Partition.actNode_picks (hk : nodeKind w = 2 ∨ nodeKind w = 3) :
    p.actNode graph n w = p.readies graph (if p.cond.get (nodeCond w) ≠ 0 then nodeSucc1 w else nodeSucc0 w) := by
  obtain hk | hk := hk <;> simp [Partition.actNode, hk]

theorem Partition.actNode_joins (hk : nodeKind w = 4) : p.actNode graph n w = p.arrive graph n (nodeNpred w) (nodeSucc0 w) := by
  simp [Partition.actNode, hk]

theorem Partition.actNode_passes (hk : nodeKind w = 5 ∨ 6 < nodeKind w) : p.actNode graph n w = p.readies graph (nodeSucc0 w) := by
  have h2 : nodeKind w ≠ 2 := by omega
  have h3 : nodeKind w ≠ 3 := by omega
  have h4 : nodeKind w ≠ 4 := by omega
  have h6 : nodeKind w ≠ 6 := by omega
  simp [Partition.actNode, h2, h3, h4, h6]

theorem Partition.actNode_sets (hk : nodeKind w = 6) : p.actNode graph n w =
    ({ p with cond := p.cond.set (nodeCond w) (BitVec.ofNat 32 (nodeWord w 2)) } : Partition).readies graph (nodeSucc0 w) := by
  simp [Partition.actNode, hk]

end

section
variable {s u : State} {part graph n err : Nat} {p : Partition} {more : List (Nat × Nat)} {card : List Word} (hp : s.parts[part]? = some p)
  (hw : p.ready = (graph, n) :: more)
include hp hw

theorem execGraphNode_launches (hk : nodeKind (p.nodeOf graph n) = 0) (hl : (s.runNode part graph n more).launchAt p.owner part
    (p.graphCtx graph) (nodeArg (p.nodeOf graph n)) false none (some (graph, n)) = (u, none)) : execGraphNode part s = .next u := by
  unfold State.runNode Partition.graphCtx at hl
  simp only [execGraphNode, hp, hw, if_pos hk, hl]

/-- A launch node that the launcher refuses is a failed node (log 45). -/
theorem execGraphNode_launch_fails (hk : nodeKind (p.nodeOf graph n) = 0) (hl : (s.runNode part graph n more).launchAt p.owner part
    (p.graphCtx graph) (nodeArg (p.nodeOf graph n)) false none (some (graph, n)) = (u, some err)) :
    execGraphNode part s = .next (u.modPart part (fun p => p.nodeDone graph n false)) := by
  unfold State.runNode Partition.graphCtx at hl
  simp only [execGraphNode, hp, hw, if_pos hk, hl]

theorem execGraphNode_publishes (hk : nodeKind (p.nodeOf graph n) = 1)
    (hn : (s.runNode part graph n more).nodeCard p (p.graphCtx graph) (nodeArg (p.nodeOf graph n)) = (u, some card)) :
    execGraphNode part s = .next { u with
      pubs := u.pubs ++ [{ id := u.nextId, owner := .walker part, tenant := p.owner, part := part, ctx := p.graphCtx graph, cards := [card],
                           node := some (graph, n) }],
      nextId := u.nextId + 1 } := by
  unfold State.runNode Partition.graphCtx at hn
  simp only [execGraphNode, hp, hw, hk, one_ne_zero, if_false, if_true, hn, Partition.graphCtx]

/-- A card node whose card is not accepted fails at the position that it would take. -/
theorem execGraphNode_card_fails (hk : nodeKind (p.nodeOf graph n) = 1)
    (hn : (s.runNode part graph n more).nodeCard p (p.graphCtx graph) (nodeArg (p.nodeOf graph n)) = (u, none)) :
    execGraphNode part s = .next ((u.noteFailure (.walker part) p.owner (u.walkerPos part p) 6).modPart part
      (fun p => p.nodeDone graph n false)) := by
  unfold State.runNode Partition.graphCtx at hn
  simp only [execGraphNode, hp, hw, hk, one_ne_zero, if_false, if_true, hn]

/-- A node of another kind acts on its partition alone. -/
theorem execGraphNode_acts (hk : 1 < nodeKind (p.nodeOf graph n)) :
    execGraphNode part s = .next ((s.modPart part (fun p => { p with ready := more })).modPart part
      (fun y => y.actNode graph n (p.nodeOf graph n))) := by
  simp only [execGraphNode, hp, hw, if_neg (by omega : ¬nodeKind (p.nodeOf graph n) = 0), if_neg (by omega : ¬nodeKind (p.nodeOf graph n) = 1)]
  rfl

end

/-- Settles O46: GRLOAD and GRSTART by their checks in their order, the start where it is due, a node by its kind. -/
theorem graphEvents : Obligations.GraphEvents := by
  intro s u cmd part graph n err x p g aw rest more l card hp num len loads legal nodes starts w k ctx walks took running failed acts readies
  have act : ∀ f : Partition → Partition, walks → 1 < k → (∀ y : Partition, y.actNode graph n w = f y) → acts f :=
    fun f hw hk hf => (execGraphNode_acts hp hw hk).trans (congrArg (fun f => Host.Outcome.next (took.modPart part f)) (funext hf))
  refine ⟨?refused, ?untranslated, ?illegal, ?loaded, ?unloaded, ?queued, execGraphStart_begins hp, execGraphNode_launches hp,
    execGraphNode_launch_fails hp, execGraphNode_publishes hp, execGraphNode_card_fails hp, fun hw hk => ?picks, fun hw hk => ?joins,
    fun hw hk => ?passes, fun hw hk => ?sets⟩
  case refused =>
    rintro ⟨hc, rfl⟩
    exact execGrload_refused hc hp
  case untranslated =>
    rintro ⟨hc, rfl⟩
    exact execGrload_untranslated hc hp
  case illegal =>
    rintro ⟨hc, rfl⟩
    exact execGrload_illegal hc hp
  case loaded =>
    rintro ⟨hc, rfl⟩
    exact execGrload_loaded hc hp
  case unloaded =>
    rintro ⟨hc, rfl⟩
    exact execGrstart_unloaded hc hp
  case queued =>
    rintro ⟨hc, rfl⟩
    exact execGrstart_queued hc hp
  case picks => exact act _ hw (by omega) (fun _ => Partition.actNode_picks hk)
  case joins => exact act _ hw (by omega) (fun _ => Partition.actNode_joins hk)
  case passes => exact act _ hw (by omega) (fun _ => Partition.actNode_passes hk)
  case sets => exact act _ hw (by omega) (fun _ => Partition.actNode_sets hk)

end Sys2Proof.Machine
end

section
namespace Sys2Proof.Machine

/-! ### A stream word by what its effect is (R307, R325, R328) -/

section
variable {charge : Nat} {eff : SIss → SEff} {s t : State} {q : SIss} {w : StreamSt} {tr : Trap} (h : s.streamIssuer = some q)
include h

/-- A stream word that completes. -/
theorem streamWord_of_ok (he : eff (q.counted charge) = .ok t) : streamWord charge eff s = .next (q.done t) := by rw [streamWord_eq h, he]

/-- A stream word that sets the sequencer's next address itself. -/
theorem streamWord_of_jump (he : eff (q.counted charge) = .jump t) : streamWord charge eff s = .next t := by rw [streamWord_eq h, he]

/-- A stream word that waits. -/
theorem streamWord_of_hold (he : eff (q.counted charge) = .hold w) : streamWord charge eff s = .next (q.heldBack w) := by
  rw [streamWord_eq h, he]

/-- A stream word that traps. -/
theorem streamWord_of_trap (he : eff (q.counted charge) = .trap tr) : streamWord charge eff s = .next (q.trapped tr) := by
  rw [streamWord_eq h, he]

end

/-! What a stream word reads is what stood before it was counted. -/

section
variable (q : SIss) (charge : Nat)

theorem SIss.counted_t : (q.counted charge).t = q.t := rfl
theorem SIss.counted_offset (off stride : BitVec 16) (lsel : BitVec 2) : (q.counted charge).offset off stride lsel = q.offset off stride lsel := rfl
theorem SIss.counted_mmaReady (af bf ab bb : Nat) : (q.counted charge).mmaReady af bf ab bb = q.mmaReady af bf ab bb := rfl

end

/-! ### Tiles of the accumulator store (R311, R319, R320) -/

section
variable {s : State} {q : SIss} (h : s.streamIssuer = some q) {at' : BitVec 2} {slot : BitVec 3}
include h

section
variable (ht : tileOk at' slot = true)
include ht

theorem execMzero_cleared : execMzero at' slot s =
    .next (q.done ((q.counted 0).modStream (fun st => { st with acc := clearTile st.acc at' slot }))) :=
  streamWord_of_ok h (if_neg (by simp [ht]))

theorem execMscale_scaled (scl : BitVec 8) : execMscale scl at' slot s =
    .next (q.done ((q.counted 0).modStream (fun st => { st with acc := mapTile st.acc at' slot (fun x =>
      (({ f := accFmt at', mode := 0, rv := 0, ftz := false } : RCtx).scale ((accFmt at').decode x) scl.toInt).1) }))) :=
  streamWord_of_ok h (if_neg (by simp [ht]))

/-- MMA over buffers that hold its formats leaves what the tree gives. -/
theorem execMma_accumulated {af bf : BitVec 5} {ab bb ovw : BitVec 1} (ha : af ≠ 0) (hb : bf ≠ 0) (hk : mfK af.toNat = mfK bf.toNat)
    (hr : q.mmaReady af.toNat bf.toNat ab.toNat bb.toNat = true) : execMma af bf at' slot ab bb ovw s =
      .next (q.done ((q.counted 4096).modStream (fun st =>
        { st with acc := q.mmaAcc af.toNat bf.toNat at' slot ab.toNat bb.toNat (ovw == 1) }))) := by
  have ha0 : af.toNat ≠ 0 := fun h0 => ha (BitVec.eq_of_toNat_eq h0)
  have hb0 : bf.toNat ≠ 0 := fun h0 => hb (BitVec.eq_of_toNat_eq h0)
  exact streamWord_of_ok h (if_neg (by simp [ha0, hb0, hk, ht, SIss.counted_mmaReady, hr]))

end

section
variable (ht : tileOk at' slot = false)
include ht

theorem execMzero_illegal : execMzero at' slot s = .next (q.trapped (q.trap clsIllegal)) := streamWord_of_trap h (if_pos (by simp [ht]))

theorem execMscale_illegal (scl : BitVec 8) : execMscale scl at' slot s = .next (q.trapped (q.trap clsIllegal)) :=
  streamWord_of_trap h (if_pos (by simp [ht]))

theorem execMma_illegal (af bf : BitVec 5) (ab bb ovw : BitVec 1) : execMma af bf at' slot ab bb ovw s = .next (q.trapped (q.trap clsIllegal)) :=
  streamWord_of_trap h (if_pos (by simp [ht]))

end

end

/-! ### MLDA and MACC of the stream (R307, R318, R330) -/

/-- The A image that MLDA reads at a scratchpad address (R318). -/
def SIss.imageAt (q : SIss) (fmt : BitVec 5) (a : Int) : Staging :=
  { bytes := cutBytes q.t.body.scratch a.toNat (mfImage 64 fmt.toNat), tag := some fmt.toNat }

/-- The scratchpad's bytes after a slot's words are written from b on, 16 KiB of it (R330). -/
def SIss.slotSpilled (q : SIss) (slot : BitVec 3) (b : Nat) (c : Cells 8) : Cells 8 :=
  (q.st.acc.filter (fun p => slotOf p.1 == slot.toNat)).foldl (fun c p => c.writeNat (b + slotByte p.1) 4 p.2.toNat)
    (c.keep (fun k => !(decide (b ≤ k) && decide (k < b + 16384))))

/-- The accumulator words after a slot is filled from the scratchpad's 16 KiB at b (R330). -/
def SIss.slotFilled (q : SIss) (slot : BitVec 3) (b : Nat) (acc : Cells 32) : Cells 32 :=
  (cutBytes q.t.body.scratch b 16384).foldl (fun c p =>
    c.set (slotWord slot.toNat p.1) (c.get (slotWord slot.toNat p.1) ||| BitVec.ofNat 32 (p.2.toNat * 2 ^ (8 * (p.1 % 4)))))
    (acc.keep (fun k => slotOf k != slot.toNat))

/-- What Telltale hears of a slot filled from the scratchpad's bytes at b (R389). -/
def SIss.slotTold (q : SIss) (slot : BitVec 3) (b : Nat) : TelEvent :=
  q.telDrain ((cutBytes q.t.body.scratch b 16384).map (fun p => { lid := 0, mask := 1, addr := 16384 * slot.toNat + p.1, data := p.2.toNat }))

section
variable {s : State} {q : SIss} (h : s.streamIssuer = some q)
include h

section
variable {fmt : BitVec 5} {abuf : BitVec 1} {lsel : BitVec 2} {stride off : BitVec 16} (hf : fmt ≠ 0) (hl : lsel ≠ 3)
include hf hl

theorem execMlda_loaded (hr : (q.counted 512).rangeFails 32 (q.offset off stride lsel) (mfImage 64 fmt.toNat) = false)
    (hue : (q.counted 512).scratchUE (q.offset off stride lsel).toNat (mfImage 64 fmt.toNat) = none) : execMlda fmt abuf lsel stride off s =
      .next (q.done ((q.counted 512).modStream (fun st =>
        { st with a := listModify st.a abuf.toNat (fun _ => q.imageAt fmt (q.offset off stride lsel)) }))) := by
  refine streamWord_of_ok h ?_
  simp only [SIss.counted_offset, hr, hue]
  exact if_neg (by simpa using ⟨hf, hl⟩)

theorem execMlda_outside (hr : (q.counted 512).rangeFails 32 (q.offset off stride lsel) (mfImage 64 fmt.toNat) = true) :
    execMlda fmt abuf lsel stride off s = .next (q.trapped (q.segTrap (q.offset off stride lsel))) :=
  streamWord_of_trap h ((if_neg (by simpa using ⟨hf, hl⟩)).trans (if_pos hr))

end

section
variable {slot : BitVec 3} {off : BitVec 16}

theorem execMaccRdStream_spilled (hr : (q.counted 512).rangeFails 32 (Int.ofNat (32 * off.toNat)) 16384 = false) : execMaccRdStream slot off s =
    .next (q.done ((q.counted 512).s.modTeam q.c.team (fun t => t.modBody (fun bd =>
      { bd with scratch := q.slotSpilled slot (32 * off.toNat) bd.scratch,
                scratchUE := clearScratchUE bd.scratchUE (32 * off.toNat) 16384 })))) :=
  streamWord_of_ok h (if_neg (ne_true_of_eq_false hr))

theorem execMaccWrStream_filled (hr : (q.counted 512).rangeFails 32 (Int.ofNat (32 * off.toNat)) 16384 = false)
    (hue : (q.counted 512).scratchUE (32 * off.toNat) 16384 = none) : execMaccWrStream slot off s =
      .next (q.done (((q.counted 512).modStream (fun st => { st with acc := q.slotFilled slot (32 * off.toNat) st.acc })).telNote q.t
        (q.slotTold slot (32 * off.toNat)))) := by
  refine streamWord_of_ok h ((if_neg (ne_true_of_eq_false hr)).trans ?_)
  simp only [hue]
  rfl

variable (hr : (q.counted 512).rangeFails 32 (Int.ofNat (32 * off.toNat)) 16384 = true)
include hr

theorem execMaccRdStream_outside : execMaccRdStream slot off s = .next (q.trapped (q.segTrap (Int.ofNat (32 * off.toNat)))) :=
  streamWord_of_trap h (if_pos hr)

theorem execMaccWrStream_outside : execMaccWrStream slot off s = .next (q.trapped (q.segTrap (Int.ofNat (32 * off.toNat)))) :=
  streamWord_of_trap h (if_pos hr)

end

end

/-- Settles O39: a tile by whether it is legal, an image or a slot by whether its range lies in the scratchpad. -/
theorem streamArithmetic : Obligations.StreamArithmetic := by
  intro s q at' slot scl af bf fmt ab bb ovw abuf lsel stride off h z a n b w scaled loaded filled spilled
  simp only [List.forall_mem_cons, List.not_mem_nil, false_imp_iff, implies_true, and_true]
  exact ⟨execMzero_cleared h, fun ht => execMscale_scaled h ht scl,
    fun ht => ⟨execMzero_illegal h ht, execMscale_illegal h ht scl, execMma_illegal h ht af bf ab bb ovw⟩,
    fun ha hb hk ht => execMma_accumulated h ht ha hb hk, execMlda_loaded h, execMlda_outside h, execMaccRdStream_spilled h,
    execMaccWrStream_filled h, fun hr => ⟨execMaccRdStream_outside h hr, execMaccWrStream_outside h hr⟩⟩

end Sys2Proof.Machine
end

section
namespace Sys2Proof.Machine

/-! ### Barriers, loops and the end of the stream (R325-R329) -/

/-- The team after its stream has arrived at a barrier, the sequencer gone on (R325). -/
def SIss.arriveAt (q : SIss) (n : Nat) (t : Team) : Team :=
  (t.modBody (fun bd => { bd with barriers := listModify bd.barriers n (fun b => { b with streamArr := true }) })).modStream (fun st =>
    st.advance q.c.addr)

/-- A loop that MLOOP may push: of a count and a body, at a depth below 2, inside the enclosing loops (R328). -/
def SIss.admitsLoop (q : SIss) (count : BitVec 16) (body : BitVec 10) (stop : DWord) : Prop :=
  count ≠ 0 ∧ body ≠ 0 ∧ q.st.loops.length < 2 ∧ ∀ l ∈ q.st.loops, stop.toNat ≤ l.stop.toNat

/-- The model's check of an MLOOP passes the loops that may be pushed, and no other. -/
theorem SIss.loopPasses_iff (q : SIss) (count : BitVec 16) (body : BitVec 10) (stop : DWord) :
    (count = 0 || body = 0 || decide (2 ≤ q.st.loops.length) || q.st.loops.any (fun l => decide (l.stop.toNat < stop.toNat))) = false ↔
      q.admitsLoop count body stop := by
  simp [SIss.admitsLoop, and_assoc]

section
variable {s : State} {q : SIss} (h : s.streamIssuer = some q)
include h

section
variable {n : BitVec 4} {bar : Barrier} (hb : q.t.body.barriers[n.toNat]? = some bar)
include hb

theorem execMarrb_foreign (hs : bar.stream = false) : execMarrb n s = .next (q.trapped (q.trap clsIllegal)) := by
  refine streamWord_of_trap h ?_
  simp only [SIss.counted_t, hb, hs]
  rfl

theorem execMarrb_stalls (hs : bar.stream = true) (ha : bar.streamArr = true) :
    execMarrb n s = .next (q.heldBack (.stallBarrier n.toNat bar.c)) := by
  refine streamWord_of_hold h ?_
  simp only [SIss.counted_t, hb, hs, ha]
  rfl

theorem execMarrb_arrives (hs : bar.stream = true) (ha : bar.streamArr = false) :
    execMarrb n s = .next (((q.counted 0).s.modTeam q.c.team (q.arriveAt n.toNat)).testBarrier q.c.team n.toNat) := by
  refine streamWord_of_jump h ?_
  simp only [SIss.counted_t, hb, hs, ha]
  rfl

theorem execMwaitb_passed (hp : phasePassed bar.c ((q.st.t[n.toNat]?).getD 0) = true) : execMwaitb n s =
    .next (q.done ((q.counted 0).modStream (fun st => { st with t := listModify st.t n.toNat (· + 1) }))) := by
  refine streamWord_of_ok h ?_
  simp only [SIss.counted_t, hb]
  exact if_pos hp

theorem execMwaitb_waits (hp : phasePassed bar.c ((q.st.t[n.toNat]?).getD 0) = false) :
    execMwaitb n s = .next (q.heldBack (.waitBarrier n.toNat)) := by
  refine streamWord_of_hold h ?_
  simp only [SIss.counted_t, hb]
  exact if_neg (ne_true_of_eq_false hp)

end

section
variable {count : BitVec 16} {body : BitVec 10}

theorem execMloop_pushed (hl : q.admitsLoop count body (q.c.addr + 8 + BitVec.ofNat 64 (8 * body.toNat))) :
    execMloop count body s = .next ((q.counted 0).modStream (fun st =>
      { st with addr := q.c.addr + 8,
                loops := { start := q.c.addr + 8, stop := q.c.addr + 8 + BitVec.ofNat 64 (8 * body.toNat), index := 0,
                           count := count.toNat } :: st.loops })) :=
  streamWord_of_jump h (if_neg (ne_true_of_eq_false ((q.loopPasses_iff count body _).2 hl)))

theorem execMloop_illegal (hl : ¬q.admitsLoop count body (q.c.addr + 8 + BitVec.ofNat 64 (8 * body.toNat))) :
    execMloop count body s = .next (q.trapped (q.trap clsIllegal)) :=
  streamWord_of_trap h (if_pos (eq_true_of_ne_false (mt (q.loopPasses_iff count body _).1 hl)))

end

/-- MEND performs the stream's writes and stops it for good. -/
theorem execMend_ended : execMend s = .next (((((q.counted 0).modStream (fun st => { st with st := .ended })).drainWc
    (WcEntry.ofGroup q.c.team streamGroup)).testBarriers q.c.team (·.stream)).fixAll q.c.team) := streamWord_of_jump h rfl

end

/-! ### MDRAIN (R307, R322-R324) -/

/-- A drain whose output and merge pass every check has its effect. -/
theorem SIss.drainRest_passed {q : SIss} {f : DrainFields} {d : DrainDesc} {s1 s2 s3 : State} {outs mp : List Part}
    (hseg : q.drainSeg (drainSpans f d ++ (if f.maxen = 1 then [(!d.maxsp, d.maxaddr, 4)] else [])) = none)
    (houts : q.drainParts q.s f d = (s1, .ok outs)) (hmerge : q.mergeParts f d s1 = (s2, .ok mp))
    (hpoison : mp.find? (s2.partPoisoned q.t) = none) (hscope : q.mergeTrap f = none)
    (htake : s2.takeFor q.t (partLines (outs ++ mp)) = (s3, none)) : q.drainRest f d = .ok (q.drainEffect f s3 outs mp) := by
  simp only [SIss.drainRest, hseg, houts, hmerge, hpoison, hscope, htake]

section
variable {s : State} {q : SIss} (h : s.streamIssuer = some q) {f : DrainFields}
include h

theorem execMdrain_illegal (hf : drainOk f = false) : execMdrain f s = .next (q.trapped (q.trap clsIllegal)) :=
  streamWord_of_trap h (if_pos (by simp [hf]))

/-- MDRAIN of legal fields whose descriptor is in reach and legal comes to the checks of its output. -/
theorem execMdrain_described {d : DrainDesc} {t : State} (hf : drainOk f = true)
    (hr : (q.counted 1024).rangeFails 32 ((q.counted 1024).offset f.doff f.dstride f.lsel) 32 = false)
    (hue : (q.counted 1024).scratchUE ((q.counted 1024).offset f.doff f.dstride f.lsel).toNat 32 = none)
    (hd : (q.counted 1024).desc f ((q.counted 1024).offset f.doff f.dstride f.lsel).toNat = some d)
    (hrest : (q.counted 1024).drainRest f d = .ok t) : execMdrain f s = .next (q.done t) := by
  refine streamWord_of_ok h ?_
  simp only [hf, hr, hue, hd, hrest]
  rfl

end

/-- Settles O40: MARRB and MWAITB by the state of their barrier, MLOOP by whether its loop may be pushed, MDRAIN by its checks in their order. -/
theorem streamControl : Obligations.StreamControl := by
  intro s q n count body bar f d s1 s2 s3 outs mp h z start stop ill k legal dz a
  exact ⟨fun hb => ⟨execMarrb_foreign h hb, execMarrb_stalls h hb, execMarrb_arrives h hb, execMwaitb_passed h hb, execMwaitb_waits h hb⟩,
    execMloop_pushed h, execMloop_illegal h, execMend_ended h, execMdrain_illegal h,
    fun hf hr hue hd hseg houts hmerge hpoison hscope htake =>
      execMdrain_described h hf hr hue hd (SIss.drainRest_passed hseg houts hmerge hpoison hscope htake)⟩

end Sys2Proof.Machine
end

section
namespace Sys2Proof.Machine

/-! ### CSRW (R5, R364, R365) -/

/-- What CSRW of a value comes to inside the handler (R5, R365). -/
def Iss.writeCsr (q : Iss) (n : Code) (x : Word) : Eff :=
  if n.toNat = 10 then
    (if bitsOf x 1 0 ≠ 0 then .trap (q.trap clsIllegal) else .ok (q.modLevel (fun lv => { lv with jrnext := cat64 (hi32 lv.jrnext) x })))
  else if n.toNat = 11 then
    (if bitsOf x 31 20 ≠ 0 then .trap (q.trap clsIllegal) else .ok (q.modLevel (fun lv => { lv with jrnext := cat64 x (lo32 lv.jrnext) })))
  else .ok q.s

/-- A value that CSRW refuses: reserved bits of JRNEXT that are set (R365). -/
def csrRefused (n : Code) (x : Word) : Prop := (n = 10 ∧ x.toNat % 4 ≠ 0) ∨ (n = 11 ∧ 2 ^ 20 ≤ x.toNat)

/-- The two lowest bits of a word are its value modulo 4. -/
theorem bitsOf_lowest (x : Word) : bitsOf x 1 0 = x.toNat % 4 := (natBits_eq x.toNat 1 0).trans (congrArg (· % 4) (Nat.div_one _))

/-- The bits from 20 up of a word are zero where it lies below 2^20, and nowhere else. -/
theorem bitsOf_above_eq_zero (x : Word) : bitsOf x 31 20 = 0 ↔ x.toNat < 2 ^ 20 := by
  have hx := x.isLt
  have hb : bitsOf x 31 20 = x.toNat / 2 ^ 20 % 2 ^ 12 := natBits_eq x.toNat 31 20
  rw [hb]
  omega

section
variable {q : Iss} {n : Code} {x : Word}

theorem Iss.writeCsr_low (hx : x.toNat % 4 = 0) :
    q.writeCsr 10 x = .ok (q.modLevel (fun lv => { lv with jrnext := cat64 (hi32 lv.jrnext) x })) :=
  if_neg (not_not_intro ((bitsOf_lowest x).trans hx))

theorem Iss.writeCsr_high (hx : x.toNat < 2 ^ 20) :
    q.writeCsr 11 x = .ok (q.modLevel (fun lv => { lv with jrnext := cat64 x (lo32 lv.jrnext) })) :=
  if_neg (not_not_intro ((bitsOf_above_eq_zero x).2 hx))

theorem Iss.writeCsr_refused (hx : csrRefused n x) : q.writeCsr n x = .trap (q.trap clsIllegal) := by
  obtain ⟨rfl, hx⟩ | ⟨rfl, hx⟩ := hx
  · exact if_pos (mt (bitsOf_lowest x).symm.trans hx)
  · exact if_pos (mt (bitsOf_above_eq_zero x).1 (Nat.not_lt.2 hx))

/-- A read-only CSR ignores the write. -/
theorem Iss.writeCsr_ignored (h10 : n ≠ 10) (h11 : n ≠ 11) : q.writeCsr n x = .ok q.s :=
  (if_neg (fun h => h10 (BitVec.eq_of_toNat_eq h))).trans (if_neg (fun h => h11 (BitVec.eq_of_toNat_eq h)))

end

theorem effect_csrw (l : Option Word) (a n : Code) : HasEffect (.csrw l a n) (fun q =>
    if q.f.jr.length = 0 then .trap (q.trap clsIllegal) else q.writeCsr n (q.uni .a)) := fun _ => rfl

section
variable {s : State} {q : Iss} {l : Option Word} {a n : Code} (h : Issues (.csrw l a n) s q)
include h

theorem exec_csrw_outside (hj : q.f.jr = []) : exec (.csrw l a n) s = .next (q.trapped (q.trap clsIllegal)) :=
  (effect_csrw l a n).exec_trap h (by simp only [Iss.counted_depth h.reads, hj, Iss.counted_trap h.reads]; rfl)

theorem exec_csrw_inside (hj : q.f.jr ≠ []) : exec (.csrw l a n) s = q.outcome (q.counted.writeCsr n (q.uni .a)) := by
  refine (effect_csrw l a n s).trans ((issueWith_outcome h rfl _).trans (congrArg q.outcome ?_))
  simp only [Iss.counted_depth h.reads, Iss.counted_uni h.reads]
  exact if_neg (mt List.length_eq_zero_iff.1 hj)

theorem exec_csrw_refused (hx : csrRefused n (q.uni .a)) : exec (.csrw l a n) s = .next (q.trapped (q.trap clsIllegal)) := by
  by_cases hj : q.f.jr = []
  · exact exec_csrw_outside h hj
  · rw [exec_csrw_inside h hj, Iss.writeCsr_refused hx, Iss.counted_trap h.reads]
    rfl

end

/-! ### SEGLD (R364, R366) -/

/-- The limit that SEGLD reads in a lane (R366). -/
def Iss.segLimit (q : Iss) (m : Nat) : Nat := (cat64 (q.rd (q.opA.next 3) m) (q.rd (q.opA.next 2) m)).toNat % 2 ^ 53

/-- A limit out of range: bits above it, or, of SG3, off a multiple of 16 (R366). -/
def Iss.segRefused (q : Iss) (g : BitVec 3) (m : Nat) : Prop :=
  bitsOf (q.rd (q.opA.next 3) m) 31 21 ≠ 0 ∨ (g = 3 ∧ q.segLimit m % 16 ≠ 0)

/-- What SEGLD comes to in a lane (R366). -/
def Iss.loadSeg (q : Iss) (g : BitVec 3) (m : Nat) : Eff :=
  if bitsOf (q.rd (q.opA.next 3) m) 31 21 ≠ 0 || (g.toNat = 3 && q.segLimit m % 16 ≠ 0) then .trap (q.trapAt clsIllegal m)
  else .ok (q.modGroup (fun gr => { gr with seg := listModify gr.seg g.toNat (fun _ =>
    { base := cat64 (q.rd (q.opA.next 1) m) (q.rd (q.opA.next 0) m), limit := q.segLimit m }) }))

theorem effect_segld (a : Code) (g : BitVec 3) : HasEffect (.segld a g) (fun q =>
    if !q.privileged || g.toNat = 1 || g.toNat = 4 || g.toNat = 5 then .trap (q.trap clsIllegal)
    else
      match q.lanes.head? with
      | none => .ok q.s
      | some m => q.loadSeg g m) := fun _ => rfl

/-- SG1, SG4 and SG5 are not SEGLD's to load. -/
theorem segLocked_iff (g : BitVec 3) : g ∈ ([1, 4, 5] : List (BitVec 3)) ↔ g.toNat = 1 ∨ g.toNat = 4 ∨ g.toNat = 5 := by
  revert g
  decide

/-- The model's check of a SEGLD refuses what is not allowed, and nothing else. -/
theorem segldBarred_iff (q : Iss) (g : BitVec 3) : (!q.privileged || g.toNat = 1 || g.toNat = 4 || g.toNat = 5) = true ↔
    ¬q.privileged = true ∨ g ∈ ([1, 4, 5] : List (BitVec 3)) := by
  simp only [segLocked_iff, Bool.or_eq_true, Bool.not_eq_true', Bool.not_eq_true, decide_eq_true_eq, or_assoc]

/-- The model's check of a limit refuses those out of range, and no other. -/
theorem Iss.segRefused_iff (q : Iss) (g : BitVec 3) (m : Nat) :
    (bitsOf (q.rd (q.opA.next 3) m) 31 21 ≠ 0 || (g.toNat = 3 && q.segLimit m % 16 ≠ 0)) = true ↔ q.segRefused g m := by
  have hg : g.toNat = 3 ↔ g = 3 := ⟨fun h => BitVec.eq_of_toNat_eq h, fun h => h ▸ rfl⟩
  simp only [Iss.segRefused, ← hg, Bool.or_eq_true, Bool.and_eq_true, decide_eq_true_eq]

section
variable {s : State} {q : Iss} {a : Code} {g : BitVec 3} {m : Nat} (h : Issues (.segld a g) s q)
include h

theorem exec_segld_barred (hb : ¬q.counted.privileged = true ∨ g ∈ ([1, 4, 5] : List (BitVec 3))) :
    exec (.segld a g) s = .next (q.trapped (q.trap clsIllegal)) :=
  (effect_segld a g).exec_trap h ((if_pos ((segldBarred_iff _ g).2 hb)).trans (congrArg Eff.trap (Iss.counted_trap h.reads _)))

variable (hp : q.counted.privileged = true) (hg : g ∉ ([1, 4, 5] : List (BitVec 3))) (hm : q.lanes.head? = some m)
include hp hg hm

/-- An allowed SEGLD loads what the lowest lane of EXEC gives. -/
theorem exec_segld_lane : exec (.segld a g) s = q.outcome (q.counted.loadSeg g m) := by
  refine (effect_segld a g s).trans ((issueWith_outcome h rfl _).trans (congrArg q.outcome ?_))
  simp only [Iss.counted_lanes h.reads, hm]
  exact if_neg (mt (segldBarred_iff _ g).1 (not_or.2 ⟨not_not_intro hp, hg⟩))

theorem exec_segld_loaded (hl : ¬q.segRefused g m) : exec (.segld a g) s = .next (q.counted.modGroup (fun gr =>
    { gr with seg := listModify gr.seg g.toNat (fun _ =>
      { base := cat64 (q.rd (q.opA.next 1) m) (q.rd (q.opA.next 0) m), limit := q.segLimit m }) })) := by
  rw [exec_segld_lane h hp hg hm]
  simp only [Iss.loadSeg, Iss.segLimit, Iss.counted_rd h.reads, Iss.counted_opA h.reads]
  exact congrArg q.outcome (if_neg (mt (q.segRefused_iff g m).1 hl))

theorem exec_segld_refused (hl : q.segRefused g m) : exec (.segld a g) s = .next (q.trapped (q.trapAt clsIllegal m)) := by
  rw [exec_segld_lane h hp hg hm]
  simp only [Iss.loadSeg, Iss.segLimit, Iss.counted_rd h.reads, Iss.counted_opA h.reads, Iss.counted_trapAt h.reads]
  exact congrArg q.outcome (if_pos ((q.segRefused_iff g m).2 hl))

end

/-! ### TLBINV (R362, R364, R367) -/

/-- The group's earlier accesses performed, and TLB entries gone from the partition on which the team stands (R367; log 59). -/
def Iss.dropTlb (q : Iss) (p : TlbEntry → Bool) : State := (q.s.flushGroup q.c.team q.c.g).tlbDrop (q.s.partOf q.t) p

theorem effect_tlbinv : HasEffect .tlbinv (fun q =>
    if !q.privileged then .trap (q.trap clsIllegal) else .ok (q.dropTlb (fun e => e.ctx == q.t.ctx))) := fun _ => rfl

theorem effect_tlbinvVa (a : Code) : HasEffect (.tlbinvVa a) (fun q =>
    if !q.privileged then .trap (q.trap clsIllegal)
    else
      match q.lanes.head? with
      | none => .ok q.s
      | some m => .ok (q.dropTlb (fun e => e.maps q.t.ctx (q.a64 m).toNat))) := fun _ => rfl

theorem Iss.counted_dropTlb {s : State} {fm : Form} {q : Iss} (h : s.issuer fm = some q) (p : TlbEntry → Bool) :
    q.counted.dropTlb p = (q.counted.s.flushGroup q.c.team q.c.g).tlbDrop (q.counted.s.partOf q.t) p := by
  rw [Iss.dropTlb, Iss.counted_c h, Iss.counted_t h]
  rfl

section
variable {s : State} {q : Iss} {a : Code} {m : Nat}

theorem exec_tlbinv_barred (h : Issues .tlbinv s q) (hp : ¬q.counted.privileged = true) :
    exec .tlbinv s = .next (q.trapped (q.trap clsIllegal)) :=
  effect_tlbinv.exec_trap h ((if_pos (by simpa using hp)).trans (congrArg Eff.trap (Iss.counted_trap h.reads _)))

theorem exec_tlbinvVa_barred (h : Issues (.tlbinvVa a) s q) (hp : ¬q.counted.privileged = true) :
    exec (.tlbinvVa a) s = .next (q.trapped (q.trap clsIllegal)) :=
  (effect_tlbinvVa a).exec_trap h ((if_pos (by simpa using hp)).trans (congrArg Eff.trap (Iss.counted_trap h.reads _)))

theorem exec_tlbinv_dropped (h : Issues .tlbinv s q) (hp : q.counted.privileged = true) :
    exec .tlbinv s = .next (q.counted.dropTlb (fun e => e.ctx == q.t.ctx)) := by
  refine effect_tlbinv.exec_ok h ((if_neg (by simp [hp])).trans ?_)
  rw [Iss.counted_ctx h.reads]

theorem exec_tlbinvVa_dropped (h : Issues (.tlbinvVa a) s q) (hp : q.counted.privileged = true) (hm : q.lanes.head? = some m) :
    exec (.tlbinvVa a) s = .next (q.counted.dropTlb (fun e => e.maps q.t.ctx (q.a64 m).toNat)) := by
  refine (effect_tlbinvVa a).exec_ok h ((if_neg (by simp [hp])).trans ?_)
  simp only [Iss.counted_lanes h.reads, hm, Iss.counted_ctx h.reads, Iss.counted_a64 h.reads]

end

/-- Settles O33: CSRW by whether it stands in the handler and what its CSR takes, SEGLD and TLBINV by whether they are allowed. -/
theorem handlerRegistersAndTranslation : Obligations.HandlerRegistersAndTranslation := by
  intro s q l a n g m ill x jrnext w limit bad may drop
  simp only [List.forall_mem_cons, List.not_mem_nil, false_imp_iff, implies_true, and_true]
  have dropped : ∀ {i : Instr} {p : TlbEntry → Bool}, Issues i s q → Host.Outcome.next (q.counted.dropTlb p) = drop p :=
    fun h => congrArg Host.Outcome.next (Iss.counted_dropTlb h.reads _)
  refine ⟨exec_csrw_outside, ?low, ?high, exec_csrw_refused, fun h hj h10 h11 => ?ignored, exec_segld_barred,
    fun h hp hg hm hl => exec_segld_loaded h hp hg hm hl, fun h hp hg hm hl => exec_segld_refused h hp hg hm hl,
    ⟨exec_tlbinv_barred, exec_tlbinvVa_barred⟩, fun h hp => (exec_tlbinv_dropped h hp).trans (dropped h),
    fun h hp hm => (exec_tlbinvVa_dropped h hp hm).trans (dropped h)⟩
  case low =>
    rintro h hj rfl hx
    rw [exec_csrw_inside h hj, Iss.writeCsr_low hx]
    rfl
  case high =>
    rintro h hj rfl hx
    rw [exec_csrw_inside h hj, Iss.writeCsr_high hx]
    rfl
  case ignored =>
    rw [exec_csrw_inside h hj, Iss.writeCsr_ignored h10 h11]
    rfl

end Sys2Proof.Machine
end

section
namespace Sys2Proof.Machine

/-! ### A write that ends at the start of physical memory (R412) -/

/-- Tenant 0, whose intermediate pages 0 and 1, of 2 MiB each, lie at the physical pages 1 and 0. -/
def swappedPages : State :=
  let s := { State.reset with
    tenants := listModify State.reset.tenants 0 (fun t => { t with s2root := 0x400000, ialim := 0x400000 }),
    parts := listModify State.reset.parts 0 (fun p => { p with en := true, chan := 1 }) }
  (((s.physWrite 0x400000 8 0x401003).physWrite 0x401000 8 0x402003).physWrite 0x402000 8 0x200005).physWrite 0x402008 8 5

/-- A write of 8 bytes that goes on into the physical page 0 goes on at its first byte. -/
theorem swappedPages_store : (swappedPages.fnStore (.vf 0) 0x1FFFFC 8 (2 ^ 32)).physByte 0 = 1 := by decide +kernel

/-- Refutes O44: the statement takes the place of a write's second part as `last - 7 + m`, in numbers that do not go below 0, where `last` is
the physical address of the write's last byte. Where the second page is the physical page 0, `last` is below 7: of the 8 bytes at the
intermediate address 0x1FFFFC the last lies at 3, and their second part at 0, not at 4. -/
theorem not_queueAndReportEvents : ¬ Obligations.QueueAndReportEvents := by
  intro h
  obtain ⟨-, -, -, -, -, -, -, -, -, hstore, -⟩ := h swappedPages 0 0 0 0 0 0 0x3FFFFC .stream (.vf 0) (newTeam wordGrid 0 32 0)
    { id := 0, cls := 0, pc := 0, lids := [], len := 4 } [] [] {} {}
    { id := 0, fn := .pf, queue := 0, part := 0, ctx := 0, pos := 0, words := [], code := none } 0 ⟨0, 0, 0, 0, 0, 0, 0, 0, 0⟩ [] 0
  obtain ⟨-, hcrossing⟩ := hstore 0x1FFFFC (2 ^ 32) 3 (by decide +kernel) (by decide +kernel)
  have hbyte := congrArg (fun s => s.physByte 0) (hcrossing (by decide))
  rw [swappedPages_store] at hbyte
  exact absurd hbyte (by decide +kernel)

end Sys2Proof.Machine
end

section
namespace Sys2Proof.Machine

/-! ### RESUME and S2RESUME (R341, R342, R350, R358, R378, R413) -/

/-- A reported trap answered by RETRY or SKIP, its team's slots refilled (R341). -/
def State.answered (s : State) (t : Team) (tr : Trap) (retry : Bool) : State :=
  (s.modTeam t.id (fun t => t.answer tr retry)).modTeam t.id (fun t => t.modBody (fun b => { b with groups := b.groups.map Group.fixSlots }))

/-- A command with an answer is due where its opcode's command is found. -/
theorem State.resumeCmd_of_answer {s : State} {cmd a : Nat} {s2 : Bool} {x : Command} (hc : s.cmdOf cmd (if s2 then 0x21 else 0x08) = some x)
    (ha : x.answer = a) : s.resumeCmd cmd a s2 = some x := by
  simp only [State.resumeCmd, hc, if_pos ha]

theorem State.resumeCmd_of_other {s : State} {cmd a : Nat} {s2 : Bool} {x : Command} (hc : s.cmdOf cmd (if s2 then 0x21 else 0x08) = some x)
    (ha : x.answer ≠ a) : s.resumeCmd cmd a s2 = none := by
  simp only [State.resumeCmd, hc, if_neg ha]

section
variable {s : State} {x : Command} {t : Team} {tr : Trap} {k : Card} {retry s2 : Bool}

theorem Trap.waits_iff : tr.waits t = true ↔ tr.served.isSome = true ∧ t.isSaved = true := Bool.and_eq_true_iff

section
variable (hn : x.namesCard = false)
include hn

section
variable (ht : s.namedTrap x s2 = some (t, tr))
include ht

/-- A trap that admits RETRY is answered, or its answer kept where it waits for a resume (R378). -/
theorem State.resumeTrap_retry (hl : tr.late = false) : s.resumeTrap x true s2 =
    (if tr.served.isSome = true ∧ t.isSaved = true then s.keepAnswer t tr 0 else s.answered t tr true).finishCmd x.id 0 0 := by
  simp only [State.resumeTrap, hn, ht, hl, Trap.waits_iff, Bool.false_eq_true, if_false, Bool.and_false, Bool.not_true, Bool.false_and,
    Bool.or_false]
  exact (apply_ite (fun u : State => u.finishCmd x.id 0 0) ..).symm

theorem State.resumeTrap_late (hl : tr.late = true) : s.resumeTrap x true s2 = s.finishCmd x.id 7 0 := by
  simp [State.resumeTrap, hn, ht, hl]

theorem State.resumeTrap_skip (hv : tr.served = none) : s.resumeTrap x false s2 = (s.answered t tr false).finishCmd x.id 0 0 := by
  simp [State.resumeTrap, hn, ht, hv, Trap.waits, State.answered]

theorem State.resumeTrap_served (hv : ∃ m, tr.served = some m) : s.resumeTrap x false s2 = s.finishCmd x.id 7 0 := by
  obtain ⟨m, hv⟩ := hv
  simp [State.resumeTrap, hn, ht, hv]

theorem State.resumeKill_trap : s.resumeKill x s2 =
    (if tr.served.isSome = true ∧ t.isSaved = true then s.keepAnswer t tr 2 else s.killGrid t.grid tr.cls).finishCmd x.id 0 0 := by
  simp only [State.resumeKill, hn, ht, Trap.waits_iff, Bool.false_eq_true, if_false]

end

section
variable (ht : s.namedTrap x s2 = none)
include ht

theorem State.resumeTrap_unnamed : s.resumeTrap x retry s2 = s.finishCmd x.id 7 0 := by simp [State.resumeTrap, hn, ht]

theorem State.resumeKill_unnamed : s.resumeKill x s2 = s.finishCmd x.id 7 0 := by simp [State.resumeKill, hn, ht]

end

end

section
variable (hn : x.namesCard = true)
include hn

theorem State.resumeTrap_card (hk : s.namedCard x s2 = some k) : s.resumeTrap x true s2 =
    (s.modCard k.id (fun k => { k with held := none })).finishCmd x.id 0 0 := by simp [State.resumeTrap, hn, hk]

/-- No card admits SKIP. -/
theorem State.resumeTrap_card_skip : s.resumeTrap x false s2 = s.finishCmd x.id 7 0 := by
  cases hk : s.namedCard x s2 <;> simp [State.resumeTrap, hn, hk]

theorem State.resumeTrap_no_card (hk : s.namedCard x s2 = none) : s.resumeTrap x retry s2 = s.finishCmd x.id 7 0 := by
  simp [State.resumeTrap, hn, hk]

theorem State.resumeKill_card (hk : s.namedCard x s2 = some k) : s.resumeKill x s2 = (s.failCard k 2).finishCmd x.id 0 0 := by
  simp [State.resumeKill, hn, hk]

theorem State.resumeKill_no_card (hk : s.namedCard x s2 = none) : s.resumeKill x s2 = s.finishCmd x.id 7 0 := by
  simp [State.resumeKill, hn, hk]

end

end

/-- What the events of an owner's answers do: for stage 1 RESUME's, for stage 2 S2RESUME's (R341, R350). -/
def retryOf (s2 : Bool) : Nat → State → Host.Outcome State Fault Refusal := if s2 then execS2resumeRetry else execResumeRetry
def skipOf (s2 : Bool) : Nat → State → Host.Outcome State Fault Refusal := if s2 then execS2resumeSkip else execResumeSkip
def killOf (s2 : Bool) : Nat → State → Host.Outcome State Fault Refusal := if s2 then execS2resumeKill else execResumeKill

section
variable {s : State} {cmd : Nat} {s2 : Bool} {x : Command} (hc : s.cmdOf cmd (if s2 then 0x21 else 0x08) = some x)
include hc

theorem retryOf_named (ha : x.answer = 0) : retryOf s2 cmd s = .next (s.resumeTrap x true s2) := by
  have h0 := State.resumeCmd_of_answer hc ha
  cases s2 with
  | false => exact (execResumeRetry.eq_def cmd s).trans (by simp only [h0])
  | true => exact (execS2resumeRetry.eq_def cmd s).trans (by simp only [h0])

/-- An answer code of 3 is none of the three. -/
theorem retryOf_malformed (ha : x.answer = 3) : retryOf s2 cmd s = .next (s.finishCmd x.id 7 0) := by
  have h3 := State.resumeCmd_of_answer hc ha
  have h0 := State.resumeCmd_of_other (a := 0) hc (by omega)
  cases s2 with
  | false => exact (execResumeRetry.eq_def cmd s).trans (by simp only [h0, h3])
  | true => exact (execS2resumeRetry.eq_def cmd s).trans (by simp only [h0, h3])

theorem skipOf_named (ha : x.answer = 1) : skipOf s2 cmd s = .next (s.resumeTrap x false s2) := by
  have h1 := State.resumeCmd_of_answer hc ha
  cases s2 with
  | false => exact (execResumeSkip.eq_def cmd s).trans (by simp only [h1])
  | true => exact (execS2resumeSkip.eq_def cmd s).trans (by simp only [h1])

theorem killOf_named (ha : x.answer = 2) : killOf s2 cmd s = .next (s.resumeKill x s2) := by
  have h2 := State.resumeCmd_of_answer hc ha
  cases s2 with
  | false => exact (execResumeKill.eq_def cmd s).trans (by simp only [h2])
  | true => exact (execS2resumeKill.eq_def cmd s).trans (by simp only [h2])

end

/-- Settles O48: the three answers are one operation for both owners; each by whether its command names a card or a trap, and what the trap
admits. -/
theorem resumeAnswers : Obligations.ResumeAnswers := by
  intro s cmd x t tr k z hz
  have owner : z.1 = (if z.2.1 then 0x21 else 0x08) ∧ exec z.2.2.1 s = retryOf z.2.1 cmd s ∧ exec z.2.2.2.1 s = skipOf z.2.1 cmd s
      ∧ exec z.2.2.2.2 s = killOf z.2.1 cmd s := by
    revert z
    simp only [List.forall_mem_cons, List.not_mem_nil, false_imp_iff, implies_true, and_true]
    exact ⟨⟨rfl, rfl, rfl, rfl⟩, ⟨rfl, rfl, rfl, rfl⟩⟩
  obtain ⟨hop, hretry, hskip, hkill⟩ := owner
  rw [hop, hretry, hskip, hkill]
  intro hc done answer card waits answered
  obtain rfl := State.cmdOf_id hc
  have retries : ∀ {u : State}, answer = 0 → s.resumeTrap x true z.2.1 = u → retryOf z.2.1 x.id s = .next u :=
    fun ha hu => (retryOf_named hc ha).trans (congrArg _ hu)
  have skips : ∀ {u : State}, answer = 1 → s.resumeTrap x false z.2.1 = u → skipOf z.2.1 x.id s = .next u :=
    fun ha hu => (skipOf_named hc ha).trans (congrArg _ hu)
  have kills : ∀ {u : State}, answer = 2 → s.resumeKill x z.2.1 = u → killOf z.2.1 x.id s = .next u :=
    fun ha hu => (killOf_named hc ha).trans (congrArg _ hu)
  have isCard : card → x.namesCard = true := beq_iff_eq.2
  have isTrap : ¬card → x.namesCard = false := beq_eq_false_iff_ne.2
  refine ⟨fun ha hn ht hl => retries ha (State.resumeTrap_retry (isTrap hn) ht hl),
    fun ha hn ht hl => retries ha (State.resumeTrap_late (isTrap hn) ht hl), fun ha hn ht hv => skips ha (State.resumeTrap_skip (isTrap hn) ht hv),
    fun ha hn ht hv => skips ha (State.resumeTrap_served (isTrap hn) ht hv),
    fun ha hn ht => kills ha (State.resumeKill_trap (isTrap hn) ht), fun ha hn hk => retries ha (State.resumeTrap_card (isCard hn) hk),
    fun ha hn => skips ha (State.resumeTrap_card_skip (isCard hn)), fun ha hn hk => kills ha (State.resumeKill_card (isCard hn) hk),
    retryOf_malformed hc, fun hnone => ?_⟩
  by_cases hn : card
  · rw [if_pos hn] at hnone
    have hn := isCard hn
    exact ⟨fun ha => retries ha (State.resumeTrap_no_card hn hnone), fun ha => skips ha (State.resumeTrap_no_card hn hnone),
      fun ha => kills ha (State.resumeKill_no_card hn hnone)⟩
  · rw [if_neg hn] at hnone
    have hn := isTrap hn
    exact ⟨fun ha => retries ha (State.resumeTrap_unnamed hn hnone), fun ha => skips ha (State.resumeTrap_unnamed hn hnone),
      fun ha => kills ha (State.resumeKill_unnamed hn hnone)⟩

end Sys2Proof.Machine
end

section
namespace Sys2Proof.Machine

/-! ### The machine right after reset (R404-R445) -/

theorem State.reset_tenant {t : Tenant} (h : t ∈ State.reset.tenants) : t = {} := List.eq_of_mem_replicate h
theorem State.reset_part {p : Partition} (h : p ∈ State.reset.parts) : p = {} := List.eq_of_mem_replicate h
theorem State.reset_rail {r : Rail} (h : r ∈ State.reset.rails) : r = {} := List.eq_of_mem_replicate h

theorem State.reset_function {r : FnRegs} (h : r ∈ State.reset.pfRegs :: State.reset.vfs) : r = {} := by
  obtain rfl | h := List.mem_cons.1 h
  · rfl
  · exact List.eq_of_mem_replicate h

theorem State.reset_port {p : QuayPort} (h : p ∈ State.reset.quay) : p = {} :=
  List.eq_of_mem_replicate (show p ∈ List.replicate 2 {} from h)

theorem State.reset_physByte (a : Nat) : State.reset.physByte a = 0 := by
  rw [State.physByte]
  split <;> rfl

/-- Nothing runs before the bring-up, so no cluster is clocked at all. -/
theorem State.reset_clocksSafe : State.reset.clocksSafe := fun hup => absurd hup (by decide)

/-- Settles O56: every block of registers holds its defaults; memory is empty, and the part is not up. -/
theorem resetState : Obligations.ResetState := by
  refine ⟨⟨rfl, fun t ht => ?tenant⟩, ⟨rfl, fun p hp => ?part⟩, fun r hr => ?function, fun p hp => ?port,
    rfl, rfl, rfl, rfl, rfl, rfl, rfl, rfl, rfl, ⟨rfl, fun r hr => ?rail⟩, rfl, rfl, rfl, rfl, rfl, State.reset_physByte, State.reset_memWf, State.reset_clocksSafe⟩
  case tenant =>
    rw [State.reset_tenant ht]
    and_intros <;> rfl
  case part =>
    rw [State.reset_part hp]
    and_intros <;> rfl
  case function =>
    rw [State.reset_function hr]
    exact ⟨rfl, rfl, rfl, rfl, fun _ => rfl⟩
  case port =>
    rw [State.reset_port hp]
    exact ⟨rfl, rfl, rfl⟩
  case rail => rw [State.reset_rail hr]

end Sys2Proof.Machine
end
